-- ==== Sys2Proof/Word.lean ====
section
/-! DEFINITION. The word types of the model and the sparse-map type: the plainest data, with no behaviour of its own. -/

namespace Sys2Proof

/-- One byte (R5: multi-byte fields are little-endian, byte 0 least significant). -/
abbrev Byte := BitVec 8

/-- One 64-bit register (R613). -/
abbrev Word := BitVec 64

/-- A SHAKE256 output of 256 bits (R542), byte 0 in the lowest eight bits. -/
abbrev Hash := BitVec 256

/-- A table keyed by number, in one canonical form: keys strictly rising, and no entry equal to the
value an unlisted key reads as. `Machine/Store.lean` reads and writes it. -/
abbrev Smap (β : Type) := List (Nat × β)

/-- Completion status codes (R11). -/
inductive Status where
  | ok | dataErr | targetReset | unavailable | denied | malformed | busy | timeout | version | checkFail
deriving DecidableEq, Repr, Inhabited

end Sys2Proof
end

