-- ==== Sys2Proof/Syntax.lean ====
section
/-! DEFINITION. The commands of the block: one constructor of `Instr` for each row of spec/opcode_table.json, with the
operands the row's rule names, and the data the operands carry (messages, flits, observations of a check). -/

namespace Sys2Proof

/-- Outcome of a voted read of the program store or descriptor tables (R37, R39). -/
inductive Vote where
  | agree      -- all three copies agree
  | majority   -- one copy disagrees; the majority is used
  | noMajority -- no two agree: the core is fenced
deriving DecidableEq, Repr, Inhabited

/-- What the checks saw while a core issued an instruction: the vote of its program word and descriptor
entries (R37), and the tile-store words it read in error (R94). -/
structure IssueObs where
  vote : Vote
  corrected : List Nat   -- tile-store words corrected, by number within the store
  double : Bool
deriving DecidableEq, Repr, Inhabited

/-- What hardware did wrong in one tile pass, as values delivered in place of the right ones (R78: a fault in a
DPU or a sentinel), and the duplicated paths that mismatched (R70, R75). All empty: a pass without a fault. -/
structure PassObs where
  dpu : List (Nat × Nat × BitVec 32)
  checkRow : List (Nat × BitVec 32)
  checkCol : List (Nat × BitVec 32)
  corner : Option (BitVec 32)
  loader : Bool
  chainAdd : Bool
  corrected : List Nat   -- tile-store words corrected, by number within the store
  double : Bool
  wgbCorrected : Nat     -- words corrected in the wide gradient buffer, or in the Urn, that the result is added into
  wgbDouble : Bool
  spills : List Nat      -- CRC-32C failures of the spills to the Urn's log that the result brings about, in order (R236)
deriving DecidableEq, Repr, Inhabited

/-- What the words read of a tile store, a wide gradient buffer or an Urn hold in error (R94): words corrected, by number within
the store, and whether one had a double-bit error. -/
structure StoreObs where
  corrected : List Nat
  double : Bool
deriving DecidableEq, Repr, Inhabited

/-- What an instruction's last items meet, beside what they compute: errors in the words read, errors in the words that a write
narrower than a word reads (R94), and additions into the Urn's merged rows that fail, each once or, recomputed, again (R238). -/
structure ItemObs where
  rd : StoreObs
  wr : StoreObs
  addFails : Bool
  addFailsAgain : Bool
deriving DecidableEq, Repr, Inhabited

/-- What the queue of an instruction that ends, and its last items, meet. -/
structure HeadObs where
  queue : Nat
  obs : ItemObs
deriving DecidableEq, Repr, Inhabited

/-- The core whose chunk the Samovar takes, and what the words read for it hold in error. -/
structure OfferObs where
  core : Nat
  obs : StoreObs
deriving DecidableEq, Repr, Inhabited

/-- The port whose Infuser delivers a chunk, and how many copies of it in a row fail CRC-32C at a leaf: a core or, from 16,384 on, a
memory controller (R37, R110). -/
structure DeliveryObs where
  port : Nat
  fails : List (Nat × Nat)
deriving DecidableEq, Repr, Inhabited

/-- What training finds in the transmit direction: the lanes it excludes, and those whose precoder the partner asks for (R329). -/
structure TxTraining where
  lanes : Nat
  precode : Nat
deriving DecidableEq, Repr, Inhabited

/-- One operation of a lane as the lane's checker sees it (R98): mantissas and product, the adder's aligned addends (the rounding
increment among them) and its unnormalised sum, both exponent paths, and the value the lane delivers where it is not the
right one. -/
structure LaneObs where
  lane : Nat
  ma : BitVec 24
  mb : BitVec 24
  p : BitVec 48
  addends : List Int
  sum : Int
  exp : BitVec 16
  expDup : BitVec 16
  out : Option (BitVec 32)
deriving DecidableEq, Repr, Inhabited

/-- What hardware did in the beats of one group: the lanes at which an operation went wrong, and the words read in error. A lane that
is not listed worked right. -/
structure BeatObs where
  lanes : List LaneObs
  corrected : List Nat
  double : Bool
deriving DecidableEq, Repr, Inhabited

/-- A message of the stream fabric (R345): the 32-byte transaction header, field by field, and the body. -/
structure Msg where
  type : BitVec 8
  status : BitVec 4
  req : Bool
  resp : Bool
  tag : BitVec 14
  job : BitVec 16
  group : BitVec 8
  epoch : BitVec 8
  src : BitVec 16
  dst : BitVec 16
  length : BitVec 32
  chunk : BitVec 32
  rsvd : Bool            -- a rsvd field of the header is non-zero
  body : List Byte
deriving DecidableEq, Repr, Inhabited

/-- The fields of a Sip reduction flit (R312). `payload` is words 0 to 7. -/
structure SipFlit where
  job : BitVec 16
  group : BitVec 8
  epoch : BitVec 8
  seq : BitVec 16
  op : BitVec 4
  down : Bool
  words : Nat            -- payload words minus 1
  status : Status
  count : BitVec 32
  payload : List (BitVec 32)
deriving DecidableEq, Repr, Inhabited

/-- A flit as its bytes: 256 of a codeword pair (R339), 64 of the Sip path (R312). -/
abbrev FlitBytes := List Byte

/-- A Sip flit and the slot of the link that it comes in (R360). -/
structure SlotFlit where
  slot : Nat
  bytes : FlitBytes
deriving DecidableEq, Repr, Inhabited

/-- A codeword pair as the FEC decoder delivers it (R332, R333): whether a codeword was uncorrectable, the corrected
symbols per physical lane, the pair header, and the five flits; and the errors that the pattern checkers of lanes have counted
meanwhile (R336, R361). -/
structure PairObs where
  uncorrectable : Bool
  corrected : List (Nat × Nat)
  prbs : List (Nat × Nat)
  header : BitVec 40
  flits : List FlitBytes
deriving DecidableEq, Repr, Inhabited

/-- A mesh flit, as its 80 bytes (R106). -/
abbrev MeshFlit := List Byte

/-- A message from the host (R405): its head, field by field, and its payload. `rsvd`: a rsvd field of the head is not
zero. `truncated`: cut off by link loss (R408). The command rows carry a CMD with that row's command code. -/
structure HostMsg where
  type : Nat
  queue : Nat
  tag : Nat
  length : Nat
  arg : Word
  rsvd : Bool
  truncated : Bool
  payload : List Byte
deriving DecidableEq, Repr, Inhabited

/-- A host message that accesses memory: what the words of a tile store that it reads hold in error, and the flit retries that the D2D
adapter has made since the last access; no row of their own reports them (R403, R420; DESIGN CHOICE, log entry 104). -/
structure HostAccess where
  msg : HostMsg
  obs : StoreObs
  retries : Nat
deriving DecidableEq, Repr, Inhabited

/-- The address and UDP port a management message came from (R576). -/
structure MgtSrc where
  addr : BitVec 128
  port : BitVec 16
deriving DecidableEq, Repr, Inhabited

/-- A management message (R574): its source, header and body. -/
structure MgtMsg where
  src : MgtSrc
  magic : BitVec 32
  version : BitVec 8
  type : BitVec 8
  seq : BitVec 32
  length : Nat
  serial : Word
  job : BitVec 16
  rsvd : Bool
  body : List Byte
deriving DecidableEq, Repr, Inhabited

/-- Who writes a register, for the registers that not every writer may write (R7, R384). -/
inductive Writer where
  | host | firmware | blend
deriving DecidableEq, Repr, Inhabited

/-- What the boot ROM and the fuse vote find at power-on (R461, R462, R472). -/
structure BootObs where
  slot0Ok : Bool
  slot1Ok : Bool
  fuseVote : Bool
  identityVote : Bool
  default0Ok : Bool
  default1Ok : Bool
deriving DecidableEq, Repr, Inhabited

/-- What a memory controller reports of its stack (R466, R472). -/
structure StackObs where
  trained : Bool
  lostDies : List Nat
deriving DecidableEq, Repr, Inhabited

/-- A DRAM symbol the stack supplies wrong on an access: codeword, position and the value XORed in (R376). -/
abbrev Upset := List (Nat × Nat × Byte)

/-- A copy of a critical word disturbed: copy number and the 72-bit pattern XORed into its codeword (R383). -/
abbrev CritUpset := List (Nat × BitVec 72)

/-- What the stack supplies wrong when the scrubber reads: in a granule, and in the copies of a critical word (R386). -/
structure ScrubObs where
  granule : Upset
  crit : CritUpset
deriving DecidableEq, Repr, Inhabited

/-- What the last leaf of a DMA transfer answers (R110). -/
inductive LeafAnswer where
  | ok | crcFail | noReply
deriving DecidableEq, Repr, Inhabited

/-- How the copy of a fenced core's tile store and wide gradient buffer into its spare went (R486, R487): every word decoded, a word
that did not, or a crossbar port that does not answer. -/
inductive CopyOutcome where
  | decoded (tile : List Nat) (wgb : Nat) | undecoded | noAnswer
deriving DecidableEq, Repr, Inhabited

/-- One sample of the module's sensors (R559, R562, R563). Junction readings: die, sensor, 1/16 degrees. -/
structure PowerObs where
  millivolts : Nat
  deciAmps : Nat
deriving DecidableEq, Repr, Inhabited

structure TempObs where
  die : Nat
  junction : List Int     -- readings of the working sensors, 1/16 degrees Celsius
  stack : Int             -- degrees Celsius
deriving DecidableEq, Repr, Inhabited

structure CoolantObs where
  flow : Nat              -- 0.01 L/min
  inlet : Int             -- 1/16 degrees Celsius
  outlet : Int
deriving DecidableEq, Repr, Inhabited

/-- A PTP master as its Announce describes it (R584): the data set the best-master algorithm compares. -/
structure PtpMaster where
  priority1 : Nat
  clockClass : Nat
  accuracy : Nat
  variance : Nat
  priority2 : Nat
  identity : BitVec 64
  steps : Nat
  port : BitVec 80
deriving DecidableEq, Repr, Inhabited

/-- An Announce message (R584). -/
structure PtpAnnounce where
  domain : Nat
  master : PtpMaster
deriving DecidableEq, Repr, Inhabited

/-- A Sync exchange, one-step or two-step, with the offset from the master it measures, in ns (R584, R585). -/
structure PtpSync where
  domain : Nat
  port : BitVec 80
  offset : Int
deriving DecidableEq, Repr, Inhabited

/-- The commands, one constructor for each row of spec/opcode_table.json, in the table's order. -/
inductive Instr where
  /-- PWR_EN_ASSERT (R459). -/
  | pwrEnAssert (b : BootObs)
  /-- PWR_EN_DEASSERT (R600). -/
  | pwrEnDeassert
  /-- INPUT_OUT_OF_RANGE (R566). -/
  | inputOutOfRange
  /-- RING_START (R465). -/
  | ringStart
  /-- ROUTER_TEST_DONE (R472). -/
  | routerTestDone (die : Nat) (ok : Bool)
  /-- STACK_READY (R466). -/
  | stackReady (die : Nat) (o : StackObs)
  /-- WAVE_START (R467). -/
  | waveStart
  /-- CORE_TEST_DONE (R468). -/
  | coreTestDone (failed : List Nat) (unitsFailed : List Nat)
  /-- FAILURE_RECORD_WRITE (R463). -/
  | failureRecordWrite (core : Nat)
  /-- BRINGUP_COMPLETE (R459). -/
  | bringupComplete
  /-- MRD (R407). -/
  | mrd (m : HostAccess)
  /-- MWR (R407). -/
  | mwr (m : HostAccess)
  /-- EACK (R415). -/
  | eack (m : HostMsg)
  /-- EVT_SEND (R415). -/
  | evtSend
  /-- HOST_LINK_DOWN (R419). -/
  | hostLinkDown
  /-- HOST_LINK_UP (R419). -/
  | hostLinkUp
  /-- JOB_OPEN (R203). -/
  | jobOpen (m : HostMsg)
  /-- STEP_DATA (R413). -/
  | stepData (m : HostMsg)
  /-- BLEND_LOAD_FULL (R448). -/
  | blendLoadFull (m : HostMsg)
  /-- BLEND_LOAD_PARTIAL (R450). -/
  | blendLoadPartial (m : HostMsg)
  /-- REGION_DRAIN (R491). -/
  | regionDrain (m : HostMsg)
  /-- REGION_DRAIN_COMPLETE (R491). -/
  | regionDrainComplete (region : Nat)
  /-- REGION_RESET (R470). -/
  | regionReset (m : HostMsg)
  /-- SELF_TEST (R495). -/
  | selfTest (m : HostMsg)
  /-- CHECKPOINT (R523). -/
  | checkpoint (m : HostMsg)
  /-- RESTORE (R528). -/
  | restore (m : HostMsg)
  /-- RESTORE_DRY_RUN (R529). -/
  | restoreDryRun (m : HostMsg)
  /-- JOB_CLOSE (R413). -/
  | jobClose (m : HostMsg)
  /-- ATTEST (R549). -/
  | attest (m : HostMsg)
  /-- STEP_START (R125). -/
  | stepStart
  /-- STEP_BOUNDARY (R206). -/
  | stepBoundary
  /-- SIGNATURE_COMPLETE (R60). -/
  | signatureComplete (ok : Bool)
  /-- BATCH_BOUNDARY (R148). -/
  | batchBoundary
  /-- NOP (R143). -/
  | nop (core : Nat) (o : IssueObs)
  /-- END (R132). -/
  | end_ (core : Nat) (o : IssueObs)
  /-- JUMP (R143). -/
  | jump (core : Nat) (o : IssueObs)
  /-- LOOP (R143). -/
  | loop (core : Nat) (o : IssueObs)
  /-- SETLC (R143). -/
  | setlc (core : Nat) (o : IssueObs)
  /-- DLOAD (R144). -/
  | dload (core : Nat) (o : IssueObs)
  /-- DSET (R145). -/
  | dset (core : Nat) (o : IssueObs)
  /-- WAIT (R146). -/
  | wait (core : Nat) (o : IssueObs)
  /-- SIGNAL (R146). -/
  | signal (core : Nat) (o : IssueObs)
  /-- TOKEN_SIGNAL_ARRIVE (R130). -/
  | tokenSignalArrive (src target : Nat)
  /-- BARRIER (R147). -/
  | barrier (core : Nat) (o : IssueObs)
  /-- DRAINU (R147). -/
  | drainu (core : Nat) (o : IssueObs)
  /-- BATCH (R148). -/
  | batch (core : Nat) (o : IssueObs)
  /-- COPY (R149). -/
  | copy (core : Nat) (o : IssueObs)
  /-- COPYH (R150). -/
  | copyh (core : Nat) (o : IssueObs)
  /-- WREQ (R151). -/
  | wreq (core : Nat) (o : IssueObs)
  /-- WDONE (R151). -/
  | wdone (core : Nat) (o : IssueObs)
  /-- PUBLISH (R271). -/
  | publish (core : Nat) (o : IssueObs)
  /-- MM (R152). -/
  | mm (core : Nat) (o : IssueObs)
  /-- MMW (R153). -/
  | mmw (core : Nat) (o : IssueObs)
  /-- MMRS (R154). -/
  | mmrs (core : Nat) (o : IssueObs)
  /-- WGBRS (R154). -/
  | wgbrs (core : Nat) (o : IssueObs)
  /-- WGBCLR (R153). -/
  | wgbclr (core : Nat) (o : IssueObs)
  /-- SMM (R225). -/
  | smm (core : Nat) (o : IssueObs)
  /-- SMMT (R225). -/
  | smmt (core : Nat) (o : IssueObs)
  /-- SDWRS (R227). -/
  | sdwrs (core : Nat) (o : IssueObs)
  /-- URNMERGE (R237). -/
  | urnmerge (core : Nat) (o : IssueObs)
  /-- PRED (R239). -/
  | pred (core : Nat) (o : IssueObs)
  /-- SMMP (R240). -/
  | smmp (core : Nat) (o : IssueObs)
  /-- VOP (R157). -/
  | vop (core : Nat) (o : IssueObs)
  /-- VCVT (R157). -/
  | vcvt (core : Nat) (o : IssueObs)
  /-- VFN (R158). -/
  | vfn (core : Nat) (o : IssueObs)
  /-- VRED (R159). -/
  | vred (core : Nat) (o : IssueObs)
  /-- SOFTMAX (R159). -/
  | softmax (core : Nat) (o : IssueObs)
  /-- NORM (R159). -/
  | norm (core : Nat) (o : IssueObs)
  /-- DFO (R160). -/
  | dfo (core : Nat) (o : IssueObs)
  /-- DSOFTMAX (R160). -/
  | dsoftmax (core : Nat) (o : IssueObs)
  /-- ADAMW (R161). -/
  | adamw (core : Nat) (o : IssueObs)
  /-- SGDM (R161). -/
  | sgdm (core : Nat) (o : IssueObs)
  /-- VRS (R165). -/
  | vrs (core : Nat) (o : IssueObs)
  /-- RXWAIT (R166). -/
  | rxwait (core : Nat) (o : IssueObs)
  /-- SIPRED (R167). -/
  | sipred (core : Nat) (o : IssueObs)
  /-- CHKRD (R168). -/
  | chkrd (core : Nat) (o : IssueObs)
  /-- INSTRUCTION_COMPLETE (R129). -/
  | instructionComplete (core : Nat) (q : HeadObs)
  /-- WAIT_TIMEOUT (R131). -/
  | waitTimeout (core : Nat) (inQueue : Bool)
  /-- TILE_PASS_VERDICT (R77). -/
  | tilePassVerdict (core : Nat) (o : PassObs)
  /-- VECTOR_BEAT_CHECK (R99). -/
  | vectorBeatCheck (core : Nat) (o : BeatObs)
  /-- TILE_STORE_WRITEBACK (R94). -/
  | tileStoreWriteback (core word : Nat)
  /-- MESH_FLIT_RECEIVE (R112). -/
  | meshFlitReceive (die port : Nat) (f : MeshFlit)
  /-- DMA_TRANSFER_ACK (R110). -/
  | dmaTransferAck (core : Nat) (a : LeafAnswer)
  /-- DMA_TIMEOUT (R493). -/
  | dmaTimeout (core : Nat)
  /-- TOP_HOT_LEVEL_REPORT (R113). -/
  | topHotLevelReport (die level port core share : Nat)
  /-- SPARE_TAKEOVER (R485). -/
  | spareTakeover (core : Nat) (o : CopyOutcome)
  /-- MIGRATION_COMPLETE (R488). -/
  | migrationComplete (core : Nat) (ok : Bool)
  /-- THERMAL_TRIP (R494). -/
  | thermalTrip (die : Nat)
  /-- DIE_RELEASE (R563). -/
  | dieRelease (die : Nat)
  /-- TOP_REGION_RELEASE (R506). -/
  | topRegionRelease (w : Writer) (v : Word)
  /-- WREQ_ACCEPT (R258). -/
  | wreqAccept (port : Nat)
  /-- WGET (R259). -/
  | wget (port : Nat)
  /-- WDATA (R274). -/
  | wdata (port : Nat) (m : Msg)
  /-- WPUSH (R265). -/
  | wpush (port : Nat) (m : Msg)
  /-- ATTEMPT_TIMEOUT (R274). -/
  | attemptTimeout (port tag : Nat)
  /-- FOLLOW_TIMEOUT (R264). -/
  | followTimeout (port : Nat)
  /-- PUSH_HOLD_EXPIRY (R265). -/
  | pushHoldExpiry (port : Nat)
  /-- CHUNK_DELIVER (R260). -/
  | chunkDeliver (port : DeliveryObs)
  /-- WACK (R271). -/
  | wack (port : Nat) (m : Msg)
  /-- WPUB_TIMEOUT (R271). -/
  | wpubTimeout (port tag : Nat)
  /-- STAGE_VERSION (R268). -/
  | stageVersion (w : Writer) (v : Word)
  /-- STAGE_CANCEL (R273). -/
  | stageCancel (w : Writer) (v : Word)
  /-- MANIFEST_RETRY (R268). -/
  | manifestRetry
  /-- STAGE_LIMIT_EXPIRY (R269). -/
  | stageLimitExpiry
  /-- RCHUNK (R295). -/
  | rchunk (port : Nat) (m : Msg)
  /-- SAMOVAR_ACCEPT (R302). -/
  | samovarAccept (core : OfferObs)
  /-- RRESEND (R305). -/
  | rresend (port : Nat) (m : Msg)
  /-- RDONE (R303). -/
  | rdone (port : Nat) (m : Msg)
  /-- CTX_TIMEOUT (R301). -/
  | ctxTimeout (port ctx : Nat)
  /-- GS1_RDONE_TIMEOUT (R307). -/
  | gs1RdoneTimeout (port : Nat)
  /-- GFORM (R287). -/
  | gform (port : Nat) (m : Msg)
  /-- FORM_LIMIT_EXPIRY (R310). -/
  | formLimitExpiry (sip : Bool) (group : Nat)
  /-- GROUP_REFORM (R309). -/
  | groupReform (w : Writer) (v : Word)
  /-- SIP_GROUP_REFORM (R311). -/
  | sipGroupReform (w : Writer) (v : Word)
  /-- SIP_FLIT_RECEIVE (R313). -/
  | sipFlitReceive (port slot : Nat) (f : FlitBytes) (faults : Nat)
  /-- SIP_COMBINE_TIMEOUT (R315). -/
  | sipCombineTimeout (port : Nat)
  /-- SIP_NAK (R360). -/
  | sipNak (port : Nat) (f : SlotFlit)
  /-- SIPHELLO (R359). -/
  | siphello (port slot : Nat) (f : FlitBytes)
  /-- SIP_TRAIN_COMPLETE (R358). -/
  | sipTrainComplete (port : Nat)
  /-- SIP_LANE_LOSS (R358). -/
  | sipLaneLoss (port : Nat)
  /-- GOV_EXCHANGE_RESULT (R195). -/
  | govExchangeResult (timeout : Bool)
  /-- PARTNER_DETECT (R334). -/
  | partnerDetect (port : Nat)
  /-- PORT_TRAIN_COMPLETE (R334). -/
  | portTrainComplete (port : Nat) (ok : Bool) (rx : Nat) (tx : TxTraining)
  /-- HELLO (R352). -/
  | hello (port : Nat) (m : Msg)
  /-- HELLO_REPEAT (R334). -/
  | helloRepeat (port : Nat)
  /-- PAIR_RECEIVE (R341). -/
  | pairReceive (port : Nat) (p : PairObs)
  /-- ACK_TIMEOUT (R342). -/
  | ackTimeout (port : Nat)
  /-- LANE_SYM_THRESHOLD (R336). -/
  | laneSymThreshold (port lane : Nat)
  /-- SPARE_PRBS_EXCLUDE (R336). -/
  | sparePrbsExclude (port lane : Nat)
  /-- FAST_RETRAIN_COMPLETE (R336). -/
  | fastRetrainComplete (port tx : Nat)
  /-- FAST_RETRAIN_TIMEOUT (R336). -/
  | fastRetrainTimeout (port : Nat)
  /-- CPL_RECEIVE (R346). -/
  | cplReceive (port : Nat) (m : Msg)
  /-- JFENCE (R356). -/
  | jfence (port : Nat) (m : Msg)
  /-- JFENCE_DONE (R581). -/
  | jfenceDone (port : Nat) (m : Msg)
  /-- JFENCE_TIMEOUT (R581). -/
  | jfenceTimeout (port : Nat)
  /-- BCOPY (R512). -/
  | bcopy (port : Nat) (m : Msg)
  /-- BCOPY_HANDOVER (R516). -/
  | bcopyHandover (port : Nat) (m : Msg)
  /-- BACK (R511). -/
  | back (port : Nat) (m : Msg)
  /-- BCOPY_TIMEOUT (R511). -/
  | bcopyTimeout (port : Nat)
  /-- FULL_RETRAIN (R367). -/
  | fullRetrain (port : Nat) (v : Word)
  /-- FAST_RETRAIN (R367). -/
  | fastRetrain (port : Nat) (v : Word)
  /-- PORT_DISABLE (R367). -/
  | portDisable (port : Nat) (v : Word)
  /-- PORT_ENABLE (R367). -/
  | portEnable (port : Nat) (v : Word)
  /-- SIP_RETRAIN (R367). -/
  | sipRetrain (port : Nat) (v : Word)
  /-- LNK_TEST (R361). -/
  | lnkTest (port : Nat) (v : Word)
  /-- MEMORY_READ (R377). -/
  | memoryRead (addr : Nat) (u : Upset)
  /-- MEMORY_WRITE (R380). -/
  | memoryWrite (addr : Nat) (bytes : List Byte) (u : Upset)
  /-- CRITICAL_READ (R383). -/
  | criticalRead (addr : Nat) (u : CritUpset)
  /-- CRITICAL_WRITE (R383). -/
  | criticalWrite (w : Writer) (addr : Nat) (v : Word)
  /-- DIE_ERR_THRESHOLD (R379). -/
  | dieErrThreshold (stack die : Nat)
  /-- CE_RATE_LIMIT (R390). -/
  | ceRateLimit (stack : Nat)
  /-- SCRUB_READ (R386). -/
  | scrubRead (stack : Nat) (u : ScrubObs)
  /-- SCRUB_LAP_LIMIT (R387). -/
  | scrubLapLimit (stack : Nat)
  /-- ROW_CANDIDATE_WRITE (R389). -/
  | rowCandidateWrite (stack k : Nat)
  /-- MEM_FLIP_ARM (R385). -/
  | memFlipArm (stack : Nat) (v : Word)
  /-- MEM_FLIP_CANCEL (R385). -/
  | memFlipCancel (stack : Nat) (v : Word)
  /-- CADDY_LINK_UP (R518). -/
  | caddyLinkUp (nsze mdts : Nat)
  /-- CADDY_LINK_DOWN (R527). -/
  | caddyLinkDown
  /-- NVME_COMPLETION (R526). -/
  | nvmeCompletion (ok : Bool) (data : List Byte)
  /-- NVME_CMD_TIMEOUT (R527). -/
  | nvmeCmdTimeout
  /-- CADDY_DEVICE_ACCESS (R518). -/
  | caddyDeviceAccess (write : Bool) (addr : Nat) (bytes : List Byte)
  /-- PREEMPT_PIN (R603). -/
  | preemptPin
  /-- PREEMPT_MARGIN_EXPIRY (R524). -/
  | preemptMarginExpiry
  /-- CKP_HANDOVER (R536). -/
  | ckpHandover (w : Writer) (v : Word)
  /-- SEC_SEAL (R543). -/
  | secSeal (w : Writer) (v : Word) (same : Bool)
  /-- FW_UPDATE (R546). -/
  | fwUpdate (w : Writer) (v : Word) (same : Bool)
  /-- FW_EPOCH_RAISE (R547). -/
  | fwEpochRaise (w : Writer) (v : Word)
  /-- ENG_TAU_WRITE (R88). -/
  | engTauWrite (w : Writer) (v : Word)
  /-- ENG_SR_SEED_WRITE (R84). -/
  | engSrSeedWrite (w : Writer) (k : Nat) (v : Word)
  /-- ENG_SR_COUNTER_WRITE (R84). -/
  | engSrCounterWrite (w : Writer) (core : Nat) (v : Word)
  /-- TIM_CTRL_WRITE (R593). -/
  | timCtrlWrite (w : Writer) (v : Word)
  /-- EVENT_REGISTER_CLEAR (R9). -/
  | eventRegisterClear (w : Writer) (addr : Nat) (v : Word)
  /-- REGISTER_WRITE (R7). -/
  | registerWrite (w : Writer) (addr width : Nat) (v : Word)
  /-- POWER_SAMPLE (R559). -/
  | powerSample (o : PowerObs)
  /-- POWER_TRIP (R561). -/
  | powerTrip
  /-- POWER_TRIP_RELEASE (R561). -/
  | powerTripRelease
  /-- TEMP_SAMPLE (R563). -/
  | tempSample (o : TempObs)
  /-- COOLANT_SAMPLE (R562). -/
  | coolantSample (o : CoolantObs)
  /-- SENSOR_TIMEOUT (R566). -/
  | sensorTimeout (which : Nat)
  /-- WARM_IDLE_ENTER (R564). -/
  | warmIdleEnter
  /-- STATUS_READ (R575). -/
  | statusRead (m : MgtMsg)
  /-- ALERT_ACK (R579). -/
  | alertAck (m : MgtMsg)
  /-- BIND (R576). -/
  | bind (m : MgtMsg)
  /-- POWER (R575). -/
  | power (m : MgtMsg)
  /-- KEEP_WARM (R575). -/
  | keepWarm (m : MgtMsg)
  /-- PREEMPT (R523). -/
  | preempt (m : MgtMsg)
  /-- JOB_FENCE (R581). -/
  | jobFence (m : MgtMsg)
  /-- ROLLBACK (R515). -/
  | rollback (m : MgtMsg)
  /-- REFORM (R575). -/
  | reform (m : MgtMsg)
  /-- HANDOVER (R575). -/
  | handover (m : MgtMsg)
  /-- COUNTER_READ (R575). -/
  | counterRead (m : MgtMsg)
  /-- RECOVER_WRITE (R548). -/
  | recoverWrite (m : MgtMsg)
  /-- RECOVER_COMMIT (R548). -/
  | recoverCommit (m : MgtMsg)
  /-- STATUS_REPORT (R578). -/
  | statusReport
  /-- ALERT_RESEND (R579). -/
  | alertResend (n : Nat)
  /-- I3C_POLL (R580). -/
  | i3cPoll (answers : List (Option Word))
  /-- SYNC (R585). -/
  | sync (y : PtpSync)
  /-- SYNC_TIMEOUT (R585). -/
  | syncTimeout
  /-- TRACE_SAMPLE (R596). -/
  | traceSample
  /-- REFCLK_LOSS (R604). -/
  | refclkLoss
  /-- REFCLK_RETURN (R604). -/
  | refclkReturn
  /-- TAG_HOLD_EXPIRY (R15). -/
  | tagHoldExpiry (port tag : Nat)
  /-- INPUT_ENTERS_RANGE (R600). -/
  | inputEntersRange (b : BootObs)
  /-- PREEMPT_DEADLINE (R527). -/
  | preemptDeadline
  /-- ANNOUNCE (R584). -/
  | announce (a : PtpAnnounce)
  /-- RESERVED_OPCODE (R142). -/
  | reservedOpcode (core : Nat) (o : IssueObs)
  /-- RESERVED_HOST_MESSAGE (R408). -/
  | reservedHostMessage (m : HostMsg)
  /-- RESERVED_MGT_MESSAGE (R575). -/
  | reservedMgtMessage (m : MgtMsg)
  /-- MGT_LINK_UP (R468). -/
  | mgtLinkUp
deriving DecidableEq, Repr

end Sys2Proof
end

