-- ==== Sys2Proof/Config.lean ====
section
/-! DEFINITION. What the spec leaves open: constants without a body, so that nothing can be proved of their values. A
statement that mentions one holds for every value of it. Each is named in an entry of the assumption log. -/

namespace Sys2Proof.Config

/-- The free value number `n`: the meaning that uses one reads the counter `State.freeIx` and advances it. -/
opaque freeValue : Nat → Nat

/-- The ML-DSA-65 signature a module makes (R51, R61, R549): hedged, so the spec fixes no byte of it. Argument: a fresh
number, and the digest signed. -/
opaque mldsaSign : Nat → Hash → List Byte

/-- Whether an ML-DSA-65 signature verifies: public key, context, message, signature. FIPS 204 decides it; the model
takes the outcome as given. -/
opaque mldsaVerify : List Byte → List Byte → List Byte → List Byte → Bool

/-- The module's own ML-DSA-65 public key (R540). -/
opaque identityKey : List Byte

/-- The module serial number (R574). -/
opaque serial : Word

/-- The Plynop firmware key in the boot ROM (R545). -/
opaque firmwareKey : List Byte

/-- The hash of the boot ROM (R549). -/
opaque romHash : Hash

/-- The module's identity certificate and manufacturing certificate, as bytes (R541). -/
opaque identityCert : List Byte

/-- The manufacturing certificate (R541). -/
opaque mfgCert : List Byte

/-- Whether an address of bonded memory lies in the NVMe queues, or in a buffer of the module's own for headers (R518, R519): the
spec gives them no place. -/
opaque nvmeBuffer : Nat → Bool

/-- The factory core-voltage trim of a die, in mV (R557, R462): held in the fuse map, which gives no value. -/
opaque dieTrim : Nat → Int

/-- The beat rate of a die's factory curve at a core voltage in mV and a junction temperature in 1/16 degrees, in M beats/s (R557,
R572), before the bounds of R557 are put on it. -/
opaque dieRate : Nat → Int → Int → Nat

/-- The check word of the factory default Blend (R430, R452): its image is not given. -/
opaque defaultCheck : Hash

/-- The fuse digest (R542, R549): the layout of the voted fuse map is not given, so it may be any function of what the fuses hold:
bad cores, clusters without a spare, erased dies, lanes, owner key hash and security epoch. -/
opaque fuseDigest : List (Nat × Nat) → List Nat → List (Nat × Nat) → List (Nat × Nat) → List (Nat × Nat) → Option Hash → Nat → Hash

/-- The value a mesh flit's CRC-16 starts from, which R106 does not give (log entry 91). -/
opaque crc16Start : BitVec 16

end Sys2Proof.Config
end

