-- ==== Sys2Proof/Machine/Bits.lean ====
section
/-! DEFINITION. Bit fields, little-endian bytes and the list helpers every family uses. -/

namespace Sys2Proof.Machine

/-- Bits [hi:lo] of a number. -/
def bitsOf (w hi lo : Nat) : Nat := (w >>> lo) % 2 ^ (hi + 1 - lo)

/-- Bit `i` of a number. -/
def bitOf (w i : Nat) : Bool := w.testBit i

/-- Bits [hi:lo] of a word. -/
def fld {n : Nat} (w : BitVec n) (hi lo : Nat) : Nat := bitsOf w.toNat hi lo

/-- Bit `i` of a word. -/
def flag {n : Nat} (w : BitVec n) (i : Nat) : Bool := w.toNat.testBit i

/-- `w` with bits [hi:lo] replaced by `v`. -/
def setFld {n : Nat} (w : BitVec n) (hi lo v : Nat) : BitVec n :=
  let size := 2 ^ (hi + 1 - lo)
  BitVec.ofNat n ((w.toNat >>> (hi + 1)) <<< (hi + 1) + (v % size) <<< lo + w.toNat % 2 ^ lo)

/-- A word from (value, lowest bit) pairs of fields that do not overlap. -/
def mkWord (fs : List (Nat × Nat)) : Word := BitVec.ofNat 64 (fs.foldl (fun a f => a ||| (f.1 <<< f.2)) 0)

/-- A Bool as a bit. -/
def b2n (b : Bool) : Nat := if b then 1 else 0

/-- `n` bytes of a number, least significant first (R5). -/
def leBytes : Nat → Nat → List Byte
  | 0, _ => []
  | n + 1, v => BitVec.ofNat 8 v :: leBytes n (v / 256)

/-- The number a little-endian run of bytes spells (R5). -/
def ofLe : List Byte → Nat
  | [] => 0
  | b :: bs => b.toNat + 256 * ofLe bs

/-- The number in the `n` bytes at offset `o` of `bs`. -/
def leAt (bs : List Byte) (o n : Nat) : Nat := ofLe ((bs.drop o).take n)

/-- Bits [hi:lo] of the field that starts at byte `o` of `bs`. -/
def bitsAt (bs : List Byte) (o hi lo : Nat) : Nat := bitsOf (leAt bs o (hi / 8 + 1)) hi lo

/-- `n` zero bytes. -/
def zeros (n : Nat) : List Byte := List.replicate n 0

/-- `bs` cut or padded with zero bytes to `n`. -/
def padTo (n : Nat) (bs : List Byte) : List Byte := bs.take n ++ zeros (n - bs.length)

/-- Cut a list into runs of `n`, with at most `fuel` runs. -/
def chunksFuel {α : Type} (n : Nat) : Nat → List α → List (List α)
  | 0, _ => []
  | fuel + 1, xs => if xs.isEmpty then [] else xs.take n :: chunksFuel n fuel (xs.drop n)

/-- Cut a list into runs of `n`. -/
def chunksOf {α : Type} (n : Nat) (xs : List α) : List (List α) := chunksFuel n xs.length xs

/-- Element `i` of a list, or `d`. -/
def nth {α : Type} (d : α) : List α → Nat → α
  | [], _ => d
  | x :: _, 0 => x
  | _ :: xs, i + 1 => nth d xs i

/-- The list with element `i` replaced. -/
def setNth {α : Type} (xs : List α) (i : Nat) (x : α) : List α := xs.set i x

/-- The list with element `i` changed by `f`. -/
def modNth {α : Type} (xs : List α) (i : Nat) (f : α → α) : List α := xs.modify i f

/-- The saturating sum of a counter of `w` bits. -/
def satAdd (w a n : Nat) : Nat := min (a + n) (2 ^ w - 1)

/-- The smallest multiple of `m` not below `n`. -/
def alignUp (n m : Nat) : Nat := (n + m - 1) / m * m

/-- The number of one bits among bits 0 to n-1. -/
def popcount : Nat → Nat → Nat
  | 0, _ => 0
  | n + 1, w => b2n (w.testBit n) + popcount n w

/-- The numbers below `n` that satisfy `p`. -/
def below (n : Nat) (p : Nat → Bool) : List Nat := (List.range n).filter p

/-- A two's-complement number of `w` bits. -/
def toSigned (w n : Nat) : Int := if n < 2 ^ (w - 1) then (n : Int) else (n : Int) - 2 ^ w

/-- The two's-complement pattern of `w` bits. -/
def ofSigned (w : Nat) (i : Int) : Nat := (i % 2 ^ w).toNat

/-- Every byte is zero. -/
def allZero (bs : List Byte) : Bool := bs.all fun b => decide (b = 0)

end Sys2Proof.Machine
end

