-- ==== Sys2Proof/Machine/Formats.lean ====
section
/-! DEFINITION. Numbers and number formats (R64 to R66, R71 to R73): exact dyadic values, rounding to a format by nearest
even or stochastically, encoding and decoding of elements, and the block scales of the MX formats. -/

namespace Sys2Proof.Machine

/-- A floating-point value, exact: ± m × 2^e, an infinity or a NaN. -/
inductive FVal where
  | nan
  | inf (neg : Bool)
  | fin (neg : Bool) (m : Nat) (e : Int)
deriving DecidableEq, Repr, Inhabited

/-- Format codes of R64. -/
inductive Fmt where
  | fp32 | bf16 | fp16 | e4m3 | e5m2 | e3m2 | e2m3 | e2m1 | int8 | gw32 | gw48 | gs1
deriving DecidableEq, Repr, Inhabited

/-- The format a code names; codes 0xC to 0xF are reserved. -/
def Fmt.ofCode : Nat → Option Fmt
  | 0 => some .fp32 | 1 => some .bf16 | 2 => some .fp16 | 3 => some .e4m3 | 4 => some .e5m2 | 5 => some .e3m2
  | 6 => some .e2m3 | 7 => some .e2m1 | 8 => some .int8 | 9 => some .gw32 | 10 => some .gw48 | 11 => some .gs1
  | _ => none

/-- The code of a format (R64). -/
def Fmt.code : Fmt → Nat
  | .fp32 => 0 | .bf16 => 1 | .fp16 => 2 | .e4m3 => 3 | .e5m2 => 4 | .e3m2 => 5
  | .e2m3 => 6 | .e2m1 => 7 | .int8 => 8 | .gw32 => 9 | .gw48 => 10 | .gs1 => 11

/-- The format is of the MX class (R64). -/
def Fmt.isMx : Fmt → Bool
  | .e4m3 | .e5m2 | .e3m2 | .e2m3 | .e2m1 | .int8 => true
  | _ => false

/-- The format is of the 16-bit class (R64). -/
def Fmt.is16 : Fmt → Bool
  | .bf16 | .fp16 => true
  | _ => false

/-- Bits of one element (R65, R66). -/
def Fmt.bits : Fmt → Nat
  | .fp32 => 32 | .bf16 => 16 | .fp16 => 16 | .e3m2 => 6 | .e2m3 => 6 | .e2m1 => 4 | .gw32 => 32 | .gw48 => 48 | .gs1 => 8
  | .e4m3 | .e5m2 | .int8 => 8

/-- Mantissa bits (R65). -/
def Fmt.mbits : Fmt → Nat
  | .fp32 => 23 | .bf16 => 7 | .fp16 => 10 | .e4m3 => 3 | .e5m2 => 2 | .e3m2 => 2 | .e2m3 => 3 | .e2m1 => 1 | _ => 0

/-- Exponent bits (R65). -/
def Fmt.ebits : Fmt → Nat
  | .fp32 => 8 | .bf16 => 8 | .fp16 => 5 | .e4m3 => 4 | .e5m2 => 5 | .e3m2 => 3 | .e2m3 => 2 | .e2m1 => 2 | _ => 0

/-- Exponent bias (R65). -/
def Fmt.bias : Fmt → Int
  | .fp32 => 127 | .bf16 => 127 | .fp16 => 15 | .e4m3 => 7 | .e5m2 => 15 | .e3m2 => 3 | .e2m3 => 1 | .e2m1 => 1 | _ => 0

/-- emax of R65. -/
def Fmt.emax : Fmt → Int
  | .fp32 => 127 | .bf16 => 127 | .fp16 => 15 | .e4m3 => 8 | .e5m2 => 15 | .e3m2 => 4 | .e2m3 => 2 | .e2m1 => 2 | _ => 0

/-- The format has the infinities and NaNs of IEEE 754 (R65). -/
def Fmt.ieee : Fmt → Bool
  | .fp32 | .bf16 | .fp16 | .e5m2 => true
  | _ => false

/-- The weight of the format's lowest place: its smallest positive value is 2 to this power (R65). -/
def Fmt.ulpMin (f : Fmt) : Int := if f = .int8 then -6 else 1 - f.bias - f.mbits

/-- floor(log2 m) for a positive m. -/
def nlog2 (m : Nat) : Int := (Nat.log2 m : Int)

/-- The largest finite value of a format, as an integer multiple of 2^(emax − mbits) (R65). -/
def Fmt.maxMant : Fmt → Nat
  | .e4m3 => 14 | .int8 => 127
  | f => 2 ^ (f.mbits + 1) - 1

/-- The exponent that goes with `Fmt.maxMant`. -/
def Fmt.maxExp (f : Fmt) : Int := if f = .int8 then -6 else f.emax - f.mbits

/-- m × 2^e as a multiple of 2^u, with the bits below dropped, and whether rounding to nearest even adds one. -/
def shiftRound (m : Nat) (e u : Int) : Nat × Bool :=
  if u ≤ e then (m <<< (e - u).toNat, false)
  else
    let s := (u - e).toNat
    let q := m >>> s
    let r := m % 2 ^ s
    (q, decide (2 * r > 2 ^ s) || (decide (2 * r = 2 ^ s) && decide (q % 2 = 1)))

/-- The 16 bits of m × 2^e that lie directly below the place 2^u (R73). -/
def bitsBelow (m : Nat) (e u : Int) : Nat :=
  if u ≤ e then 0 else ((m <<< 16) >>> (u - e).toNat) % 2 ^ 16

/-- The place to which a magnitude m × 2^e is rounded, with `mb` mantissa bits and lowest place `lo`. -/
def roundPlace (m : Nat) (e : Int) (mb : Nat) (lo : Int) : Int :=
  if m = 0 then lo else max (nlog2 m + e - mb) lo

/-- A magnitude rounded as if the format had no largest value: nearest even, or stochastically with draw `d` (R73). -/
def roundMag (mb : Nat) (lo : Int) (d : Option Nat) (m : Nat) (e : Int) : Nat × Int :=
  let u := roundPlace m e mb lo
  let (q, up) := shiftRound m e u
  match d with
  | none => (q + b2n up, u)
  | some d => (q + b2n (decide (bitsBelow m e u + d ≥ 2 ^ 16)), u)

/-- Compare m1 × 2^e1 with m2 × 2^e2. -/
def magLt (m1 : Nat) (e1 : Int) (m2 : Nat) (e2 : Int) : Bool :=
  let e := min e1 e2
  decide (m1 <<< (e1 - e).toNat < m2 <<< (e2 - e).toNat)

/-- FP32 by nearest even, with the infinities of IEEE 754 beyond the largest finite value. -/
def r32 : FVal → FVal
  | .nan => .nan
  | .inf s => .inf s
  | .fin s 0 _ => .fin s 0 0
  | .fin s m e =>
    let (q, u) := roundMag 23 (-149) none m e
    if q = 0 then .fin s 0 0
    else if magLt (2 ^ 24 - 1) 104 q u then .inf s
    else .fin s q u

/-- Exact product. -/
def FVal.mulX : FVal → FVal → FVal
  | .nan, _ => .nan
  | _, .nan => .nan
  | .inf s, .inf t => .inf (s != t)
  | .inf s, .fin t m _ => if m = 0 then .nan else .inf (s != t)
  | .fin s m _, .inf t => if m = 0 then .nan else .inf (s != t)
  | .fin s m e, .fin t n f => .fin (s != t) (m * n) (e + f)

/-- The signed integer s × m. -/
def sgn (s : Bool) (m : Nat) : Int := if s then -(m : Int) else m

/-- Exact sum. A zero sum of opposite signs is +0, as IEEE 754 states for nearest even. -/
def FVal.addX : FVal → FVal → FVal
  | .nan, _ => .nan
  | _, .nan => .nan
  | .inf s, .inf t => if s = t then .inf s else .nan
  | .inf s, .fin .. => .inf s
  | .fin .., .inf t => .inf t
  | .fin s m e, .fin t n f =>
    let u := min e f
    let sum := sgn s (m <<< (e - u).toNat) + sgn t (n <<< (f - u).toNat)
    if sum = 0 then .fin (s && t) 0 0 else .fin (decide (sum < 0)) sum.natAbs u

/-- The value with its sign turned. -/
def FVal.neg : FVal → FVal
  | .nan => .nan
  | .inf s => .inf (!s)
  | .fin s m e => .fin (!s) m e

/-- The magnitude. -/
def FVal.abs : FVal → FVal
  | .nan => .nan
  | .inf _ => .inf false
  | .fin _ m e => .fin false m e

/-- FP32 sum, product and fused multiply-add, each rounded once. -/
def fadd (a b : FVal) : FVal := r32 (a.addX b)
def fsub (a b : FVal) : FVal := r32 (a.addX b.neg)
def fmul (a b : FVal) : FVal := r32 (a.mulX b)
def ffma (a b c : FVal) : FVal := r32 ((a.mulX b).addX c)

/-- +0. -/
def fzero : FVal := .fin false 0 0

/-- A value times 2^k. -/
def FVal.scale (k : Int) : FVal → FVal
  | .fin s m e => .fin s m (e + k)
  | v => v

/-- Is finite. -/
def FVal.isFin : FVal → Bool
  | .fin .. => true
  | _ => false

/-- Is not zero (infinities and NaNs are not). -/
def FVal.nonZero : FVal → Bool
  | .fin _ m _ => decide (m ≠ 0)
  | _ => true

/-- a < b, where neither is a NaN. -/
def FVal.lt : FVal → FVal → Bool
  | .nan, _ => false
  | _, .nan => false
  | .inf s, .inf t => s && !t
  | .inf s, .fin .. => s
  | .fin .., .inf t => !t
  | .fin s m e, .fin t n f =>
    let u := min e f
    decide (sgn s (m <<< (e - u).toNat) < sgn t (n <<< (f - u).toNat))

/-- The larger, where +0 is larger than −0 and a NaN propagates (R157). -/
def fmax (a b : FVal) : FVal :=
  match a, b with
  | .nan, _ => .nan
  | _, .nan => .nan
  | .fin s 0 _, .fin t 0 _ => .fin (s && t) 0 0
  | a, b => if a.lt b then b else a

/-- The smaller, where −0 is smaller than +0 and a NaN propagates (R157). -/
def fmin (a b : FVal) : FVal :=
  match a, b with
  | .nan, _ => .nan
  | _, .nan => .nan
  | .fin s 0 _, .fin t 0 _ => .fin (s || t) 0 0
  | a, b => if b.lt a then b else a

/-- Elements added pairwise as a binary tree in index order, each sum rounded to FP32 (R76, R77, R159). A list whose
length is no power of two leaves its last element to the next level. -/
def treeLevel : List FVal → List FVal
  | a :: b :: t => fadd a b :: treeLevel t
  | t => t

def treeFuel : Nat → List FVal → FVal
  | 0, xs => xs.headD fzero
  | n + 1, xs =>
    match xs with
    | [] => fzero
    | [x] => r32 x
    | xs => treeFuel n (treeLevel xs)

def treeSum (xs : List FVal) : FVal := treeFuel (Nat.log2 xs.length + 1) xs

/-- The value an element's bits stand for, before its block scale (R65). -/
def decodeElem (f : Fmt) (w : Nat) : FVal :=
  match f with
  | .int8 =>
    let n := toSigned 8 (w % 256)
    .fin (decide (n < 0)) n.natAbs (-6)
  | f =>
    let mb := f.mbits
    let s := w.testBit (mb + f.ebits)
    let ex := bitsOf w (mb + f.ebits - 1) mb
    let m := w % 2 ^ mb
    let top := 2 ^ f.ebits - 1
    if f.ieee && decide (ex = top) then (if m = 0 then .inf s else .nan)
    else if f = .e4m3 && decide (ex = top) && decide (m = 7) then .nan
    else if ex = 0 then .fin s m f.ulpMin
    else .fin s (2 ^ mb + m) (f.ulpMin + (ex - 1 : Nat))

/-- A rounded magnitude beyond the largest finite value (R71). -/
def overMax (f : Fmt) (q : Nat) (u : Int) : Bool := magLt f.maxMant f.maxExp q u

/-- The bits of a magnitude q × 2^u that the format holds exactly. -/
def packMag (f : Fmt) (s : Bool) (q : Nat) (u : Int) : Nat :=
  match f with
  | .int8 =>
    let n := q <<< (u + 6).toNat
    ofSigned 8 (sgn s n)
  | f =>
    let mb := f.mbits
    let sign := b2n s <<< (mb + f.ebits)
    let (q, u) := if q = 2 ^ (mb + 1) then (2 ^ mb, u + 1) else (q, u)
    if q < 2 ^ mb then sign + q
    else sign + (((u - f.ulpMin + 1).toNat) <<< mb) + (q - 2 ^ mb)

/-- A NaN pattern of a format that has one; the payload and sign of an IEEE NaN are a free value (log entry 5). -/
def nanBits (f : Fmt) (fr : Nat) : Nat :=
  match f with
  | .e4m3 => (Config.freeValue fr % 2) * 128 + 0x7F
  | f =>
    let v := Config.freeValue fr
    let m := v % 2 ^ f.mbits
    let top := (2 ^ f.ebits - 1) <<< f.mbits
    ((v / 2 ^ f.mbits) % 2) <<< (f.mbits + f.ebits) + top + (if m = 0 then 1 else m)

/-- An element converted to a format (R71), with what it counts: whether it saturated. -/
def encodeElem (f : Fmt) (d : Option Nat) (fr : Nat) : FVal → Nat × Bool
  | .nan =>
    if f.ieee || f = .e4m3 then (nanBits f fr, false)
    else (packMag f (Config.freeValue fr % 2 = 1) f.maxMant f.maxExp, true)
  | .inf s =>
    if f.ieee then (b2n s <<< (f.mbits + f.ebits) + ((2 ^ f.ebits - 1) <<< f.mbits), false)
    else if f = .e4m3 then (nanBits f fr, false)
    else (packMag f s f.maxMant f.maxExp, true)
  | .fin s m e =>
    let mb := if f = .int8 then 0 else f.mbits
    let (q, u) :=
      if f = .int8 then
        let (q, up) := shiftRound m e (-6)
        (match d with
          | none => q + b2n up
          | some d => q + b2n (decide (bitsBelow m e (-6) + d ≥ 2 ^ 16)), -6)
      else roundMag mb f.ulpMin d m e
    if f = .fp32 then
      (if overMax f q u then (b2n s <<< 31 + 0x7F800000, false) else (packMag f s q u, false))
    else if overMax f q u then (packMag f s f.maxMant f.maxExp, true)
    else (packMag f s q u, false)

/-- The bits of an FP32 value; a NaN takes a free payload. -/
def bits32 (fr : Nat) (v : FVal) : BitVec 32 := BitVec.ofNat 32 (encodeElem .fp32 none fr v).1

/-- The value of FP32 bits. -/
def val32 (w : BitVec 32) : FVal := decodeElem .fp32 w.toNat

/-- The largest magnitude among the finite elements, if any is not zero. -/
def amaxOf (xs : List FVal) : FVal :=
  xs.foldl (fun a x => match x with
    | .fin _ m e => if a.lt (.fin false m e) then .fin false m e else a
    | _ => a) fzero

/-- The scale exponent X of a block (R72). -/
def blockExp (f : Fmt) (xs : List FVal) : Int :=
  match amaxOf xs with
  | .fin _ m e => if m = 0 then -127 else max (-127) (min 127 (nlog2 m + e - f.emax))
  | _ => -127

/-- A block converted to an MX format: its scale byte, its elements, and how many saturated (R71, R72). `ds` are the
draws of its elements. -/
def encodeBlock (f : Fmt) (ds : List (Option Nat)) (fr : Nat) (xs : List FVal) : Nat × List Nat × Nat :=
  if xs.any fun x => decide (x = .nan) then (0xFF, xs.map fun _ => 0, 0)
  else
    let x := blockExp f xs
    let es := (xs.zip (ds ++ List.replicate xs.length none)).zipIdx.map fun p =>
      encodeElem f p.1.2 (fr + p.2) (p.1.1.scale (-x))
    ((x + 127).toNat, es.map (·.1), (es.filter (·.2)).length)

/-- The elements of a block with their scale applied; a scale of 0xFF makes every element a NaN (R66, R72). -/
def decodeBlock (f : Fmt) (scale : Nat) (es : List Nat) : List FVal :=
  if scale % 256 = 0xFF then es.map fun _ => .nan
  else es.map fun w => (decodeElem f w).scale ((scale % 256 : Nat) - 127 : Int)

/-! Stochastic rounding (R73, R74). -/

/-- One round of the generator. -/
def srRound (k1 x : Word) : Word :=
  let x := x ^^^ (x >>> 29)
  let x := x * 0x9A6C5F1D3E27B84B
  (x ^^^ k1).rotateLeft 21

/-- The four draws of one call: core index, counter, key halves. -/
def srDraws (core : Nat) (counter : Nat) (k0 k1 : Word) : List Nat :=
  let x := BitVec.ofNat 64 ((core <<< 50) ||| (counter % 2 ^ 50)) ^^^ k0
  let x := srRound k1 (srRound k1 (srRound k1 (srRound k1 x)))
  [fld x 15 0, fld x 31 16, fld x 47 32, fld x 63 48]

/-- The draws of `n` calls from a counter. -/
def srDrawsN (core counter : Nat) (k0 k1 : Word) (n : Nat) : List Nat :=
  ((List.range n).map fun i => srDraws core ((counter + i) % 2 ^ 50) k0 k1).flatten

end Sys2Proof.Machine
end

