-- ==== Sys2Proof/Machine/GovChoice.lean ====
section
/-! DEFINITION. The format governor's arithmetic: what a conversion reports (R192, R193), the step summary (R194), and the
choice of a layer's gradient format and chunk scale (R197). -/

namespace Sys2Proof.Machine

/-- The exponent an element reports: 0 for zero, 255 for an infinity, nothing for a NaN (R192). -/
def reportExp : FVal → Nat
  | .nan => 0
  | .inf _ => 255
  | .fin _ m e => if m = 0 then 0 else (max (nlog2 m + e + 127) 1).toNat

/-- The elements of a block that round to zero in a format under the block's scale (R192). -/
def underflows (f : Fmt) (block : List FVal) : Nat :=
  let x := blockExp f block
  (block.filter fun v => v.isFin && v.nonZero && decide ((encodeElem f none 0 (v.scale (-x))).1 % 128 = 0)).length

/-- A governor summary of a layer in a step (R194). -/
structure GovEntry where
  step : Nat
  gexp : Nat
  wexp : Nat
  nonzero : Nat
  underE4m3 : Nat
  underE5m2 : Nat
deriving DecidableEq, Repr, Inhabited

/-- The 32 bytes of a log entry (R194). -/
def GovEntry.bytes (layer : Nat) (e : GovEntry) : List Byte :=
  leBytes 2 layer ++ leBytes 1 e.gexp ++ leBytes 1 e.wexp ++ leBytes 4 e.step ++ leBytes 8 e.nonzero ++
    leBytes 8 e.underE4m3 ++ leBytes 8 e.underE5m2

/-- A log entry read from 32 bytes. -/
def GovEntry.ofBytes (bs : List Byte) : GovEntry :=
  { step := leAt bs 4 4, gexp := leAt bs 2 1, wexp := leAt bs 3 1, nonzero := leAt bs 8 8, underE4m3 := leAt bs 16 8
    underE5m2 := leAt bs 24 8 }

/-- The choice of R197 for a layer that is not pinned: format code and scale code, from the window's entries. -/
def govChoose (t4 tu h initFormat initScale : Nat) (win : List GovEntry) : Nat × Nat :=
  let nz := (win.map (·.nonzero)).foldl (· + ·) 0
  let u4 := (win.map (·.underE4m3)).foldl (· + ·) 0
  let u5 := (win.map (·.underE5m2)).foldl (· + ·) 0
  let fmt :=
    if nz = 0 then initFormat
    else if u4 * 65536 ≤ t4 * nz then 3
    else if u5 * 65536 ≤ tu * nz then 4
    else 1
  let w := (win.map (·.wexp)).foldl max 0
  (fmt, if w = 0 then initScale else min (w + h - 14) 254)

/-- The step key of R73: job seed of 32 bytes and step number. -/
def stepKeyInput (seed : List Byte) (step : Nat) : List Byte :=
  padTo 32 seed ++ leBytes 8 step ++ [0x43, 0x57, 0x31, 0x2D, 0x53, 0x52]

end Sys2Proof.Machine
end

