-- ==== Sys2Proof/Machine/Gf256.lean ====
section
/-! DEFINITION. The field GF(2^8) of R376 and the decoding of one RS(18,16) codeword (R377). -/

namespace Sys2Proof.Machine

/-- Multiplication by α = 2 modulo 0x11D. -/
def gfTimes2 (a : Byte) : Byte := if a.getLsbD 7 then (a <<< 1) ^^^ 0x1D else a <<< 1

/-- α^n. -/
def gfExp : Nat → Byte
  | 0 => 1
  | n + 1 => gfTimes2 (gfExp n)

/-- Product of two field elements. -/
def gfMul (a b : Byte) : Byte :=
  (List.range 8).foldl (fun acc i => if b.getLsbD i then acc ^^^ (Nat.rec a (fun _ x => gfTimes2 x) i) else acc) 0

/-- Position search: the p below 18 with s1 = s0 · α^p, if there is one. -/
def gfPosition (s0 s1 : Byte) : Option Nat := (List.range 18).find? fun p => decide (gfMul s0 (gfExp p) = s1)

/-- S0 and S1 of 18 symbols. Codewords are linear, so the syndromes of a stored word are those of its error pattern. -/
def syndromes (c : List Byte) : Byte × Byte :=
  (c.foldl (· ^^^ ·) 0, (c.zipIdx.map fun p => gfMul p.1 (gfExp p.2)).foldl (· ^^^ ·) 0)

/-- The outcome of decoding one codeword. -/
inductive CwOut where
  | clean
  | corrected (pos : Nat) (value : Byte) (erased : Bool)
  | bad
deriving DecidableEq, Repr

/-- Decoding by syndromes, with a die erased or not (R377). -/
def decodeCw (erased : Option Nat) (s0 s1 : Byte) : CwOut :=
  if s0 = 0 ∧ s1 = 0 then .clean
  else if s0 = 0 ∨ s1 = 0 then .bad
  else match gfPosition s0 s1 with
    | none => .bad
    | some p =>
      match erased with
      | none => .corrected p s0 false
      | some d => if p = d then .corrected p s0 true else .bad

end Sys2Proof.Machine
end

