-- ==== Sys2Proof/Machine/Crc.lean ====
section
/-! DEFINITION. The cyclic redundancy codes whose bytes the model checks: CRC-32 of R339, CRC-32C of R358 and the
CRC-16 of R106. -/

namespace Sys2Proof.Machine

/-- One bit of a reflected CRC of 32 bits. -/
def crcBit (poly : BitVec 32) (c : BitVec 32) : BitVec 32 :=
  if c.getLsbD 0 then (c >>> 1) ^^^ poly else c >>> 1

/-- One byte of a reflected CRC of 32 bits. -/
def crcByte (poly : BitVec 32) (c : BitVec 32) (b : Byte) : BitVec 32 :=
  (List.range 8).foldl (fun c _ => crcBit poly c) (c ^^^ b.setWidth 32)

/-- A reflected CRC with initial value and final XOR of all ones. -/
def crcReflected (poly : BitVec 32) (bs : List Byte) : BitVec 32 :=
  (bs.foldl (crcByte poly) 0xFFFFFFFF) ^^^ 0xFFFFFFFF

/-- CRC-32 of R339: polynomial 0x04C1_1DB7, reflected. -/
def crc32 (bs : List Byte) : BitVec 32 := crcReflected 0xEDB88320 bs

/-- CRC-32C of R358: polynomial 0x1EDC_6F41, reflected. -/
def crc32c (bs : List Byte) : BitVec 32 := crcReflected 0x82F63B78 bs

/-- One byte of a CRC of 16 bits, its highest bit first. -/
def crc16Byte (c : BitVec 16) (b : Byte) : BitVec 16 :=
  (List.range 8).foldl (fun c _ => if c.getLsbD 15 then (c <<< 1) ^^^ 0x1021 else c <<< 1) (c ^^^ b.setWidth 16 <<< 8)

/-- The CRC-16 of R106: polynomial 0x1021; bit order and start are not given (log entry 91). -/
def crc16 (bs : List Byte) : BitVec 16 := bs.foldl crc16Byte Config.crc16Start

end Sys2Proof.Machine
end

