-- ==== Sys2Proof/Machine/Flags.lean ====
section
/-! DEFINITION. Completion statuses (R11): their codes, and the order in which several are reported as one (R13). -/

namespace Sys2Proof

/-- The 4-bit code of a status (R11). -/
def Status.code : Status → Nat
  | .ok => 0 | .dataErr => 1 | .targetReset => 2 | .unavailable => 3 | .denied => 4 | .malformed => 5 | .busy => 6
  | .timeout => 7 | .version => 8 | .checkFail => 9

/-- The status of a code; 0xA to 0xF are reserved. -/
def Status.ofCode : Nat → Option Status
  | 0 => some .ok | 1 => some .dataErr | 2 => some .targetReset | 3 => some .unavailable | 4 => some .denied
  | 5 => some .malformed | 6 => some .busy | 7 => some .timeout | 8 => some .version | 9 => some .checkFail
  | _ => none

/-- The rank of a status under R13: the lowest rank is reported. -/
def Status.rank : Status → Nat
  | .malformed => 0 | .version => 1 | .denied => 2 | .busy => 3 | .targetReset => 4 | .unavailable => 5 | .dataErr => 6
  | .checkFail => 7 | .timeout => 8 | .ok => 9

/-- Two statuses reported as one (R13). -/
def Status.join (a b : Status) : Status := if a.rank ≤ b.rank then a else b

/-- The status of the first condition that applies, OK if none does. -/
def firstStatus : List (Bool × Status) → Status
  | [] => .ok
  | (c, st) :: rest => if c then st else firstStatus rest

end Sys2Proof
end

