-- ==== Sys2Proof/Machine/RegMap.lean ====
section
/-! DEFINITION. The register map: every register block of R35 and R36 with its registers, their offsets, and the fields of
each with access type (R7) and reset value, as the register tables of spec/03 to spec/19 give them. Fields named rsvd are
left out: they read 0 (R8). A field whose reset value the tables leave open (—) has 0 here; DESIGN CHOICE, log entry 3. -/

namespace Sys2Proof.Machine

/-- Access types of R7. -/
inductive Acc where
  | ro | rw | rw1c | wo | rws | rwl
deriving DecidableEq, Repr

/-- One field of a register. -/
structure RField where
  hi : Nat
  lo : Nat
  acc : Acc
  reset : Nat
deriving DecidableEq, Repr

/-- A register, or an array of `count` registers `stride` bytes apart. -/
structure RegDef where
  name : String
  off : Nat
  count : Nat
  stride : Nat
  fields : List RField
deriving DecidableEq, Repr

/-- A register block at one of its levels: module, core, cluster, die or link chiplet. -/
inductive RBlk where
  | hifMod | cfgMod | topMod | seqMod | seqCore | seqCluster | engMod | engCore | vecMod | strMod | vecCore | strCore | topCluster | topDie | govMod | govCluster | urnCluster | urnMod | infPort | infMod | samPort | samMod | sipPort | sipMod | lnkPort | lnkMod | memDie | memMod | scrDie | scrMod | ckpMod | secMod | ktlMod | timMod | mgtMod | trcMod
deriving DecidableEq, Repr

/-- Registers of the block `hifMod`. -/
def regs_hifMod : List RegDef :=
  [⟨"HIF_ID", 0x0, 1, 8, [⟨31, 24, .ro, 0x10⟩, ⟨23, 16, .ro, 0x20⟩, ⟨15, 8, .ro, 0x40⟩, ⟨1, 0, .ro, 1⟩]⟩,
   ⟨"HIF_CTRL", 0x8, 1, 8, [⟨39, 32, .rw, 0x40⟩, ⟨15, 0, .rw, 0xfffe⟩]⟩,
   ⟨"HIF_STATUS", 0x10, 1, 8, [⟨63, 32, .ro, 0⟩, ⟨20, 10, .ro, 0⟩, ⟨1, 1, .ro, 0⟩, ⟨0, 0, .ro, 0⟩]⟩,
   ⟨"HIF_EVENT", 0x18, 1, 8, [⟨3, 3, .rw1c, 0⟩, ⟨2, 2, .rw1c, 0⟩, ⟨1, 1, .rw1c, 0⟩, ⟨0, 0, .rw1c, 0⟩]⟩,
   ⟨"HIF_CMDQ", 0x100, 16, 8, [⟨53, 44, .ro, 0⟩, ⟨43, 40, .ro, 0⟩, ⟨39, 32, .ro, 0⟩, ⟨21, 12, .ro, 0⟩, ⟨5, 0, .ro, 0⟩]⟩,
   ⟨"HIF_MRD", 0x200, 1, 8, [⟨63, 0, .ro, 0⟩]⟩,
   ⟨"HIF_MWR", 0x208, 1, 8, [⟨63, 0, .ro, 0⟩]⟩,
   ⟨"HIF_CMDS", 0x210, 1, 8, [⟨63, 0, .ro, 0⟩]⟩,
   ⟨"HIF_EVTS_SENT", 0x218, 1, 8, [⟨63, 0, .ro, 0⟩]⟩,
   ⟨"HIF_EVTS_LOST", 0x220, 1, 8, [⟨63, 0, .ro, 0⟩]⟩,
   ⟨"HIF_TAG_DUP", 0x228, 1, 8, [⟨63, 0, .ro, 0⟩]⟩,
   ⟨"HIF_MALFORMED", 0x230, 1, 8, [⟨63, 0, .ro, 0⟩]⟩] ++
  [⟨"HIF_DISCARDED", 0x238, 1, 8, [⟨63, 0, .ro, 0⟩]⟩,
   ⟨"HIF_RETRAINS", 0x240, 1, 8, [⟨63, 0, .ro, 0⟩]⟩,
   ⟨"HIF_FLIT_RETRIES", 0x248, 1, 8, [⟨63, 0, .ro, 0⟩]⟩]

/-- Registers of the block `cfgMod`. -/
def regs_cfgMod : List RegDef :=
  [⟨"CFG_ID", 0x0, 1, 8, [⟨39, 32, .ro, 1⟩, ⟨31, 16, .ro, 0x400⟩, ⟨1, 0, .ro, 1⟩]⟩,
   ⟨"CFG_STATUS", 0x8, 1, 8, [⟨35, 32, .ro, 0⟩, ⟨24, 16, .ro, 0x100⟩, ⟨4, 4, .ro, 0⟩, ⟨3, 3, .ro, 1⟩, ⟨2, 2, .ro, 0⟩, ⟨1, 1, .ro, 0⟩, ⟨0, 0, .ro, 1⟩]⟩,
   ⟨"CFG_EVENT", 0x10, 1, 8, [⟨4, 4, .rw1c, 0⟩, ⟨3, 3, .rw1c, 0⟩, ⟨2, 2, .rw1c, 0⟩, ⟨1, 1, .rw1c, 0⟩, ⟨0, 0, .rw1c, 0⟩]⟩,
   ⟨"CFG_ERR", 0x18, 1, 8, [⟨63, 32, .ro, 0⟩, ⟨31, 16, .ro, 0⟩, ⟨15, 8, .ro, 0⟩, ⟨3, 0, .ro, 0⟩]⟩,
   ⟨"CFG_CHECK", 0x20, 4, 8, [⟨63, 0, .ro, 0⟩]⟩,
   ⟨"CFG_SHAPE", 0x40, 4, 8, [⟨63, 0, .ro, 0⟩]⟩,
   ⟨"CFG_LOADS", 0x100, 1, 8, [⟨63, 0, .ro, 0⟩]⟩,
   ⟨"CFG_PARTIALS", 0x108, 1, 8, [⟨63, 0, .ro, 0⟩]⟩,
   ⟨"CFG_FALLBACKS", 0x110, 1, 8, [⟨63, 0, .ro, 0⟩]⟩,
   ⟨"CFG_REFUSED", 0x118, 1, 8, [⟨63, 0, .ro, 0⟩]⟩,
   ⟨"CFG_TAKEOVERS", 0x120, 1, 8, [⟨63, 0, .ro, 0⟩]⟩]

/-- Registers of the block `topMod`. -/
def regs_topMod : List RegDef :=
  [⟨"TOP_ID", 0x0, 1, 8, [⟨15, 8, .ro, 0x20⟩, ⟨1, 0, .ro, 1⟩]⟩,
   ⟨"TOP_STATE", 0x8, 1, 8, [⟨35, 32, .ro, 1⟩, ⟨31, 30, .ro, 0⟩, ⟨27, 24, .ro, 0⟩, ⟨21, 16, .ro, 0⟩, ⟨9, 8, .ro, 0⟩, ⟨3, 0, .ro, 1⟩]⟩,
   ⟨"TOP_EVENT", 0x10, 1, 8, [⟨5, 5, .rw1c, 0⟩, ⟨4, 4, .rw1c, 0⟩, ⟨3, 3, .rw1c, 0⟩, ⟨2, 2, .rw1c, 0⟩, ⟨1, 1, .rw1c, 0⟩, ⟨0, 0, .rw1c, 0⟩]⟩,
   ⟨"TOP_TOPO", 0x18, 1, 8, [⟨31, 16, .ro, 0⟩, ⟨11, 8, .ro, 0⟩, ⟨1, 1, .ro, 0⟩, ⟨0, 0, .ro, 0⟩]⟩,
   ⟨"TOP_SUMMARY", 0x20, 1, 8, [⟨63, 52, .ro, 0⟩, ⟨51, 40, .ro, 0⟩, ⟨39, 28, .ro, 0⟩, ⟨27, 16, .ro, 0⟩, ⟨15, 8, .ro, 0⟩, ⟨7, 0, .ro, 0⟩]⟩,
   ⟨"TOP_COLD_TIME", 0x100, 1, 8, [⟨63, 0, .ro, 0⟩]⟩,
   ⟨"TOP_REGION_RESETS", 0x108, 1, 8, [⟨63, 0, .ro, 0⟩]⟩,
   ⟨"TOP_REGION_TIME_MAX", 0x110, 1, 8, [⟨63, 0, .ro, 0⟩]⟩,
   ⟨"TOP_CORES_FAILED", 0x118, 1, 8, [⟨63, 0, .ro, 0⟩]⟩,
   ⟨"TOP_BU_PAUSE", 0x120, 1, 8, [⟨63, 0, .ro, 0⟩]⟩,
   ⟨"TOP_CLUSTER", 0x1000, 256, 8, [⟨45, 45, .ro, 0⟩, ⟨44, 44, .ro, 0⟩, ⟨43, 32, .ro, 0⟩, ⟨27, 16, .ro, 0⟩, ⟨11, 0, .ro, 0⟩]⟩,
   ⟨"TOP_LANE_FUSE_RX", 0x2000, 16, 16, [⟨33, 0, .ro, 0⟩]⟩] ++
  [⟨"TOP_LANE_FUSE_TX", 0x2008, 16, 16, [⟨33, 0, .ro, 0⟩]⟩,
   ⟨"TOP_FAULT_CTRL", 0x4000, 1, 8, [⟨55, 48, .rw, 0xa⟩, ⟨47, 16, .rw, 0x2710⟩, ⟨11, 0, .rw, 0x40⟩]⟩,
   ⟨"TOP_HEALTH", 0x4008, 1, 8, [⟨27, 24, .ro, 0⟩, ⟨17, 16, .ro, 0⟩, ⟨8, 8, .ro, 0⟩, ⟨4, 4, .ro, 0⟩, ⟨3, 3, .ro, 0⟩, ⟨2, 2, .ro, 0⟩, ⟨1, 1, .ro, 0⟩, ⟨0, 0, .ro, 0⟩]⟩,
   ⟨"TOP_FAULT_EVENT", 0x4010, 1, 8, [⟨7, 7, .rw1c, 0⟩, ⟨6, 6, .rw1c, 0⟩, ⟨5, 5, .rw1c, 0⟩, ⟨4, 4, .rw1c, 0⟩, ⟨3, 3, .rw1c, 0⟩, ⟨2, 2, .rw1c, 0⟩, ⟨1, 1, .rw1c, 0⟩, ⟨0, 0, .rw1c, 0⟩]⟩,
   ⟨"TOP_REGION_RELEASE", 0x4018, 1, 8, [⟨63, 63, .wo, 0⟩, ⟨15, 0, .wo, 0⟩]⟩,
   ⟨"TOP_TAKEOVER", 0x4020, 1, 8, [⟨63, 32, .ro, 0⟩, ⟨31, 31, .ro, 0⟩, ⟨30, 30, .ro, 0⟩, ⟨29, 16, .ro, 0⟩, ⟨13, 0, .ro, 0⟩]⟩,
   ⟨"TOP_FAULT_LOG_HEAD", 0x4028, 1, 8, [⟨31, 0, .ro, 0⟩]⟩,
   ⟨"TOP_STEP_FAILS", 0x4100, 1, 8, [⟨63, 0, .ro, 0⟩]⟩,
   ⟨"TOP_MIGRATIONS", 0x4108, 1, 8, [⟨63, 0, .ro, 0⟩]⟩,
   ⟨"TOP_MIGRATION_FAILS", 0x4110, 1, 8, [⟨63, 0, .ro, 0⟩]⟩,
   ⟨"TOP_MIGRATE_MAX", 0x4118, 1, 8, [⟨63, 0, .ro, 0⟩]⟩,
   ⟨"TOP_ROLLBACKS", 0x4120, 1, 8, [⟨63, 0, .ro, 0⟩]⟩] ++
  [⟨"TOP_REFORMS", 0x4128, 1, 8, [⟨63, 0, .ro, 0⟩]⟩,
   ⟨"TOP_THERMAL_TRIPS", 0x4130, 1, 8, [⟨63, 0, .ro, 0⟩]⟩,
   ⟨"TOP_SELFTESTS", 0x4138, 1, 8, [⟨63, 0, .ro, 0⟩]⟩,
   ⟨"TOP_SELFTEST_FAILS", 0x4140, 1, 8, [⟨63, 0, .ro, 0⟩]⟩,
   ⟨"TOP_FAULT_LOG", 0x8000, 512, 8, [⟨63, 0, .ro, 0⟩]⟩]

/-- Registers of the block `seqMod`. -/
def regs_seqMod : List RegDef :=
  [⟨"SEQ_ID", 0x0, 1, 8, [⟨45, 32, .ro, 0⟩, ⟨31, 24, .ro, 0x10⟩, ⟨23, 16, .ro, 0xff⟩, ⟨15, 8, .ro, 0x40⟩, ⟨1, 0, .ro, 1⟩]⟩,
   ⟨"SEQ_CTRL", 0x8, 1, 8, [⟨31, 0, .rw, 0x4e20⟩]⟩,
   ⟨"SEQ_SUMMARY", 0x10, 1, 8, [⟨63, 0, .ro, 0⟩]⟩,
   ⟨"SEQ_EVENT", 0x18, 1, 8, [⟨5, 5, .rw1c, 0⟩, ⟨4, 4, .rw1c, 0⟩, ⟨3, 3, .rw1c, 0⟩, ⟨2, 2, .rw1c, 0⟩, ⟨1, 1, .rw1c, 0⟩, ⟨0, 0, .rw1c, 0⟩]⟩,
   ⟨"SEQ_EXC", 0x20, 1, 8, [⟨63, 32, .ro, 0⟩, ⟨29, 16, .ro, 0⟩, ⟨10, 8, .ro, 0⟩, ⟨7, 4, .ro, 0⟩, ⟨0, 0, .ro, 0⟩]⟩,
   ⟨"SEQ_EXC_WORD_LO", 0x28, 1, 8, [⟨63, 0, .ro, 0⟩]⟩,
   ⟨"SEQ_EXC_WORD_HI", 0x30, 1, 8, [⟨63, 0, .ro, 0⟩]⟩,
   ⟨"SEQ_EXC_CORE", 0xE0, 1, 8, [⟨13, 0, .ro, 0⟩]⟩,
   ⟨"SEQ_INSTRS", 0x100, 1, 8, [⟨63, 0, .ro, 0⟩]⟩,
   ⟨"SEQ_ISSUE_STALL", 0x108, 1, 8, [⟨63, 0, .ro, 0⟩]⟩,
   ⟨"SEQ_WAIT_BEATS", 0x110, 1, 8, [⟨63, 0, .ro, 0⟩]⟩,
   ⟨"SEQ_VOTE_READS", 0x118, 1, 8, [⟨63, 0, .ro, 0⟩]⟩] ++
  [⟨"SEQ_VOTE_DISAGREE", 0x120, 1, 8, [⟨63, 0, .ro, 0⟩]⟩,
   ⟨"SEQ_SIGNALS_SENT", 0x128, 1, 8, [⟨63, 0, .ro, 0⟩]⟩,
   ⟨"SEQ_SIGNALS_REFUSED", 0x130, 1, 8, [⟨63, 0, .ro, 0⟩]⟩,
   ⟨"SEQ_EXC_LOST", 0x138, 1, 8, [⟨63, 0, .ro, 0⟩]⟩]

/-- Registers of the block `seqCore`. -/
def regs_seqCore : List RegDef :=
  [⟨"SEQ_ID", 0x0, 1, 8, [⟨45, 32, .ro, 0⟩, ⟨31, 24, .ro, 0x10⟩, ⟨23, 16, .ro, 0xff⟩, ⟨15, 8, .ro, 0x40⟩, ⟨1, 0, .ro, 1⟩]⟩,
   ⟨"SEQ_CTRL", 0x8, 1, 8, [⟨31, 0, .ro, 0x4e20⟩]⟩,
   ⟨"SEQ_STATUS", 0x10, 1, 8, [⟨29, 16, .ro, 0⟩, ⟨11, 8, .ro, 0⟩, ⟨7, 4, .ro, 0⟩, ⟨3, 0, .ro, 0⟩]⟩,
   ⟨"SEQ_EVENT", 0x18, 1, 8, [⟨5, 5, .rw1c, 0⟩, ⟨4, 4, .rw1c, 0⟩, ⟨3, 3, .rw1c, 0⟩, ⟨2, 2, .rw1c, 0⟩, ⟨1, 1, .rw1c, 0⟩, ⟨0, 0, .rw1c, 0⟩]⟩,
   ⟨"SEQ_EXC", 0x20, 1, 8, [⟨63, 32, .ro, 0⟩, ⟨29, 16, .ro, 0⟩, ⟨10, 8, .ro, 0⟩, ⟨7, 4, .ro, 0⟩, ⟨0, 0, .ro, 0⟩]⟩,
   ⟨"SEQ_EXC_WORD_LO", 0x28, 1, 8, [⟨63, 0, .ro, 0⟩]⟩,
   ⟨"SEQ_EXC_WORD_HI", 0x30, 1, 8, [⟨63, 0, .ro, 0⟩]⟩,
   ⟨"SEQ_ENTRY", 0x38, 1, 8, [⟨48, 48, .ro, 0⟩, ⟨45, 32, .ro, 0⟩, ⟨13, 0, .ro, 0⟩]⟩,
   ⟨"SEQ_TOKEN", 0x40, 16, 8, [⟨15, 0, .ro, 0⟩]⟩,
   ⟨"SEQ_LC", 0xC0, 4, 8, [⟨31, 0, .ro, 0⟩]⟩,
   ⟨"SEQ_INSTRS", 0x100, 1, 8, [⟨63, 0, .ro, 0⟩]⟩,
   ⟨"SEQ_ISSUE_STALL", 0x108, 1, 8, [⟨63, 0, .ro, 0⟩]⟩] ++
  [⟨"SEQ_WAIT_BEATS", 0x110, 1, 8, [⟨63, 0, .ro, 0⟩]⟩,
   ⟨"SEQ_VOTE_READS", 0x118, 1, 8, [⟨63, 0, .ro, 0⟩]⟩,
   ⟨"SEQ_VOTE_DISAGREE", 0x120, 1, 8, [⟨63, 0, .ro, 0⟩]⟩,
   ⟨"SEQ_SIGNALS_SENT", 0x128, 1, 8, [⟨63, 0, .ro, 0⟩]⟩,
   ⟨"SEQ_SIGNALS_REFUSED", 0x130, 1, 8, [⟨63, 0, .ro, 0⟩]⟩,
   ⟨"SEQ_EXC_LOST", 0x138, 1, 8, [⟨63, 0, .ro, 0⟩]⟩,
   ⟨"SEQ_DESC", 0x2000, 1024, 8, [⟨63, 0, .ro, 0⟩]⟩]

/-- Registers of the block `seqCluster`. -/
def regs_seqCluster : List RegDef :=
  [⟨"SEQ_CL_STATUS", 0x0, 1, 8, [⟨60, 48, .ro, 0⟩, ⟨47, 32, .ro, 0⟩, ⟨28, 28, .ro, 0⟩, ⟨12, 0, .ro, 0⟩]⟩,
   ⟨"SEQ_CL_BATCH", 0x8, 1, 8, [⟨31, 0, .ro, 0⟩]⟩,
   ⟨"SEQ_CL_BARRIERS", 0x100, 1, 8, [⟨63, 0, .ro, 0⟩]⟩,
   ⟨"SEQ_CL_BARRIER_BEATS", 0x108, 1, 8, [⟨63, 0, .ro, 0⟩]⟩]

/-- Registers of the block `engMod`. -/
def regs_engMod : List RegDef :=
  [⟨"ENG_ID", 0x0, 1, 8, [⟨45, 32, .ro, 0⟩, ⟨31, 24, .ro, 0x41⟩, ⟨23, 16, .ro, 0x20⟩, ⟨15, 8, .ro, 0x20⟩, ⟨1, 0, .ro, 1⟩]⟩,
   ⟨"ENG_CTRL", 0x8, 1, 8, [⟨15, 8, .rw, 8⟩, ⟨0, 0, .rw, 1⟩]⟩,
   ⟨"ENG_TAU", 0x10, 1, 8, [⟨41, 32, .ro, 0x40⟩, ⟨9, 0, .rw, 0x40⟩]⟩,
   ⟨"ENG_STATUS", 0x18, 1, 8, [⟨7, 7, .ro, 0⟩, ⟨6, 6, .ro, 0⟩, ⟨5, 4, .ro, 0⟩, ⟨3, 3, .ro, 0⟩, ⟨2, 2, .ro, 0⟩, ⟨1, 1, .ro, 0⟩, ⟨0, 0, .ro, 0⟩]⟩,
   ⟨"ENG_EVENT", 0x20, 1, 8, [⟨6, 6, .rw1c, 0⟩, ⟨5, 5, .rw1c, 0⟩, ⟨4, 4, .rw1c, 0⟩, ⟨3, 3, .rw1c, 0⟩, ⟨2, 2, .rw1c, 0⟩, ⟨1, 1, .rw1c, 0⟩, ⟨0, 0, .rw1c, 0⟩]⟩,
   ⟨"ENG_FAIL_LOC", 0x28, 1, 8, [⟨63, 32, .ro, 0⟩, ⟨19, 16, .ro, 0⟩, ⟨12, 8, .ro, 0⟩, ⟨4, 0, .ro, 0⟩]⟩,
   ⟨"ENG_FAIL_CORE", 0x30, 1, 8, [⟨45, 32, .ro, 0⟩]⟩,
   ⟨"ENG_SR_SEED", 0x40, 4, 8, [⟨63, 0, .wo, 0⟩]⟩,
   ⟨"ENG_PASSES", 0x100, 1, 8, [⟨63, 0, .ro, 0⟩]⟩,
   ⟨"ENG_TILE_CHECKS", 0x108, 1, 8, [⟨63, 0, .ro, 0⟩]⟩,
   ⟨"ENG_TILE_FAILS", 0x110, 1, 8, [⟨63, 0, .ro, 0⟩]⟩,
   ⟨"ENG_REPLAYS_PASSED", 0x118, 1, 8, [⟨63, 0, .ro, 0⟩]⟩] ++
  [⟨"ENG_REPLAYS_FAILED", 0x120, 1, 8, [⟨63, 0, .ro, 0⟩]⟩,
   ⟨"ENG_UNCHECKED", 0x128, 1, 8, [⟨63, 0, .ro, 0⟩]⟩,
   ⟨"ENG_SATURATED", 0x130, 1, 8, [⟨63, 0, .ro, 0⟩]⟩,
   ⟨"ENG_BUSY_BEATS", 0x138, 1, 8, [⟨63, 0, .ro, 0⟩]⟩,
   ⟨"ENG_STALL_OPERAND", 0x140, 1, 8, [⟨63, 0, .ro, 0⟩]⟩]

/-- Registers of the block `engCore`. -/
def regs_engCore : List RegDef :=
  [⟨"ENG_ID", 0x0, 1, 8, [⟨45, 32, .ro, 0⟩, ⟨31, 24, .ro, 0x41⟩, ⟨23, 16, .ro, 0x20⟩, ⟨15, 8, .ro, 0x20⟩, ⟨1, 0, .ro, 1⟩]⟩,
   ⟨"ENG_CTRL", 0x8, 1, 8, [⟨15, 8, .ro, 8⟩, ⟨0, 0, .ro, 1⟩]⟩,
   ⟨"ENG_TAU", 0x10, 1, 8, [⟨41, 32, .ro, 0x40⟩, ⟨9, 0, .ro, 0x40⟩]⟩,
   ⟨"ENG_STATUS", 0x18, 1, 8, [⟨7, 7, .ro, 0⟩, ⟨6, 6, .ro, 0⟩, ⟨5, 4, .ro, 0⟩, ⟨3, 3, .ro, 0⟩, ⟨2, 2, .ro, 0⟩, ⟨1, 1, .ro, 0⟩, ⟨0, 0, .ro, 0⟩]⟩,
   ⟨"ENG_EVENT", 0x20, 1, 8, [⟨6, 6, .rw1c, 0⟩, ⟨5, 5, .rw1c, 0⟩, ⟨4, 4, .rw1c, 0⟩, ⟨3, 3, .rw1c, 0⟩, ⟨2, 2, .rw1c, 0⟩, ⟨1, 1, .rw1c, 0⟩, ⟨0, 0, .rw1c, 0⟩]⟩,
   ⟨"ENG_FAIL_LOC", 0x28, 1, 8, [⟨63, 32, .ro, 0⟩, ⟨19, 16, .ro, 0⟩, ⟨12, 8, .ro, 0⟩, ⟨4, 0, .ro, 0⟩]⟩,
   ⟨"ENG_SR_COUNTER", 0x30, 1, 8, [⟨49, 0, .rw, 0⟩]⟩,
   ⟨"ENG_PASSES", 0x100, 1, 8, [⟨63, 0, .ro, 0⟩]⟩,
   ⟨"ENG_TILE_CHECKS", 0x108, 1, 8, [⟨63, 0, .ro, 0⟩]⟩,
   ⟨"ENG_TILE_FAILS", 0x110, 1, 8, [⟨63, 0, .ro, 0⟩]⟩,
   ⟨"ENG_REPLAYS_PASSED", 0x118, 1, 8, [⟨63, 0, .ro, 0⟩]⟩,
   ⟨"ENG_REPLAYS_FAILED", 0x120, 1, 8, [⟨63, 0, .ro, 0⟩]⟩] ++
  [⟨"ENG_UNCHECKED", 0x128, 1, 8, [⟨63, 0, .ro, 0⟩]⟩,
   ⟨"ENG_SATURATED", 0x130, 1, 8, [⟨63, 0, .ro, 0⟩]⟩,
   ⟨"ENG_BUSY_BEATS", 0x138, 1, 8, [⟨63, 0, .ro, 0⟩]⟩,
   ⟨"ENG_STALL_OPERAND", 0x140, 1, 8, [⟨63, 0, .ro, 0⟩]⟩]

/-- Registers of the block `vecMod`. -/
def regs_vecMod : List RegDef :=
  [⟨"VEC_ID", 0x0, 1, 8, [⟨45, 32, .ro, 0⟩, ⟨31, 16, .ro, 0x100⟩, ⟨15, 8, .ro, 0xff⟩, ⟨1, 0, .ro, 1⟩]⟩,
   ⟨"VEC_STATUS", 0x8, 1, 8, [⟨5, 5, .ro, 0⟩, ⟨4, 4, .ro, 0⟩, ⟨3, 3, .ro, 0⟩, ⟨2, 2, .ro, 0⟩, ⟨1, 1, .ro, 0⟩, ⟨0, 0, .ro, 0⟩]⟩,
   ⟨"VEC_EVENT", 0x10, 1, 8, [⟨5, 5, .rw1c, 0⟩, ⟨4, 4, .rw1c, 0⟩, ⟨3, 3, .rw1c, 0⟩, ⟨2, 2, .rw1c, 0⟩, ⟨1, 1, .rw1c, 0⟩, ⟨0, 0, .rw1c, 0⟩]⟩,
   ⟨"VEC_FAIL_LOC", 0x18, 1, 8, [⟨63, 32, .ro, 0⟩, ⟨19, 16, .ro, 0⟩, ⟨7, 0, .ro, 0⟩]⟩,
   ⟨"VEC_INSTRS", 0x100, 1, 8, [⟨63, 0, .ro, 0⟩]⟩,
   ⟨"VEC_CHECKED", 0x108, 1, 8, [⟨63, 0, .ro, 0⟩]⟩,
   ⟨"VEC_FAILS", 0x110, 1, 8, [⟨63, 0, .ro, 0⟩]⟩,
   ⟨"VEC_REPLAYS_PASSED", 0x118, 1, 8, [⟨63, 0, .ro, 0⟩]⟩,
   ⟨"VEC_REPLAYS_FAILED", 0x120, 1, 8, [⟨63, 0, .ro, 0⟩]⟩,
   ⟨"VEC_BUSY_BEATS", 0x128, 1, 8, [⟨63, 0, .ro, 0⟩]⟩,
   ⟨"VEC_STALL_BANK", 0x130, 1, 8, [⟨63, 0, .ro, 0⟩]⟩,
   ⟨"VEC_TS_READS", 0x200, 1, 8, [⟨63, 0, .ro, 0⟩]⟩] ++
  [⟨"VEC_TS_CORRECTED", 0x208, 1, 8, [⟨63, 0, .ro, 0⟩]⟩,
   ⟨"VEC_TS_DOUBLE", 0x210, 1, 8, [⟨63, 0, .ro, 0⟩]⟩,
   ⟨"VEC_TS_WRITEBACKS", 0x218, 1, 8, [⟨63, 0, .ro, 0⟩]⟩,
   ⟨"VEC_TS_DMA_WAIT", 0x220, 1, 8, [⟨63, 0, .ro, 0⟩]⟩,
   ⟨"VEC_WGB_ADDS", 0x300, 1, 8, [⟨63, 0, .ro, 0⟩]⟩,
   ⟨"VEC_WGB_READS", 0x308, 1, 8, [⟨63, 0, .ro, 0⟩]⟩,
   ⟨"VEC_WGB_CORRECTED", 0x310, 1, 8, [⟨63, 0, .ro, 0⟩]⟩,
   ⟨"VEC_WGB_DOUBLE", 0x318, 1, 8, [⟨63, 0, .ro, 0⟩]⟩]

/-- Registers of the block `strMod`. -/
def regs_strMod : List RegDef :=
  [⟨"STR_ID", 0x0, 1, 8, [⟨45, 32, .ro, 0⟩, ⟨31, 24, .ro, 0x80⟩, ⟨23, 16, .ro, 2⟩, ⟨1, 0, .ro, 1⟩]⟩,
   ⟨"STR_STATUS", 0x8, 1, 8, [⟨5, 5, .ro, 0⟩, ⟨4, 4, .ro, 0⟩, ⟨3, 3, .ro, 0⟩, ⟨2, 2, .ro, 0⟩, ⟨1, 1, .ro, 0⟩, ⟨0, 0, .ro, 0⟩]⟩,
   ⟨"STR_EVENT", 0x10, 1, 8, [⟨3, 3, .rw1c, 0⟩, ⟨2, 2, .rw1c, 0⟩, ⟨1, 1, .rw1c, 0⟩, ⟨0, 0, .rw1c, 0⟩]⟩,
   ⟨"STR_META_ERR", 0x18, 1, 8, [⟨63, 32, .ro, 0⟩, ⟨19, 16, .ro, 0⟩, ⟨15, 0, .ro, 0⟩]⟩,
   ⟨"STR_CHUNKS", 0x100, 1, 8, [⟨63, 0, .ro, 0⟩]⟩,
   ⟨"STR_META_ERRS", 0x108, 1, 8, [⟨63, 0, .ro, 0⟩]⟩,
   ⟨"STR_SEGMENTS", 0x110, 1, 8, [⟨63, 0, .ro, 0⟩]⟩,
   ⟨"STR_BLOCKS", 0x118, 1, 8, [⟨63, 0, .ro, 0⟩]⟩,
   ⟨"STR_SHORT_SEGS", 0x120, 1, 8, [⟨63, 0, .ro, 0⟩]⟩,
   ⟨"STR_GATHER_WAIT", 0x128, 1, 8, [⟨63, 0, .ro, 0⟩]⟩,
   ⟨"STR_STALL_BANK", 0x130, 1, 8, [⟨63, 0, .ro, 0⟩]⟩,
   ⟨"STR_PRED_TILES", 0x138, 1, 8, [⟨63, 0, .ro, 0⟩]⟩] ++
  [⟨"STR_ACTIVE", 0x140, 1, 8, [⟨63, 0, .ro, 0⟩]⟩,
   ⟨"STR_SKIPPED", 0x148, 1, 8, [⟨63, 0, .ro, 0⟩]⟩,
   ⟨"STR_MISSES", 0x150, 1, 8, [⟨63, 0, .ro, 0⟩]⟩]

/-- Registers of the block `vecCore`. -/
def regs_vecCore : List RegDef :=
  [⟨"VEC_ID", 0x0, 1, 8, [⟨45, 32, .ro, 0⟩, ⟨31, 16, .ro, 0x100⟩, ⟨15, 8, .ro, 0xff⟩, ⟨1, 0, .ro, 1⟩]⟩,
   ⟨"VEC_STATUS", 0x8, 1, 8, [⟨5, 5, .ro, 0⟩, ⟨4, 4, .ro, 0⟩, ⟨3, 3, .ro, 0⟩, ⟨2, 2, .ro, 0⟩, ⟨1, 1, .ro, 0⟩, ⟨0, 0, .ro, 0⟩]⟩,
   ⟨"VEC_EVENT", 0x10, 1, 8, [⟨5, 5, .rw1c, 0⟩, ⟨4, 4, .rw1c, 0⟩, ⟨3, 3, .rw1c, 0⟩, ⟨2, 2, .rw1c, 0⟩, ⟨1, 1, .rw1c, 0⟩, ⟨0, 0, .rw1c, 0⟩]⟩,
   ⟨"VEC_FAIL_LOC", 0x18, 1, 8, [⟨63, 32, .ro, 0⟩, ⟨19, 16, .ro, 0⟩, ⟨7, 0, .ro, 0⟩]⟩,
   ⟨"VEC_INSTRS", 0x100, 1, 8, [⟨63, 0, .ro, 0⟩]⟩,
   ⟨"VEC_CHECKED", 0x108, 1, 8, [⟨63, 0, .ro, 0⟩]⟩,
   ⟨"VEC_FAILS", 0x110, 1, 8, [⟨63, 0, .ro, 0⟩]⟩,
   ⟨"VEC_REPLAYS_PASSED", 0x118, 1, 8, [⟨63, 0, .ro, 0⟩]⟩,
   ⟨"VEC_REPLAYS_FAILED", 0x120, 1, 8, [⟨63, 0, .ro, 0⟩]⟩,
   ⟨"VEC_BUSY_BEATS", 0x128, 1, 8, [⟨63, 0, .ro, 0⟩]⟩,
   ⟨"VEC_STALL_BANK", 0x130, 1, 8, [⟨63, 0, .ro, 0⟩]⟩,
   ⟨"VEC_TS_READS", 0x200, 1, 8, [⟨63, 0, .ro, 0⟩]⟩] ++
  [⟨"VEC_TS_CORRECTED", 0x208, 1, 8, [⟨63, 0, .ro, 0⟩]⟩,
   ⟨"VEC_TS_DOUBLE", 0x210, 1, 8, [⟨63, 0, .ro, 0⟩]⟩,
   ⟨"VEC_TS_WRITEBACKS", 0x218, 1, 8, [⟨63, 0, .ro, 0⟩]⟩,
   ⟨"VEC_TS_DMA_WAIT", 0x220, 1, 8, [⟨63, 0, .ro, 0⟩]⟩,
   ⟨"VEC_WGB_ADDS", 0x300, 1, 8, [⟨63, 0, .ro, 0⟩]⟩,
   ⟨"VEC_WGB_READS", 0x308, 1, 8, [⟨63, 0, .ro, 0⟩]⟩,
   ⟨"VEC_WGB_CORRECTED", 0x310, 1, 8, [⟨63, 0, .ro, 0⟩]⟩,
   ⟨"VEC_WGB_DOUBLE", 0x318, 1, 8, [⟨63, 0, .ro, 0⟩]⟩]

/-- Registers of the block `strCore`. -/
def regs_strCore : List RegDef :=
  [⟨"STR_ID", 0x0, 1, 8, [⟨45, 32, .ro, 0⟩, ⟨31, 24, .ro, 0x80⟩, ⟨23, 16, .ro, 2⟩, ⟨1, 0, .ro, 1⟩]⟩,
   ⟨"STR_STATUS", 0x8, 1, 8, [⟨5, 5, .ro, 0⟩, ⟨4, 4, .ro, 0⟩, ⟨3, 3, .ro, 0⟩, ⟨2, 2, .ro, 0⟩, ⟨1, 1, .ro, 0⟩, ⟨0, 0, .ro, 0⟩]⟩,
   ⟨"STR_EVENT", 0x10, 1, 8, [⟨3, 3, .rw1c, 0⟩, ⟨2, 2, .rw1c, 0⟩, ⟨1, 1, .rw1c, 0⟩, ⟨0, 0, .rw1c, 0⟩]⟩,
   ⟨"STR_META_ERR", 0x18, 1, 8, [⟨63, 32, .ro, 0⟩, ⟨19, 16, .ro, 0⟩, ⟨15, 0, .ro, 0⟩]⟩,
   ⟨"STR_CHUNKS", 0x100, 1, 8, [⟨63, 0, .ro, 0⟩]⟩,
   ⟨"STR_META_ERRS", 0x108, 1, 8, [⟨63, 0, .ro, 0⟩]⟩,
   ⟨"STR_SEGMENTS", 0x110, 1, 8, [⟨63, 0, .ro, 0⟩]⟩,
   ⟨"STR_BLOCKS", 0x118, 1, 8, [⟨63, 0, .ro, 0⟩]⟩,
   ⟨"STR_SHORT_SEGS", 0x120, 1, 8, [⟨63, 0, .ro, 0⟩]⟩,
   ⟨"STR_GATHER_WAIT", 0x128, 1, 8, [⟨63, 0, .ro, 0⟩]⟩,
   ⟨"STR_STALL_BANK", 0x130, 1, 8, [⟨63, 0, .ro, 0⟩]⟩,
   ⟨"STR_PRED_TILES", 0x138, 1, 8, [⟨63, 0, .ro, 0⟩]⟩] ++
  [⟨"STR_ACTIVE", 0x140, 1, 8, [⟨63, 0, .ro, 0⟩]⟩,
   ⟨"STR_SKIPPED", 0x148, 1, 8, [⟨63, 0, .ro, 0⟩]⟩,
   ⟨"STR_MISSES", 0x150, 1, 8, [⟨63, 0, .ro, 0⟩]⟩]

/-- Registers of the block `topCluster`. -/
def regs_topCluster : List RegDef :=
  [⟨"TOP_XBAR_CFG", 0x0, 1, 8, [⟨29, 29, .ro, 0⟩, ⟨28, 27, .ro, 0⟩, ⟨26, 23, .ro, 0⟩, ⟨22, 22, .ro, 0⟩, ⟨21, 20, .ro, 0⟩, ⟨19, 16, .ro, 0⟩, ⟨15, 4, .ro, 0⟩, ⟨3, 0, .ro, 0⟩]⟩,
   ⟨"TOP_XBAR_STALL", 0x100, 18, 8, [⟨63, 0, .ro, 0⟩]⟩]

/-- Registers of the block `topDie`. -/
def regs_topDie : List RegDef :=
  [⟨"TOP_DIE_STATUS", 0x0, 1, 8, [⟨23, 20, .ro, 0⟩, ⟨17, 17, .ro, 0⟩, ⟨16, 16, .ro, 0⟩, ⟨15, 15, .ro, 0⟩, ⟨11, 10, .ro, 0⟩, ⟨7, 4, .ro, 0⟩, ⟨3, 0, .ro, 0⟩]⟩,
   ⟨"TOP_RTR_PORTS", 0x80000, 1, 8, [⟨15, 0, .ro, 0⟩]⟩,
   ⟨"TOP_HOT_LEVEL", 0x80008, 1, 8, [⟨39, 32, .ro, 0⟩, ⟨23, 20, .ro, 0⟩, ⟨19, 16, .ro, 0⟩, ⟨13, 0, .ro, 0⟩]⟩,
   ⟨"TOP_RTR_ROUTE", 0x81000, 64, 8, [⟨1, 0, .ro, 0⟩]⟩,
   ⟨"TOP_RTR_MCAST", 0x82000, 64, 8, [⟨63, 63, .ro, 0⟩, ⟨55, 55, .ro, 0⟩, ⟨54, 49, .ro, 0⟩, ⟨47, 0, .ro, 0⟩]⟩,
   ⟨"TOP_RTR_STALL", 0x84000, 16, 8, [⟨63, 0, .ro, 0⟩]⟩,
   ⟨"TOP_RTR_CRC_DATA", 0x84100, 1, 8, [⟨63, 0, .ro, 0⟩]⟩,
   ⟨"TOP_RTR_CRC_CTRL", 0x84108, 1, 8, [⟨63, 0, .ro, 0⟩]⟩,
   ⟨"TOP_RTR_CTRL_RESENDS", 0x84110, 1, 8, [⟨63, 0, .ro, 0⟩]⟩,
   ⟨"TOP_RTR_MCAST_SKIPS", 0x84118, 1, 8, [⟨63, 0, .ro, 0⟩]⟩,
   ⟨"TOP_RTR_MCAST_DROPS", 0x84120, 1, 8, [⟨63, 0, .ro, 0⟩]⟩]

/-- Registers of the block `govMod`. -/
def regs_govMod : List RegDef :=
  [⟨"GOV_ID", 0x0, 1, 8, [⟨31, 16, .ro, 0x1000⟩, ⟨15, 8, .ro, 0x10⟩, ⟨1, 0, .ro, 1⟩]⟩,
   ⟨"GOV_CTRL", 0x8, 1, 8, [⟨63, 48, .rw, 0x42⟩, ⟨47, 32, .rw, 0x51f⟩, ⟨31, 24, .rw, 0⟩, ⟨19, 16, .rw, 1⟩, ⟨12, 0, .ro, 0⟩]⟩,
   ⟨"GOV_STATUS", 0x10, 1, 8, [⟨63, 32, .ro, 0⟩, ⟨20, 16, .ro, 0⟩, ⟨15, 15, .ro, 0⟩, ⟨11, 0, .ro, 0⟩]⟩,
   ⟨"GOV_EVENT", 0x18, 1, 8, [⟨3, 3, .rw1c, 0⟩, ⟨2, 2, .rw1c, 0⟩, ⟨1, 1, .rw1c, 0⟩, ⟨0, 0, .rw1c, 0⟩]⟩,
   ⟨"GOV_REPORTS", 0x100, 1, 8, [⟨63, 0, .ro, 0⟩]⟩,
   ⟨"GOV_EXCH_REDUCTIONS", 0x108, 1, 8, [⟨63, 0, .ro, 0⟩]⟩,
   ⟨"GOV_EXCH_FAILS", 0x110, 1, 8, [⟨63, 0, .ro, 0⟩]⟩,
   ⟨"GOV_BOUNDARY_WAIT", 0x118, 1, 8, [⟨63, 0, .ro, 0⟩]⟩,
   ⟨"GOV_FORMAT_CHANGES", 0x120, 1, 8, [⟨63, 0, .ro, 0⟩]⟩,
   ⟨"GOV_LAYER", 0x8000, 4096, 8, [⟨63, 63, .ro, 0⟩, ⟨51, 48, .ro, 0⟩, ⟨47, 40, .ro, 0⟩, ⟨36, 32, .ro, 0⟩, ⟨23, 16, .ro, 0⟩, ⟨3, 0, .ro, 0⟩]⟩]

/-- Registers of the block `govCluster`. -/
def regs_govCluster : List RegDef :=
  [⟨"GOV_CL_STATUS", 0x0, 1, 8, [⟨12, 0, .ro, 0⟩]⟩,
   ⟨"GOV_CL_REPORTS", 0x100, 1, 8, [⟨63, 0, .ro, 0⟩]⟩,
   ⟨"GOV_CL_LAYER", 0x4000, 4096, 8, [⟨15, 8, .ro, 0⟩, ⟨3, 0, .ro, 0⟩]⟩]

/-- Registers of the block `urnCluster`. -/
def regs_urnCluster : List RegDef :=
  [⟨"URN_ID", 0x0, 1, 8, [⟨31, 16, .ro, 0x7800⟩, ⟨15, 8, .ro, 0xf⟩, ⟨1, 0, .ro, 1⟩]⟩,
   ⟨"URN_LOG_BASE", 0x8, 1, 8, [⟨48, 0, .ro, 0⟩]⟩,
   ⟨"URN_LOG_LIMIT", 0x10, 1, 8, [⟨31, 0, .ro, 0⟩]⟩,
   ⟨"URN_STATUS", 0x18, 1, 8, [⟨52, 52, .ro, 0⟩, ⟨51, 51, .ro, 0⟩, ⟨50, 50, .ro, 0⟩, ⟨49, 49, .ro, 0⟩, ⟨48, 48, .ro, 0⟩, ⟨47, 16, .ro, 0⟩, ⟨14, 0, .ro, 0⟩]⟩,
   ⟨"URN_EVENT", 0x20, 1, 8, [⟨5, 5, .rw1c, 0⟩, ⟨4, 4, .rw1c, 0⟩, ⟨3, 3, .rw1c, 0⟩, ⟨2, 2, .rw1c, 0⟩, ⟨1, 1, .rw1c, 0⟩, ⟨0, 0, .rw1c, 0⟩]⟩,
   ⟨"URN_SESSION", 0x28, 1, 8, [⟨63, 48, .ro, 0⟩, ⟨19, 0, .ro, 0⟩]⟩,
   ⟨"URN_NEXT_ROW", 0x30, 1, 8, [⟨29, 0, .ro, 0⟩]⟩,
   ⟨"URN_TILES", 0x100, 1, 8, [⟨63, 0, .ro, 0⟩]⟩,
   ⟨"URN_HITS", 0x108, 1, 8, [⟨63, 0, .ro, 0⟩]⟩,
   ⟨"URN_SPILLS", 0x110, 1, 8, [⟨63, 0, .ro, 0⟩]⟩,
   ⟨"URN_LOG_READS", 0x118, 1, 8, [⟨63, 0, .ro, 0⟩]⟩,
   ⟨"URN_MERGED", 0x120, 1, 8, [⟨63, 0, .ro, 0⟩]⟩] ++
  [⟨"URN_DISCARDED", 0x128, 1, 8, [⟨63, 0, .ro, 0⟩]⟩,
   ⟨"URN_ADD_FAILS", 0x130, 1, 8, [⟨63, 0, .ro, 0⟩]⟩,
   ⟨"URN_PEAK", 0x138, 1, 8, [⟨63, 0, .ro, 0⟩]⟩]

/-- Registers of the block `urnMod`. -/
def regs_urnMod : List RegDef :=
  [⟨"URN_ID", 0x0, 1, 8, [⟨31, 16, .ro, 0x7800⟩, ⟨15, 8, .ro, 0xf⟩, ⟨1, 0, .ro, 1⟩]⟩,
   ⟨"URN_SUMMARY", 0x18, 1, 8, [⟨8, 0, .ro, 0⟩]⟩,
   ⟨"URN_EVENT", 0x20, 1, 8, [⟨5, 5, .rw1c, 0⟩, ⟨4, 4, .rw1c, 0⟩, ⟨3, 3, .rw1c, 0⟩, ⟨2, 2, .rw1c, 0⟩, ⟨1, 1, .rw1c, 0⟩, ⟨0, 0, .rw1c, 0⟩]⟩,
   ⟨"URN_TILES", 0x100, 1, 8, [⟨63, 0, .ro, 0⟩]⟩,
   ⟨"URN_HITS", 0x108, 1, 8, [⟨63, 0, .ro, 0⟩]⟩,
   ⟨"URN_SPILLS", 0x110, 1, 8, [⟨63, 0, .ro, 0⟩]⟩,
   ⟨"URN_LOG_READS", 0x118, 1, 8, [⟨63, 0, .ro, 0⟩]⟩,
   ⟨"URN_MERGED", 0x120, 1, 8, [⟨63, 0, .ro, 0⟩]⟩,
   ⟨"URN_DISCARDED", 0x128, 1, 8, [⟨63, 0, .ro, 0⟩]⟩,
   ⟨"URN_ADD_FAILS", 0x130, 1, 8, [⟨63, 0, .ro, 0⟩]⟩,
   ⟨"URN_PEAK", 0x138, 1, 8, [⟨63, 0, .ro, 0⟩]⟩]

/-- Registers of the block `infPort`. -/
def regs_infPort : List RegDef :=
  [⟨"INF_ID", 0x0, 1, 8, [⟨40, 40, .ro, 0⟩, ⟨39, 36, .ro, 0⟩, ⟨23, 16, .ro, 0xff⟩, ⟨15, 8, .ro, 0x10⟩, ⟨1, 0, .ro, 1⟩]⟩,
   ⟨"INF_CTRL", 0x8, 1, 8, [⟨55, 48, .ro, 1⟩, ⟨47, 32, .ro, 0x7d0⟩, ⟨31, 28, .ro, 0⟩, ⟨19, 16, .ro, 4⟩, ⟨15, 0, .ro, 0xc8⟩]⟩,
   ⟨"INF_STATUS", 0x10, 1, 8, [⟨56, 48, .ro, 0⟩, ⟨40, 32, .ro, 0⟩, ⟨20, 16, .ro, 0⟩, ⟨3, 3, .ro, 0⟩, ⟨2, 2, .ro, 0⟩, ⟨1, 1, .ro, 0⟩, ⟨0, 0, .ro, 0⟩]⟩,
   ⟨"INF_EVENT", 0x18, 1, 8, [⟨10, 10, .rw1c, 0⟩, ⟨9, 9, .rw1c, 0⟩, ⟨8, 8, .rw1c, 0⟩, ⟨7, 7, .rw1c, 0⟩, ⟨6, 6, .rw1c, 0⟩, ⟨5, 5, .rw1c, 0⟩, ⟨4, 4, .rw1c, 0⟩, ⟨3, 3, .rw1c, 0⟩, ⟨2, 2, .rw1c, 0⟩, ⟨1, 1, .rw1c, 0⟩, ⟨0, 0, .rw1c, 0⟩]⟩,
   ⟨"INF_PASSON", 0x30, 1, 8, [⟨63, 63, .ro, 0⟩, ⟨51, 48, .ro, 0⟩, ⟨15, 0, .ro, 0⟩]⟩,
   ⟨"INF_CACHE_BASE", 0x38, 1, 8, [⟨48, 0, .ro, 0⟩]⟩,
   ⟨"INF_CACHE_CHUNKS", 0x40, 1, 8, [⟨31, 0, .ro, 0⟩]⟩,
   ⟨"INF_SERVER", 0x48, 4, 8, [⟨63, 63, .ro, 0⟩, ⟨51, 48, .ro, 0⟩, ⟨15, 0, .ro, 0⟩]⟩,
   ⟨"INF_CHUNKS_DELIVERED", 0x200, 1, 8, [⟨63, 0, .ro, 0⟩]⟩,
   ⟨"INF_CHUNKS_HASHED", 0x208, 1, 8, [⟨63, 0, .ro, 0⟩]⟩,
   ⟨"INF_HASH_FAILS", 0x210, 1, 8, [⟨63, 0, .ro, 0⟩]⟩,
   ⟨"INF_INDEX_FAILS", 0x218, 1, 8, [⟨63, 0, .ro, 0⟩]⟩] ++
  [⟨"INF_REREQUESTS", 0x220, 1, 8, [⟨63, 0, .ro, 0⟩]⟩,
   ⟨"INF_TIMEOUTS", 0x228, 1, 8, [⟨63, 0, .ro, 0⟩]⟩,
   ⟨"INF_UNAVAILABLE", 0x230, 1, 8, [⟨63, 0, .ro, 0⟩]⟩,
   ⟨"INF_CACHE_HITS", 0x238, 1, 8, [⟨63, 0, .ro, 0⟩]⟩,
   ⟨"INF_CACHE_MISSES", 0x240, 1, 8, [⟨63, 0, .ro, 0⟩]⟩,
   ⟨"INF_PUSHES_SENT", 0x248, 1, 8, [⟨63, 0, .ro, 0⟩]⟩,
   ⟨"INF_PUSHES_USED", 0x250, 1, 8, [⟨63, 0, .ro, 0⟩]⟩,
   ⟨"INF_PUSH_DROPS", 0x258, 1, 8, [⟨63, 0, .ro, 0⟩]⟩,
   ⟨"INF_LATE_REPLIES", 0x260, 1, 8, [⟨63, 0, .ro, 0⟩]⟩,
   ⟨"INF_RING_WAIT", 0x268, 1, 8, [⟨63, 0, .ro, 0⟩]⟩,
   ⟨"INF_STAGE_WAIT", 0x270, 1, 8, [⟨63, 0, .ro, 0⟩]⟩,
   ⟨"INF_PUBLISHED", 0x278, 1, 8, [⟨63, 0, .ro, 0⟩]⟩]

/-- Registers of the block `infMod`. -/
def regs_infMod : List RegDef :=
  [⟨"INF_ID", 0x0, 1, 8, [⟨40, 40, .ro, 0⟩, ⟨39, 36, .ro, 0⟩, ⟨23, 16, .ro, 0xff⟩, ⟨15, 8, .ro, 0x10⟩, ⟨1, 0, .ro, 1⟩]⟩,
   ⟨"INF_CTRL", 0x8, 1, 8, [⟨55, 48, .rw, 1⟩, ⟨47, 32, .rw, 0x7d0⟩, ⟨31, 28, .rw, 0⟩, ⟨19, 16, .rw, 4⟩, ⟨15, 0, .rw, 0xc8⟩]⟩,
   ⟨"INF_SUMMARY", 0x10, 1, 8, [⟨5, 5, .ro, 0⟩, ⟨4, 4, .ro, 0⟩, ⟨3, 3, .ro, 0⟩, ⟨2, 2, .ro, 0⟩, ⟨1, 1, .ro, 0⟩, ⟨0, 0, .ro, 0⟩]⟩,
   ⟨"INF_EVENT", 0x18, 1, 8, [⟨10, 10, .rw1c, 0⟩, ⟨9, 9, .rw1c, 0⟩, ⟨8, 8, .rw1c, 0⟩, ⟨7, 7, .rw1c, 0⟩, ⟨6, 6, .rw1c, 0⟩, ⟨5, 5, .rw1c, 0⟩, ⟨4, 4, .rw1c, 0⟩, ⟨3, 3, .rw1c, 0⟩, ⟨2, 2, .rw1c, 0⟩, ⟨1, 1, .rw1c, 0⟩, ⟨0, 0, .rw1c, 0⟩]⟩,
   ⟨"INF_VERSION", 0x20, 1, 8, [⟨63, 32, .ro, 0⟩, ⟨31, 0, .ro, 0⟩]⟩,
   ⟨"INF_STAGE", 0x28, 1, 8, [⟨63, 62, .ro, 0⟩, ⟨59, 56, .ro, 0⟩, ⟨32, 32, .wo, 0⟩, ⟨31, 0, .rw, 0⟩]⟩,
   ⟨"INF_ACTIVE_ROOT", 0x80, 4, 8, [⟨63, 0, .ro, 0⟩]⟩,
   ⟨"INF_STAGE_ROOT", 0xA0, 4, 8, [⟨63, 0, .ro, 0⟩]⟩,
   ⟨"INF_PUBKEY_HASH", 0x100, 16, 8, [⟨63, 0, .ro, 0⟩]⟩,
   ⟨"INF_CHUNKS_DELIVERED", 0x200, 1, 8, [⟨63, 0, .ro, 0⟩]⟩,
   ⟨"INF_CHUNKS_HASHED", 0x208, 1, 8, [⟨63, 0, .ro, 0⟩]⟩,
   ⟨"INF_HASH_FAILS", 0x210, 1, 8, [⟨63, 0, .ro, 0⟩]⟩] ++
  [⟨"INF_INDEX_FAILS", 0x218, 1, 8, [⟨63, 0, .ro, 0⟩]⟩,
   ⟨"INF_REREQUESTS", 0x220, 1, 8, [⟨63, 0, .ro, 0⟩]⟩,
   ⟨"INF_TIMEOUTS", 0x228, 1, 8, [⟨63, 0, .ro, 0⟩]⟩,
   ⟨"INF_UNAVAILABLE", 0x230, 1, 8, [⟨63, 0, .ro, 0⟩]⟩,
   ⟨"INF_CACHE_HITS", 0x238, 1, 8, [⟨63, 0, .ro, 0⟩]⟩,
   ⟨"INF_CACHE_MISSES", 0x240, 1, 8, [⟨63, 0, .ro, 0⟩]⟩,
   ⟨"INF_PUSHES_SENT", 0x248, 1, 8, [⟨63, 0, .ro, 0⟩]⟩,
   ⟨"INF_PUSHES_USED", 0x250, 1, 8, [⟨63, 0, .ro, 0⟩]⟩,
   ⟨"INF_PUSH_DROPS", 0x258, 1, 8, [⟨63, 0, .ro, 0⟩]⟩,
   ⟨"INF_LATE_REPLIES", 0x260, 1, 8, [⟨63, 0, .ro, 0⟩]⟩,
   ⟨"INF_RING_WAIT", 0x268, 1, 8, [⟨63, 0, .ro, 0⟩]⟩,
   ⟨"INF_STAGE_WAIT", 0x270, 1, 8, [⟨63, 0, .ro, 0⟩]⟩] ++
  [⟨"INF_PUBLISHED", 0x278, 1, 8, [⟨63, 0, .ro, 0⟩]⟩]

/-- Registers of the block `samPort`. -/
def regs_samPort : List RegDef :=
  [⟨"SAM_ID", 0x0, 1, 8, [⟨40, 40, .ro, 0⟩, ⟨39, 36, .ro, 0⟩, ⟨28, 16, .ro, 0x1000⟩, ⟨1, 0, .ro, 1⟩]⟩,
   ⟨"SAM_CTRL", 0x8, 1, 8, [⟨31, 16, .ro, 0x7d0⟩, ⟨15, 0, .ro, 0x1388⟩]⟩,
   ⟨"SAM_STATUS", 0x10, 1, 8, [⟨55, 24, .ro, 0⟩, ⟨18, 18, .ro, 0⟩, ⟨17, 17, .ro, 0⟩, ⟨16, 16, .ro, 0⟩, ⟨12, 0, .ro, 0⟩]⟩,
   ⟨"SAM_EVENT", 0x18, 1, 8, [⟨9, 9, .rw1c, 0⟩, ⟨8, 8, .rw1c, 0⟩, ⟨7, 7, .rw1c, 0⟩, ⟨6, 6, .rw1c, 0⟩, ⟨5, 5, .rw1c, 0⟩, ⟨4, 4, .rw1c, 0⟩, ⟨3, 3, .rw1c, 0⟩, ⟨2, 2, .rw1c, 0⟩, ⟨1, 1, .rw1c, 0⟩, ⟨0, 0, .rw1c, 0⟩]⟩,
   ⟨"SAM_RETAIN_BASE", 0x20, 1, 8, [⟨48, 0, .ro, 0⟩]⟩,
   ⟨"SAM_RETAIN_LIMIT", 0x28, 1, 8, [⟨31, 0, .ro, 0⟩]⟩,
   ⟨"SAM_CONTRIB_SENT", 0x100, 1, 8, [⟨63, 0, .ro, 0⟩]⟩,
   ⟨"SAM_INPUTS", 0x108, 1, 8, [⟨63, 0, .ro, 0⟩]⟩,
   ⟨"SAM_PARTIALS_OUT", 0x110, 1, 8, [⟨63, 0, .ro, 0⟩]⟩,
   ⟨"SAM_OWNED_DONE", 0x118, 1, 8, [⟨63, 0, .ro, 0⟩]⟩,
   ⟨"SAM_RESIDUE_CHECKS", 0x120, 1, 8, [⟨63, 0, .ro, 0⟩]⟩,
   ⟨"SAM_RESIDUE_FAILS", 0x128, 1, 8, [⟨63, 0, .ro, 0⟩]⟩] ++
  [⟨"SAM_RESEND_RESIDUE", 0x130, 1, 8, [⟨63, 0, .ro, 0⟩]⟩,
   ⟨"SAM_RESEND_HALF", 0x138, 1, 8, [⟨63, 0, .ro, 0⟩]⟩,
   ⟨"SAM_SAT_KEPT", 0x140, 1, 8, [⟨63, 0, .ro, 0⟩]⟩,
   ⟨"SAM_CHECK_FAIL", 0x148, 1, 8, [⟨63, 0, .ro, 0⟩]⟩,
   ⟨"SAM_CTX_TIMEOUTS", 0x150, 1, 8, [⟨63, 0, .ro, 0⟩]⟩,
   ⟨"SAM_STALE", 0x158, 1, 8, [⟨63, 0, .ro, 0⟩]⟩,
   ⟨"SAM_DUPLICATES", 0x160, 1, 8, [⟨63, 0, .ro, 0⟩]⟩,
   ⟨"SAM_MISMATCH", 0x168, 1, 8, [⟨63, 0, .ro, 0⟩]⟩,
   ⟨"SAM_NONFINITE", 0x170, 1, 8, [⟨63, 0, .ro, 0⟩]⟩,
   ⟨"SAM_COUNT_MISMATCH", 0x178, 1, 8, [⟨63, 0, .ro, 0⟩]⟩,
   ⟨"SAM_CTX_WAIT", 0x180, 1, 8, [⟨63, 0, .ro, 0⟩]⟩,
   ⟨"SAM_RETAIN_WAIT", 0x188, 1, 8, [⟨63, 0, .ro, 0⟩]⟩]

/-- Registers of the block `samMod`. -/
def regs_samMod : List RegDef :=
  [⟨"SAM_ID", 0x0, 1, 8, [⟨40, 40, .ro, 0⟩, ⟨39, 36, .ro, 0⟩, ⟨28, 16, .ro, 0x1000⟩, ⟨1, 0, .ro, 1⟩]⟩,
   ⟨"SAM_CTRL", 0x8, 1, 8, [⟨31, 16, .rw, 0x7d0⟩, ⟨15, 0, .rw, 0x1388⟩]⟩,
   ⟨"SAM_STATUS", 0x10, 1, 8, [⟨55, 24, .ro, 0⟩, ⟨18, 18, .ro, 0⟩, ⟨17, 17, .ro, 0⟩, ⟨16, 16, .ro, 0⟩, ⟨12, 0, .ro, 0⟩]⟩,
   ⟨"SAM_EVENT", 0x18, 1, 8, [⟨9, 9, .rw1c, 0⟩, ⟨8, 8, .rw1c, 0⟩, ⟨7, 7, .rw1c, 0⟩, ⟨6, 6, .rw1c, 0⟩, ⟨5, 5, .rw1c, 0⟩, ⟨4, 4, .rw1c, 0⟩, ⟨3, 3, .rw1c, 0⟩, ⟨2, 2, .rw1c, 0⟩, ⟨1, 1, .rw1c, 0⟩, ⟨0, 0, .rw1c, 0⟩]⟩,
   ⟨"SAM_GRP_CMD", 0x30, 1, 8, [⟨63, 63, .wo, 0⟩, ⟨62, 62, .wo, 0⟩, ⟨55, 48, .wo, 0⟩, ⟨47, 40, .wo, 0⟩, ⟨31, 16, .wo, 0⟩, ⟨15, 0, .wo, 0⟩]⟩,
   ⟨"SAM_CONTRIB_SENT", 0x100, 1, 8, [⟨63, 0, .ro, 0⟩]⟩,
   ⟨"SAM_INPUTS", 0x108, 1, 8, [⟨63, 0, .ro, 0⟩]⟩,
   ⟨"SAM_PARTIALS_OUT", 0x110, 1, 8, [⟨63, 0, .ro, 0⟩]⟩,
   ⟨"SAM_OWNED_DONE", 0x118, 1, 8, [⟨63, 0, .ro, 0⟩]⟩,
   ⟨"SAM_RESIDUE_CHECKS", 0x120, 1, 8, [⟨63, 0, .ro, 0⟩]⟩,
   ⟨"SAM_RESIDUE_FAILS", 0x128, 1, 8, [⟨63, 0, .ro, 0⟩]⟩,
   ⟨"SAM_RESEND_RESIDUE", 0x130, 1, 8, [⟨63, 0, .ro, 0⟩]⟩] ++
  [⟨"SAM_RESEND_HALF", 0x138, 1, 8, [⟨63, 0, .ro, 0⟩]⟩,
   ⟨"SAM_SAT_KEPT", 0x140, 1, 8, [⟨63, 0, .ro, 0⟩]⟩,
   ⟨"SAM_CHECK_FAIL", 0x148, 1, 8, [⟨63, 0, .ro, 0⟩]⟩,
   ⟨"SAM_CTX_TIMEOUTS", 0x150, 1, 8, [⟨63, 0, .ro, 0⟩]⟩,
   ⟨"SAM_STALE", 0x158, 1, 8, [⟨63, 0, .ro, 0⟩]⟩,
   ⟨"SAM_DUPLICATES", 0x160, 1, 8, [⟨63, 0, .ro, 0⟩]⟩,
   ⟨"SAM_MISMATCH", 0x168, 1, 8, [⟨63, 0, .ro, 0⟩]⟩,
   ⟨"SAM_NONFINITE", 0x170, 1, 8, [⟨63, 0, .ro, 0⟩]⟩,
   ⟨"SAM_COUNT_MISMATCH", 0x178, 1, 8, [⟨63, 0, .ro, 0⟩]⟩,
   ⟨"SAM_CTX_WAIT", 0x180, 1, 8, [⟨63, 0, .ro, 0⟩]⟩,
   ⟨"SAM_RETAIN_WAIT", 0x188, 1, 8, [⟨63, 0, .ro, 0⟩]⟩,
   ⟨"SAM_GROUP", 0x1000, 256, 8, [⟨63, 62, .ro, 0⟩, ⟨55, 48, .ro, 0⟩, ⟨47, 32, .ro, 0⟩, ⟨31, 16, .ro, 0⟩, ⟨15, 0, .ro, 0⟩]⟩] ++
  [⟨"SAM_SIPGROUP_STATE", 0x1800, 256, 8, [⟨63, 62, .ro, 0⟩, ⟨55, 48, .ro, 0⟩, ⟨47, 32, .ro, 0⟩, ⟨31, 16, .ro, 0⟩, ⟨15, 0, .ro, 0⟩]⟩]

/-- Registers of the block `sipPort`. -/
def regs_sipPort : List RegDef :=
  [⟨"SIP_ID", 0x0, 1, 8, [⟨40, 40, .ro, 0⟩, ⟨39, 36, .ro, 0⟩, ⟨15, 8, .ro, 0xf⟩, ⟨1, 0, .ro, 1⟩]⟩,
   ⟨"SIP_CTRL", 0x8, 1, 8, [⟨31, 0, .ro, 0xc350⟩]⟩,
   ⟨"SIP_STATUS", 0x10, 1, 8, [⟨16, 16, .ro, 0⟩, ⟨8, 0, .ro, 0⟩]⟩,
   ⟨"SIP_EVENT", 0x18, 1, 8, [⟨3, 3, .rw1c, 0⟩, ⟨2, 2, .rw1c, 0⟩, ⟨1, 1, .rw1c, 0⟩, ⟨0, 0, .rw1c, 0⟩]⟩,
   ⟨"SIP_OPS", 0x100, 1, 8, [⟨63, 0, .ro, 0⟩]⟩,
   ⟨"SIP_FLITS_UP", 0x108, 1, 8, [⟨63, 0, .ro, 0⟩]⟩,
   ⟨"SIP_FLITS_DOWN", 0x110, 1, 8, [⟨63, 0, .ro, 0⟩]⟩,
   ⟨"SIP_COMBINES", 0x118, 1, 8, [⟨63, 0, .ro, 0⟩]⟩,
   ⟨"SIP_COMBINE_FAILS", 0x120, 1, 8, [⟨63, 0, .ro, 0⟩]⟩,
   ⟨"SIP_STALE", 0x128, 1, 8, [⟨63, 0, .ro, 0⟩]⟩,
   ⟨"SIP_TIMEOUTS", 0x130, 1, 8, [⟨63, 0, .ro, 0⟩]⟩,
   ⟨"SIP_MAX_TRANSIT", 0x138, 1, 8, [⟨63, 0, .ro, 0⟩]⟩]

/-- Registers of the block `sipMod`. -/
def regs_sipMod : List RegDef :=
  [⟨"SIP_ID", 0x0, 1, 8, [⟨40, 40, .ro, 0⟩, ⟨39, 36, .ro, 0⟩, ⟨15, 8, .ro, 0xf⟩, ⟨1, 0, .ro, 1⟩]⟩,
   ⟨"SIP_CTRL", 0x8, 1, 8, [⟨31, 0, .rw, 0xc350⟩]⟩,
   ⟨"SIP_STATUS", 0x10, 1, 8, [⟨16, 16, .ro, 0⟩, ⟨8, 0, .ro, 0⟩]⟩,
   ⟨"SIP_EVENT", 0x18, 1, 8, [⟨3, 3, .rw1c, 0⟩, ⟨2, 2, .rw1c, 0⟩, ⟨1, 1, .rw1c, 0⟩, ⟨0, 0, .rw1c, 0⟩]⟩,
   ⟨"SIP_OPS", 0x100, 1, 8, [⟨63, 0, .ro, 0⟩]⟩,
   ⟨"SIP_FLITS_UP", 0x108, 1, 8, [⟨63, 0, .ro, 0⟩]⟩,
   ⟨"SIP_FLITS_DOWN", 0x110, 1, 8, [⟨63, 0, .ro, 0⟩]⟩,
   ⟨"SIP_COMBINES", 0x118, 1, 8, [⟨63, 0, .ro, 0⟩]⟩,
   ⟨"SIP_COMBINE_FAILS", 0x120, 1, 8, [⟨63, 0, .ro, 0⟩]⟩,
   ⟨"SIP_STALE", 0x128, 1, 8, [⟨63, 0, .ro, 0⟩]⟩,
   ⟨"SIP_TIMEOUTS", 0x130, 1, 8, [⟨63, 0, .ro, 0⟩]⟩,
   ⟨"SIP_MAX_TRANSIT", 0x138, 1, 8, [⟨63, 0, .ro, 0⟩]⟩] ++
  [⟨"SIP_GROUP", 0x1000, 256, 8, [⟨63, 62, .ro, 0⟩, ⟨55, 48, .ro, 0⟩, ⟨47, 44, .ro, 0⟩, ⟨43, 43, .ro, 0⟩, ⟨39, 24, .ro, 0⟩, ⟨15, 0, .ro, 0⟩]⟩]

/-- Registers of the block `lnkPort`. -/
def regs_lnkPort : List RegDef :=
  [⟨"LNK_ID", 0x0, 1, 8, [⟨40, 40, .ro, 0⟩, ⟨39, 36, .ro, 0⟩, ⟨23, 16, .ro, 0x22⟩, ⟨15, 8, .ro, 0x40⟩, ⟨1, 0, .ro, 1⟩]⟩,
   ⟨"LNK_CTRL", 0x8, 1, 8, [⟨47, 32, .ro, 0x500⟩, ⟨31, 24, .ro, 1⟩, ⟨23, 16, .ro, 0x14⟩, ⟨15, 8, .ro, 8⟩]⟩,
   ⟨"LNK_STATUS", 0x10, 1, 8, [⟨42, 32, .ro, 0⟩, ⟨11, 11, .ro, 0⟩, ⟨10, 10, .ro, 0⟩, ⟨9, 9, .ro, 0⟩, ⟨8, 8, .ro, 0⟩, ⟨3, 0, .ro, 0⟩]⟩,
   ⟨"LNK_EVENT", 0x18, 1, 8, [⟨14, 14, .rw1c, 0⟩, ⟨13, 13, .rw1c, 0⟩, ⟨12, 12, .rw1c, 0⟩, ⟨11, 11, .rw1c, 0⟩, ⟨10, 10, .rw1c, 0⟩, ⟨9, 9, .rw1c, 0⟩, ⟨8, 8, .rw1c, 0⟩, ⟨7, 7, .rw1c, 0⟩, ⟨6, 6, .rw1c, 0⟩, ⟨5, 5, .rw1c, 0⟩, ⟨4, 4, .rw1c, 0⟩, ⟨3, 3, .rw1c, 0⟩, ⟨2, 2, .rw1c, 0⟩, ⟨1, 1, .rw1c, 0⟩, ⟨0, 0, .rw1c, 0⟩]⟩,
   ⟨"LNK_PORT_CMD", 0x20, 1, 8, [⟨63, 63, .wo, 0⟩, ⟨3, 0, .wo, 0⟩]⟩,
   ⟨"LNK_ROLE", 0x28, 1, 8, [⟨63, 48, .ro, 0⟩, ⟨47, 32, .ro, 0⟩, ⟨31, 16, .ro, 0⟩, ⟨15, 12, .ro, 0⟩, ⟨11, 8, .ro, 0⟩, ⟨3, 0, .ro, 0⟩]⟩,
   ⟨"LNK_PARTNER", 0x30, 1, 8, [⟨63, 63, .ro, 0⟩, ⟨59, 58, .ro, 0⟩, ⟨57, 56, .ro, 0⟩, ⟨55, 54, .ro, 0⟩, ⟨51, 48, .ro, 0⟩, ⟨47, 44, .ro, 0⟩, ⟨31, 16, .ro, 0⟩, ⟨0, 0, .ro, 0⟩]⟩,
   ⟨"LNK_LANES_RX", 0x38, 1, 8, [⟨35, 34, .ro, 2⟩, ⟨33, 0, .ro, 0⟩]⟩,
   ⟨"LNK_LANES_TX", 0x40, 1, 8, [⟨35, 34, .ro, 2⟩, ⟨33, 0, .ro, 0⟩]⟩,
   ⟨"LNK_TEST", 0x48, 1, 8, [⟨39, 38, .rw, 2⟩, ⟨37, 36, .rw, 0⟩, ⟨33, 0, .rw, 0⟩]⟩,
   ⟨"LNK_FLITS_TX", 0x100, 1, 8, [⟨63, 0, .ro, 0⟩]⟩,
   ⟨"LNK_FLITS_RX", 0x108, 1, 8, [⟨63, 0, .ro, 0⟩]⟩] ++
  [⟨"LNK_CRC_FAILS", 0x110, 1, 8, [⟨63, 0, .ro, 0⟩]⟩,
   ⟨"LNK_FEC_CORRECTED", 0x118, 1, 8, [⟨63, 0, .ro, 0⟩]⟩,
   ⟨"LNK_FEC_UNCORR", 0x120, 1, 8, [⟨63, 0, .ro, 0⟩]⟩,
   ⟨"LNK_REPLAYS", 0x128, 1, 8, [⟨63, 0, .ro, 0⟩]⟩,
   ⟨"LNK_RETRY_LIMIT", 0x130, 1, 8, [⟨63, 0, .ro, 0⟩]⟩,
   ⟨"LNK_RETRAINS", 0x138, 1, 8, [⟨63, 0, .ro, 0⟩]⟩,
   ⟨"LNK_LANE_SWAPS", 0x140, 1, 8, [⟨63, 0, .ro, 0⟩]⟩,
   ⟨"LNK_FOREIGN_JOB", 0x148, 1, 8, [⟨63, 0, .ro, 0⟩]⟩,
   ⟨"LNK_MALFORMED", 0x150, 1, 8, [⟨63, 0, .ro, 0⟩]⟩,
   ⟨"LNK_MISROUTED", 0x158, 1, 8, [⟨63, 0, .ro, 0⟩]⟩,
   ⟨"LNK_ROLE_DENIED", 0x160, 1, 8, [⟨63, 0, .ro, 0⟩]⟩,
   ⟨"LNK_LATE_REPLIES", 0x168, 1, 8, [⟨63, 0, .ro, 0⟩]⟩] ++
  [⟨"LNK_PARTNER_RESETS", 0x170, 1, 8, [⟨63, 0, .ro, 0⟩]⟩,
   ⟨"LNK_TAG_WAIT", 0x178, 1, 8, [⟨63, 0, .ro, 0⟩]⟩,
   ⟨"LNK_CREDIT_WAIT", 0x180, 1, 8, [⟨63, 0, .ro, 0⟩]⟩,
   ⟨"LNK_SIP_FLITS_RX", 0x188, 1, 8, [⟨63, 0, .ro, 0⟩]⟩,
   ⟨"LNK_SIP_CRC_FAILS", 0x190, 1, 8, [⟨63, 0, .ro, 0⟩]⟩,
   ⟨"LNK_SIP_NAKS", 0x198, 1, 8, [⟨63, 0, .ro, 0⟩]⟩,
   ⟨"LNK_LANE_SYMS", 0x400, 34, 8, [⟨63, 0, .ro, 0⟩]⟩,
   ⟨"LNK_PRBS_ERRS", 0x600, 34, 8, [⟨63, 0, .ro, 0⟩]⟩]

/-- Registers of the block `lnkMod`. -/
def regs_lnkMod : List RegDef :=
  [⟨"LNK_ID", 0x0, 1, 8, [⟨40, 40, .ro, 0⟩, ⟨39, 36, .ro, 0⟩, ⟨23, 16, .ro, 0x22⟩, ⟨15, 8, .ro, 0x40⟩, ⟨1, 0, .ro, 1⟩]⟩,
   ⟨"LNK_CTRL", 0x8, 1, 8, [⟨47, 32, .rw, 0x500⟩, ⟨31, 24, .rw, 1⟩, ⟨23, 16, .rw, 0x14⟩, ⟨15, 8, .rw, 8⟩]⟩,
   ⟨"LNK_SUMMARY", 0x10, 1, 8, [⟨4, 0, .ro, 0⟩]⟩,
   ⟨"LNK_EVENT", 0x18, 1, 8, [⟨14, 14, .rw1c, 0⟩, ⟨13, 13, .rw1c, 0⟩, ⟨12, 12, .rw1c, 0⟩, ⟨11, 11, .rw1c, 0⟩, ⟨10, 10, .rw1c, 0⟩, ⟨9, 9, .rw1c, 0⟩, ⟨8, 8, .rw1c, 0⟩, ⟨7, 7, .rw1c, 0⟩, ⟨6, 6, .rw1c, 0⟩, ⟨5, 5, .rw1c, 0⟩, ⟨4, 4, .rw1c, 0⟩, ⟨3, 3, .rw1c, 0⟩, ⟨2, 2, .rw1c, 0⟩, ⟨1, 1, .rw1c, 0⟩, ⟨0, 0, .rw1c, 0⟩]⟩,
   ⟨"LNK_FLITS_TX", 0x100, 1, 8, [⟨63, 0, .ro, 0⟩]⟩,
   ⟨"LNK_FLITS_RX", 0x108, 1, 8, [⟨63, 0, .ro, 0⟩]⟩,
   ⟨"LNK_CRC_FAILS", 0x110, 1, 8, [⟨63, 0, .ro, 0⟩]⟩,
   ⟨"LNK_FEC_CORRECTED", 0x118, 1, 8, [⟨63, 0, .ro, 0⟩]⟩,
   ⟨"LNK_FEC_UNCORR", 0x120, 1, 8, [⟨63, 0, .ro, 0⟩]⟩,
   ⟨"LNK_REPLAYS", 0x128, 1, 8, [⟨63, 0, .ro, 0⟩]⟩,
   ⟨"LNK_RETRY_LIMIT", 0x130, 1, 8, [⟨63, 0, .ro, 0⟩]⟩,
   ⟨"LNK_RETRAINS", 0x138, 1, 8, [⟨63, 0, .ro, 0⟩]⟩] ++
  [⟨"LNK_LANE_SWAPS", 0x140, 1, 8, [⟨63, 0, .ro, 0⟩]⟩,
   ⟨"LNK_FOREIGN_JOB", 0x148, 1, 8, [⟨63, 0, .ro, 0⟩]⟩,
   ⟨"LNK_MALFORMED", 0x150, 1, 8, [⟨63, 0, .ro, 0⟩]⟩,
   ⟨"LNK_MISROUTED", 0x158, 1, 8, [⟨63, 0, .ro, 0⟩]⟩,
   ⟨"LNK_ROLE_DENIED", 0x160, 1, 8, [⟨63, 0, .ro, 0⟩]⟩,
   ⟨"LNK_LATE_REPLIES", 0x168, 1, 8, [⟨63, 0, .ro, 0⟩]⟩,
   ⟨"LNK_PARTNER_RESETS", 0x170, 1, 8, [⟨63, 0, .ro, 0⟩]⟩,
   ⟨"LNK_TAG_WAIT", 0x178, 1, 8, [⟨63, 0, .ro, 0⟩]⟩,
   ⟨"LNK_CREDIT_WAIT", 0x180, 1, 8, [⟨63, 0, .ro, 0⟩]⟩,
   ⟨"LNK_SIP_FLITS_RX", 0x188, 1, 8, [⟨63, 0, .ro, 0⟩]⟩,
   ⟨"LNK_SIP_CRC_FAILS", 0x190, 1, 8, [⟨63, 0, .ro, 0⟩]⟩,
   ⟨"LNK_SIP_NAKS", 0x198, 1, 8, [⟨63, 0, .ro, 0⟩]⟩]

/-- Registers of the block `memDie`. -/
def regs_memDie : List RegDef :=
  [⟨"MEM_ID", 0x0, 1, 8, [⟨37, 32, .ro, 0⟩, ⟨31, 24, .ro, 0x12⟩, ⟨23, 16, .ro, 0x20⟩, ⟨15, 8, .ro, 0x40⟩, ⟨1, 0, .ro, 1⟩]⟩,
   ⟨"MEM_CTRL", 0x8, 1, 8, [⟨55, 48, .ro, 0x10⟩, ⟨47, 32, .ro, 0x1000⟩, ⟨31, 0, .ro, 0x3e8⟩]⟩,
   ⟨"MEM_STATUS", 0x10, 1, 8, [⟨30, 24, .ro, 0⟩, ⟨22, 16, .ro, 0⟩, ⟨12, 8, .ro, 0⟩, ⟨7, 7, .ro, 0⟩, ⟨1, 1, .ro, 0⟩, ⟨0, 0, .ro, 0⟩]⟩,
   ⟨"MEM_EVENT", 0x18, 1, 8, [⟨8, 8, .rw1c, 0⟩, ⟨7, 7, .rw1c, 0⟩, ⟨6, 6, .rw1c, 0⟩, ⟨5, 5, .rw1c, 0⟩, ⟨4, 4, .rw1c, 0⟩, ⟨3, 3, .rw1c, 0⟩, ⟨2, 2, .rw1c, 0⟩, ⟨1, 1, .rw1c, 0⟩, ⟨0, 0, .rw1c, 0⟩]⟩,
   ⟨"MEM_ERR_LOG_ADDR", 0x20, 1, 8, [⟨63, 63, .ro, 0⟩, ⟨59, 56, .ro, 0⟩, ⟨55, 54, .ro, 0⟩, ⟨48, 0, .ro, 0⟩]⟩,
   ⟨"MEM_ERR_LOG_SYN", 0x28, 1, 8, [⟨63, 0, .ro, 0⟩]⟩,
   ⟨"MEM_FLIP_MASK", 0x30, 1, 8, [⟨63, 63, .rw, 0⟩, ⟨62, 62, .rw, 0⟩, ⟨61, 60, .rw, 0⟩, ⟨39, 32, .rw, 0⟩, ⟨27, 24, .rw, 0⟩, ⟨17, 0, .rw, 0⟩]⟩,
   ⟨"MEM_READS", 0x100, 1, 8, [⟨63, 0, .ro, 0⟩]⟩,
   ⟨"MEM_WRITES", 0x108, 1, 8, [⟨63, 0, .ro, 0⟩]⟩,
   ⟨"MEM_CORRECTED", 0x110, 1, 8, [⟨63, 0, .ro, 0⟩]⟩,
   ⟨"MEM_ERASURE_CORR", 0x118, 1, 8, [⟨63, 0, .ro, 0⟩]⟩,
   ⟨"MEM_UNCORR", 0x120, 1, 8, [⟨63, 0, .ro, 0⟩]⟩] ++
  [⟨"MEM_CRIT_READS", 0x128, 1, 8, [⟨63, 0, .ro, 0⟩]⟩,
   ⟨"MEM_CRIT_DISAGREE", 0x130, 1, 8, [⟨63, 0, .ro, 0⟩]⟩,
   ⟨"MEM_CRIT_NOMAJ", 0x138, 1, 8, [⟨63, 0, .ro, 0⟩]⟩,
   ⟨"MEM_RMW", 0x140, 1, 8, [⟨63, 0, .ro, 0⟩]⟩,
   ⟨"MEM_UNPOP", 0x148, 1, 8, [⟨63, 0, .ro, 0⟩]⟩,
   ⟨"MEM_DIE_ERRS", 0x400, 18, 8, [⟨63, 0, .ro, 0⟩]⟩,
   ⟨"MEM_ROW_CAND", 0x800, 64, 8, [⟨63, 63, .ro, 0⟩, ⟨62, 62, .ro, 0⟩, ⟨39, 32, .ro, 0⟩, ⟨31, 21, .ro, 0⟩, ⟨15, 11, .ro, 0⟩, ⟨4, 0, .ro, 0⟩]⟩,
   ⟨"MEM_SOFT_REPAIR", 0xC00, 64, 8, [⟨63, 63, .ro, 0⟩, ⟨62, 62, .ro, 0⟩, ⟨39, 32, .ro, 0⟩, ⟨31, 21, .ro, 0⟩, ⟨15, 11, .ro, 0⟩, ⟨4, 0, .ro, 0⟩]⟩]

/-- Registers of the block `memMod`. -/
def regs_memMod : List RegDef :=
  [⟨"MEM_ID", 0x0, 1, 8, [⟨37, 32, .ro, 0⟩, ⟨31, 24, .ro, 0x12⟩, ⟨23, 16, .ro, 0x20⟩, ⟨15, 8, .ro, 0x40⟩, ⟨1, 0, .ro, 1⟩]⟩,
   ⟨"MEM_CTRL", 0x8, 1, 8, [⟨55, 48, .rw, 0x10⟩, ⟨47, 32, .rw, 0x1000⟩, ⟨31, 0, .rw, 0x3e8⟩]⟩,
   ⟨"MEM_SUMMARY", 0x10, 1, 8, [⟨6, 0, .ro, 0⟩]⟩,
   ⟨"MEM_EVENT", 0x18, 1, 8, [⟨8, 8, .rw1c, 0⟩, ⟨7, 7, .rw1c, 0⟩, ⟨6, 6, .rw1c, 0⟩, ⟨5, 5, .rw1c, 0⟩, ⟨4, 4, .rw1c, 0⟩, ⟨3, 3, .rw1c, 0⟩, ⟨2, 2, .rw1c, 0⟩, ⟨1, 1, .rw1c, 0⟩, ⟨0, 0, .rw1c, 0⟩]⟩,
   ⟨"MEM_ERR_LOG_ADDR", 0x20, 1, 8, [⟨63, 63, .ro, 0⟩, ⟨59, 56, .ro, 0⟩, ⟨55, 54, .ro, 0⟩, ⟨48, 0, .ro, 0⟩]⟩,
   ⟨"MEM_ERR_LOG_SYN", 0x28, 1, 8, [⟨63, 0, .ro, 0⟩]⟩,
   ⟨"MEM_READS", 0x100, 1, 8, [⟨63, 0, .ro, 0⟩]⟩,
   ⟨"MEM_WRITES", 0x108, 1, 8, [⟨63, 0, .ro, 0⟩]⟩,
   ⟨"MEM_CORRECTED", 0x110, 1, 8, [⟨63, 0, .ro, 0⟩]⟩,
   ⟨"MEM_ERASURE_CORR", 0x118, 1, 8, [⟨63, 0, .ro, 0⟩]⟩,
   ⟨"MEM_UNCORR", 0x120, 1, 8, [⟨63, 0, .ro, 0⟩]⟩,
   ⟨"MEM_CRIT_READS", 0x128, 1, 8, [⟨63, 0, .ro, 0⟩]⟩] ++
  [⟨"MEM_CRIT_DISAGREE", 0x130, 1, 8, [⟨63, 0, .ro, 0⟩]⟩,
   ⟨"MEM_CRIT_NOMAJ", 0x138, 1, 8, [⟨63, 0, .ro, 0⟩]⟩,
   ⟨"MEM_RMW", 0x140, 1, 8, [⟨63, 0, .ro, 0⟩]⟩,
   ⟨"MEM_UNPOP", 0x148, 1, 8, [⟨63, 0, .ro, 0⟩]⟩]

/-- Registers of the block `scrDie`. -/
def regs_scrDie : List RegDef :=
  [⟨"SCR_CTRL", 0x0, 1, 8, [⟨32, 32, .ro, 1⟩, ⟨31, 16, .ro, 0x18⟩, ⟨15, 0, .ro, 0x3e8⟩]⟩,
   ⟨"SCR_STATUS", 0x8, 1, 8, [⟨63, 63, .ro, 0⟩, ⟨62, 62, .ro, 0⟩, ⟨36, 0, .ro, 0⟩]⟩,
   ⟨"SCR_EVENT", 0x10, 1, 8, [⟨2, 2, .rw1c, 0⟩, ⟨1, 1, .rw1c, 0⟩, ⟨0, 0, .rw1c, 0⟩]⟩,
   ⟨"SCR_LAP", 0x18, 1, 8, [⟨31, 0, .ro, 0⟩]⟩,
   ⟨"SCR_ERR_LOG_ADDR", 0x20, 1, 8, [⟨63, 63, .ro, 0⟩, ⟨59, 56, .ro, 0⟩, ⟨55, 54, .ro, 0⟩, ⟨48, 0, .ro, 0⟩]⟩,
   ⟨"SCR_ERR_LOG_SYN", 0x28, 1, 8, [⟨63, 0, .ro, 0⟩]⟩,
   ⟨"SCR_READS", 0x100, 1, 8, [⟨63, 0, .ro, 0⟩]⟩,
   ⟨"SCR_CORRECTED", 0x108, 1, 8, [⟨63, 0, .ro, 0⟩]⟩,
   ⟨"SCR_UNCORR", 0x110, 1, 8, [⟨63, 0, .ro, 0⟩]⟩,
   ⟨"SCR_CRIT_DISAGREE", 0x118, 1, 8, [⟨63, 0, .ro, 0⟩]⟩,
   ⟨"SCR_LAPS", 0x120, 1, 8, [⟨63, 0, .ro, 0⟩]⟩]

/-- Registers of the block `scrMod`. -/
def regs_scrMod : List RegDef :=
  [⟨"SCR_CTRL", 0x0, 1, 8, [⟨32, 32, .rw, 1⟩, ⟨31, 16, .rw, 0x18⟩, ⟨15, 0, .rw, 0x3e8⟩]⟩,
   ⟨"SCR_SUMMARY", 0x8, 1, 8, [⟨6, 0, .ro, 0⟩]⟩,
   ⟨"SCR_EVENT", 0x10, 1, 8, [⟨2, 2, .rw1c, 0⟩, ⟨1, 1, .rw1c, 0⟩, ⟨0, 0, .rw1c, 0⟩]⟩,
   ⟨"SCR_LAP", 0x18, 1, 8, [⟨31, 0, .ro, 0⟩]⟩,
   ⟨"SCR_ERR_LOG_ADDR", 0x20, 1, 8, [⟨63, 63, .ro, 0⟩, ⟨59, 56, .ro, 0⟩, ⟨55, 54, .ro, 0⟩, ⟨48, 0, .ro, 0⟩]⟩,
   ⟨"SCR_ERR_LOG_SYN", 0x28, 1, 8, [⟨63, 0, .ro, 0⟩]⟩,
   ⟨"SCR_READS", 0x100, 1, 8, [⟨63, 0, .ro, 0⟩]⟩,
   ⟨"SCR_CORRECTED", 0x108, 1, 8, [⟨63, 0, .ro, 0⟩]⟩,
   ⟨"SCR_UNCORR", 0x110, 1, 8, [⟨63, 0, .ro, 0⟩]⟩,
   ⟨"SCR_CRIT_DISAGREE", 0x118, 1, 8, [⟨63, 0, .ro, 0⟩]⟩,
   ⟨"SCR_LAPS", 0x120, 1, 8, [⟨63, 0, .ro, 0⟩]⟩]

/-- Registers of the block `ckpMod`. -/
def regs_ckpMod : List RegDef :=
  [⟨"CKP_ID", 0x0, 1, 8, [⟨23, 16, .ro, 0x10⟩, ⟨15, 8, .ro, 2⟩, ⟨1, 0, .ro, 1⟩]⟩,
   ⟨"CKP_CTRL", 0x8, 1, 8, [⟨31, 16, .rw, 0x3e8⟩, ⟨7, 0, .rw, 0xf⟩]⟩,
   ⟨"CKP_STATUS", 0x10, 1, 8, [⟨63, 32, .ro, 0⟩, ⟨31, 28, .ro, 0⟩, ⟨25, 24, .ro, 0⟩, ⟨18, 18, .ro, 0⟩, ⟨17, 17, .ro, 0⟩, ⟨16, 16, .ro, 0⟩, ⟨15, 15, .ro, 0⟩, ⟨14, 14, .ro, 0⟩, ⟨13, 13, .ro, 0⟩]⟩,
   ⟨"CKP_EVENT", 0x18, 1, 8, [⟨10, 10, .rw1c, 0⟩, ⟨9, 9, .rw1c, 0⟩, ⟨8, 8, .rw1c, 0⟩, ⟨7, 7, .rw1c, 0⟩, ⟨6, 6, .rw1c, 0⟩, ⟨5, 5, .rw1c, 0⟩, ⟨4, 4, .rw1c, 0⟩, ⟨3, 3, .rw1c, 0⟩, ⟨2, 2, .rw1c, 0⟩, ⟨1, 1, .rw1c, 0⟩, ⟨0, 0, .rw1c, 0⟩]⟩,
   ⟨"CKP_BUDDY_SEND", 0x20, 1, 8, [⟨63, 32, .ro, 0⟩, ⟨31, 30, .ro, 0⟩, ⟨29, 0, .ro, 0⟩]⟩,
   ⟨"CKP_BUDDY_HOLD", 0x28, 1, 8, [⟨63, 32, .ro, 0⟩, ⟨31, 30, .ro, 0⟩, ⟨29, 0, .ro, 0⟩]⟩,
   ⟨"CKP_HANDOVER", 0x30, 1, 8, [⟨63, 63, .wo, 0⟩, ⟨35, 32, .wo, 0⟩, ⟨15, 0, .wo, 0⟩]⟩,
   ⟨"CKP_PREEMPT", 0x38, 1, 8, [⟨63, 0, .ro, 0⟩]⟩,
   ⟨"CKP_HANDOVER_STEP", 0x40, 1, 8, [⟨63, 0, .rw, 0⟩]⟩,
   ⟨"CKP_WRITTEN", 0x100, 1, 8, [⟨63, 0, .ro, 0⟩]⟩,
   ⟨"CKP_REFS", 0x108, 1, 8, [⟨63, 0, .ro, 0⟩]⟩,
   ⟨"CKP_BYTES", 0x110, 1, 8, [⟨63, 0, .ro, 0⟩]⟩] ++
  [⟨"CKP_FAILS", 0x118, 1, 8, [⟨63, 0, .ro, 0⟩]⟩,
   ⟨"CKP_NVME_ERRS", 0x120, 1, 8, [⟨63, 0, .ro, 0⟩]⟩,
   ⟨"CKP_DMA_REFUSED", 0x128, 1, 8, [⟨63, 0, .ro, 0⟩]⟩,
   ⟨"CKP_BCOPY_SENT", 0x130, 1, 8, [⟨63, 0, .ro, 0⟩]⟩,
   ⟨"CKP_BCOPY_RECV", 0x138, 1, 8, [⟨63, 0, .ro, 0⟩]⟩,
   ⟨"CKP_CBO_WAIT", 0x140, 1, 8, [⟨63, 0, .ro, 0⟩]⟩,
   ⟨"CKP_HANDOVERS", 0x148, 1, 8, [⟨63, 0, .ro, 0⟩]⟩,
   ⟨"CKP_RESTORES", 0x150, 1, 8, [⟨63, 0, .ro, 0⟩]⟩,
   ⟨"CKP_LAST_TIME", 0x158, 1, 8, [⟨63, 0, .ro, 0⟩]⟩,
   ⟨"CKP_PREEMPT_IGNORED", 0x160, 1, 8, [⟨63, 0, .ro, 0⟩]⟩]

/-- Registers of the block `secMod`. -/
def regs_secMod : List RegDef :=
  [⟨"SEC_ID", 0x0, 1, 8, [⟨15, 8, .ro, 1⟩, ⟨1, 0, .ro, 1⟩]⟩,
   ⟨"SEC_STATUS", 0x8, 1, 8, [⟨23, 16, .ro, 0⟩, ⟨8, 8, .ro, 0⟩, ⟨4, 4, .ro, 0⟩, ⟨3, 3, .ro, 0⟩, ⟨2, 2, .ro, 0⟩, ⟨1, 1, .ro, 0⟩, ⟨0, 0, .ro, 0⟩]⟩,
   ⟨"SEC_EVENT", 0x10, 1, 8, [⟨4, 4, .rw1c, 0⟩, ⟨3, 3, .rw1c, 0⟩, ⟨2, 2, .rw1c, 0⟩, ⟨1, 1, .rw1c, 0⟩, ⟨0, 0, .rw1c, 0⟩]⟩,
   ⟨"SEC_SEAL", 0x18, 1, 8, [⟨63, 63, .wo, 0⟩, ⟨31, 0, .wo, 0⟩]⟩,
   ⟨"SEC_FW_CMD", 0x20, 1, 8, [⟨63, 63, .wo, 0⟩, ⟨62, 60, .wo, 0⟩, ⟨48, 0, .wo, 0⟩]⟩,
   ⟨"SEC_FW_STATUS", 0x28, 1, 8, [⟨35, 32, .ro, 0⟩, ⟨31, 0, .ro, 0⟩]⟩,
   ⟨"SEC_OWNER", 0x40, 4, 8, [⟨63, 0, .rwl, 0⟩]⟩,
   ⟨"SEC_IDENTITY", 0x60, 4, 8, [⟨63, 0, .ro, 0⟩]⟩,
   ⟨"SEC_SIGNATURES", 0x100, 1, 8, [⟨63, 0, .ro, 0⟩]⟩,
   ⟨"SEC_VERIFIES", 0x108, 1, 8, [⟨63, 0, .ro, 0⟩]⟩,
   ⟨"SEC_VERIFY_FAILS", 0x110, 1, 8, [⟨63, 0, .ro, 0⟩]⟩,
   ⟨"SEC_ATTESTS", 0x118, 1, 8, [⟨63, 0, .ro, 0⟩]⟩] ++
  [⟨"SEC_SIGN_QUEUE_MAX", 0x120, 1, 8, [⟨63, 0, .ro, 0⟩]⟩,
   ⟨"SEC_CERT_ID", 0x1000, 666, 8, [⟨63, 0, .ro, 0⟩]⟩,
   ⟨"SEC_CERT_MFG", 0x3000, 666, 8, [⟨63, 0, .ro, 0⟩]⟩]

/-- Registers of the block `ktlMod`. -/
def regs_ktlMod : List RegDef :=
  [⟨"KTL_ID", 0x0, 1, 8, [⟨23, 16, .ro, 5⟩, ⟨15, 8, .ro, 8⟩, ⟨1, 0, .ro, 1⟩]⟩,
   ⟨"KTL_CTRL", 0x8, 1, 8, [⟨39, 32, .rw, 0xa⟩, ⟨23, 16, .rw, 0x55⟩, ⟨15, 8, .rw, 0x5f⟩]⟩,
   ⟨"KTL_STATUS", 0x10, 1, 8, [⟨63, 32, .ro, 0x1388⟩, ⟨12, 12, .ro, 0⟩, ⟨11, 11, .ro, 0⟩, ⟨10, 10, .ro, 0⟩, ⟨9, 9, .ro, 0⟩, ⟨8, 8, .ro, 0⟩, ⟨0, 0, .ro, 0⟩]⟩,
   ⟨"KTL_EVENT", 0x18, 1, 8, [⟨8, 8, .rw1c, 0⟩, ⟨7, 7, .rw1c, 0⟩, ⟨6, 6, .rw1c, 0⟩, ⟨5, 5, .rw1c, 0⟩, ⟨4, 4, .rw1c, 0⟩, ⟨3, 3, .rw1c, 0⟩, ⟨2, 2, .rw1c, 0⟩, ⟨1, 1, .rw1c, 0⟩, ⟨0, 0, .rw1c, 0⟩]⟩,
   ⟨"KTL_INPUT", 0x20, 1, 8, [⟨63, 32, .ro, 0⟩, ⟨31, 16, .ro, 0⟩, ⟨15, 0, .ro, 0⟩]⟩,
   ⟨"KTL_COOLANT", 0x28, 1, 8, [⟨47, 32, .ro, 0⟩, ⟨31, 16, .ro, 0⟩, ⟨15, 0, .ro, 0⟩]⟩,
   ⟨"KTL_CAP_TIME", 0x100, 1, 8, [⟨63, 0, .ro, 0⟩]⟩,
   ⟨"KTL_THROTTLE_TIME", 0x108, 1, 8, [⟨63, 0, .ro, 0⟩]⟩,
   ⟨"KTL_TRIPS", 0x110, 1, 8, [⟨63, 0, .ro, 0⟩]⟩,
   ⟨"KTL_POWER_TRIPS", 0x118, 1, 8, [⟨63, 0, .ro, 0⟩]⟩,
   ⟨"KTL_FALLBACK_TIME", 0x120, 1, 8, [⟨63, 0, .ro, 0⟩]⟩,
   ⟨"KTL_WARM_TIME", 0x128, 1, 8, [⟨63, 0, .ro, 0⟩]⟩] ++
  [⟨"KTL_ENERGY", 0x130, 1, 8, [⟨63, 0, .ro, 0⟩]⟩,
   ⟨"KTL_DIE", 0x1000, 64, 8, [⟨63, 48, .ro, 0⟩, ⟨47, 32, .ro, 0⟩, ⟨31, 16, .ro, 0⟩, ⟨15, 8, .ro, 0⟩, ⟨3, 3, .ro, 0⟩, ⟨2, 2, .ro, 0⟩, ⟨1, 1, .ro, 0⟩, ⟨0, 0, .ro, 0⟩]⟩]

/-- Registers of the block `timMod`. -/
def regs_timMod : List RegDef :=
  [⟨"TIM_CTRL", 0x0, 1, 8, [⟨7, 0, .rw, 0⟩]⟩,
   ⟨"TIM_STATUS", 0x8, 1, 8, [⟨63, 32, .ro, 0⟩, ⟨31, 24, .ro, 0⟩, ⟨1, 1, .ro, 0⟩, ⟨0, 0, .ro, 0⟩]⟩,
   ⟨"TIM_NOW", 0x10, 1, 8, [⟨63, 0, .ro, 0⟩]⟩,
   ⟨"TIM_SYNCS", 0x100, 1, 8, [⟨63, 0, .ro, 0⟩]⟩,
   ⟨"TIM_STEPS", 0x108, 1, 8, [⟨63, 0, .ro, 0⟩]⟩,
   ⟨"TIM_UNLOCK_TIME", 0x110, 1, 8, [⟨63, 0, .ro, 0⟩]⟩,
   ⟨"TIM_SYNC_TIMEOUTS", 0x118, 1, 8, [⟨63, 0, .ro, 0⟩]⟩]

/-- Registers of the block `mgtMod`. -/
def regs_mgtMod : List RegDef :=
  [⟨"MGT_ID", 0x0, 1, 8, [⟨15, 8, .ro, 1⟩, ⟨1, 0, .ro, 1⟩]⟩,
   ⟨"MGT_CTRL", 0x8, 1, 8, [⟨47, 32, .rw, 0x3e8⟩, ⟨31, 16, .rw, 0x64⟩, ⟨15, 0, .rw, 0x64⟩]⟩,
   ⟨"MGT_STATUS", 0x10, 1, 8, [⟨15, 8, .ro, 0⟩, ⟨3, 3, .ro, 0⟩, ⟨2, 2, .ro, 0⟩, ⟨1, 1, .ro, 0⟩, ⟨0, 0, .ro, 0⟩]⟩,
   ⟨"MGT_EVENT", 0x18, 1, 8, [⟨3, 3, .rw1c, 0⟩, ⟨2, 2, .rw1c, 0⟩, ⟨1, 1, .rw1c, 0⟩, ⟨0, 0, .rw1c, 0⟩]⟩,
   ⟨"MGT_MANAGER", 0x20, 2, 8, [⟨63, 0, .ro, 0⟩]⟩,
   ⟨"MGT_SENSOR", 0x80, 8, 8, [⟨63, 0, .ro, 0⟩]⟩,
   ⟨"MGT_RX", 0x100, 1, 8, [⟨63, 0, .ro, 0⟩]⟩,
   ⟨"MGT_TX", 0x108, 1, 8, [⟨63, 0, .ro, 0⟩]⟩,
   ⟨"MGT_DROPPED", 0x110, 1, 8, [⟨63, 0, .ro, 0⟩]⟩,
   ⟨"MGT_DENIED", 0x118, 1, 8, [⟨63, 0, .ro, 0⟩]⟩,
   ⟨"MGT_DUP_REPLIES", 0x120, 1, 8, [⟨63, 0, .ro, 0⟩]⟩,
   ⟨"MGT_ALERTS", 0x128, 1, 8, [⟨63, 0, .ro, 0⟩]⟩] ++
  [⟨"MGT_ALERTS_LOST", 0x130, 1, 8, [⟨63, 0, .ro, 0⟩]⟩]

/-- Registers of the block `trcMod`. -/
def regs_trcMod : List RegDef :=
  [⟨"TRC_CTRL", 0x0, 1, 8, [⟨63, 48, .rw, 0⟩, ⟨47, 40, .rw, 0x80⟩, ⟨16, 16, .rw, 0⟩, ⟨15, 0, .rw, 0x3fe⟩]⟩,
   ⟨"TRC_STATUS", 0x8, 1, 8, [⟨31, 16, .ro, 0⟩, ⟨0, 0, .ro, 0⟩]⟩,
   ⟨"TRC_SAMPLE", 0x80, 16, 8, [⟨31, 0, .rw, 0⟩]⟩,
   ⟨"TRC_RECORDS", 0x100, 1, 8, [⟨63, 0, .ro, 0⟩]⟩,
   ⟨"TRC_DROPPED", 0x108, 1, 8, [⟨63, 0, .ro, 0⟩]⟩]

/-- The registers of a block. -/
def blockRegs : RBlk → List RegDef
  | .hifMod => regs_hifMod
  | .cfgMod => regs_cfgMod
  | .topMod => regs_topMod
  | .seqMod => regs_seqMod
  | .seqCore => regs_seqCore
  | .seqCluster => regs_seqCluster
  | .engMod => regs_engMod
  | .engCore => regs_engCore
  | .vecMod => regs_vecMod
  | .strMod => regs_strMod
  | .vecCore => regs_vecCore
  | .strCore => regs_strCore
  | .topCluster => regs_topCluster
  | .topDie => regs_topDie
  | .govMod => regs_govMod
  | .govCluster => regs_govCluster
  | .urnCluster => regs_urnCluster
  | .urnMod => regs_urnMod
  | .infPort => regs_infPort
  | .infMod => regs_infMod
  | .samPort => regs_samPort
  | .samMod => regs_samMod
  | .sipPort => regs_sipPort
  | .sipMod => regs_sipMod
  | .lnkPort => regs_lnkPort
  | .lnkMod => regs_lnkMod
  | .memDie => regs_memDie
  | .memMod => regs_memMod
  | .scrDie => regs_scrDie
  | .scrMod => regs_scrMod
  | .ckpMod => regs_ckpMod
  | .secMod => regs_secMod
  | .ktlMod => regs_ktlMod
  | .timMod => regs_timMod
  | .mgtMod => regs_mgtMod
  | .trcMod => regs_trcMod

/-- The register of a block at an offset, if one is mapped there. -/
def findReg (b : RBlk) (off : Nat) : Option RegDef :=
  (blockRegs b).find? fun r =>
    decide (r.off ≤ off ∧ off < r.off + r.count * r.stride) && decide ((off - r.off) % r.stride = 0)

/-- The value a register's table gives it at reset. -/
def RegDef.resetWord (r : RegDef) : Word := mkWord (r.fields.map fun f => (f.reset, f.lo))

/-- The mask of the fields whose access type satisfies `p`. -/
def RegDef.maskOf (r : RegDef) (p : Acc → Bool) : Word :=
  mkWord ((r.fields.filter fun f => p f.acc).map fun f => (2 ^ (f.hi + 1 - f.lo) - 1, f.lo))

end Sys2Proof.Machine
end

