-- ==== Sys2Proof/Machine/RegNames.lean ====
section
/-! DEFINITION. The offset of every register within its block, by its name in the register tables (RegMap.lean). -/

namespace Sys2Proof.Machine.Reg

abbrev HIF_ID : Nat := 0x0
abbrev HIF_CTRL : Nat := 0x8
abbrev HIF_STATUS : Nat := 0x10
abbrev HIF_EVENT : Nat := 0x18
abbrev HIF_CMDQ : Nat := 0x100
abbrev HIF_MRD : Nat := 0x200
abbrev HIF_MWR : Nat := 0x208
abbrev HIF_CMDS : Nat := 0x210
abbrev HIF_EVTS_SENT : Nat := 0x218
abbrev HIF_EVTS_LOST : Nat := 0x220
abbrev HIF_TAG_DUP : Nat := 0x228
abbrev HIF_MALFORMED : Nat := 0x230
abbrev HIF_DISCARDED : Nat := 0x238
abbrev HIF_RETRAINS : Nat := 0x240
abbrev HIF_FLIT_RETRIES : Nat := 0x248
abbrev CFG_ID : Nat := 0x0
abbrev CFG_STATUS : Nat := 0x8
abbrev CFG_EVENT : Nat := 0x10
abbrev CFG_ERR : Nat := 0x18
abbrev CFG_CHECK : Nat := 0x20
abbrev CFG_SHAPE : Nat := 0x40
abbrev CFG_LOADS : Nat := 0x100
abbrev CFG_PARTIALS : Nat := 0x108
abbrev CFG_FALLBACKS : Nat := 0x110
abbrev CFG_REFUSED : Nat := 0x118
abbrev CFG_TAKEOVERS : Nat := 0x120
abbrev TOP_ID : Nat := 0x0
abbrev TOP_STATE : Nat := 0x8
abbrev TOP_EVENT : Nat := 0x10
abbrev TOP_TOPO : Nat := 0x18
abbrev TOP_SUMMARY : Nat := 0x20
abbrev TOP_COLD_TIME : Nat := 0x100
abbrev TOP_REGION_RESETS : Nat := 0x108
abbrev TOP_REGION_TIME_MAX : Nat := 0x110
abbrev TOP_CORES_FAILED : Nat := 0x118
abbrev TOP_BU_PAUSE : Nat := 0x120
abbrev TOP_CLUSTER : Nat := 0x1000
abbrev TOP_LANE_FUSE_RX : Nat := 0x2000
abbrev TOP_LANE_FUSE_TX : Nat := 0x2008
abbrev TOP_FAULT_CTRL : Nat := 0x4000
abbrev TOP_HEALTH : Nat := 0x4008
abbrev TOP_FAULT_EVENT : Nat := 0x4010
abbrev TOP_REGION_RELEASE : Nat := 0x4018
abbrev TOP_TAKEOVER : Nat := 0x4020
abbrev TOP_FAULT_LOG_HEAD : Nat := 0x4028
abbrev TOP_STEP_FAILS : Nat := 0x4100
abbrev TOP_MIGRATIONS : Nat := 0x4108
abbrev TOP_MIGRATION_FAILS : Nat := 0x4110
abbrev TOP_MIGRATE_MAX : Nat := 0x4118
abbrev TOP_ROLLBACKS : Nat := 0x4120
abbrev TOP_REFORMS : Nat := 0x4128
abbrev TOP_THERMAL_TRIPS : Nat := 0x4130
abbrev TOP_SELFTESTS : Nat := 0x4138
abbrev TOP_SELFTEST_FAILS : Nat := 0x4140
abbrev TOP_FAULT_LOG : Nat := 0x8000
abbrev SEQ_ID : Nat := 0x0
abbrev SEQ_CTRL : Nat := 0x8
abbrev SEQ_SUMMARY : Nat := 0x10
abbrev SEQ_EVENT : Nat := 0x18
abbrev SEQ_EXC : Nat := 0x20
abbrev SEQ_EXC_WORD_LO : Nat := 0x28
abbrev SEQ_EXC_WORD_HI : Nat := 0x30
abbrev SEQ_EXC_CORE : Nat := 0xe0
abbrev SEQ_INSTRS : Nat := 0x100
abbrev SEQ_ISSUE_STALL : Nat := 0x108
abbrev SEQ_WAIT_BEATS : Nat := 0x110
abbrev SEQ_VOTE_READS : Nat := 0x118
abbrev SEQ_VOTE_DISAGREE : Nat := 0x120
abbrev SEQ_SIGNALS_SENT : Nat := 0x128
abbrev SEQ_SIGNALS_REFUSED : Nat := 0x130
abbrev SEQ_EXC_LOST : Nat := 0x138
abbrev SEQ_STATUS : Nat := 0x10
abbrev SEQ_ENTRY : Nat := 0x38
abbrev SEQ_TOKEN : Nat := 0x40
abbrev SEQ_LC : Nat := 0xc0
abbrev SEQ_DESC : Nat := 0x2000
abbrev SEQ_CL_STATUS : Nat := 0x0
abbrev SEQ_CL_BATCH : Nat := 0x8
abbrev SEQ_CL_BARRIERS : Nat := 0x100
abbrev SEQ_CL_BARRIER_BEATS : Nat := 0x108
abbrev ENG_ID : Nat := 0x0
abbrev ENG_CTRL : Nat := 0x8
abbrev ENG_TAU : Nat := 0x10
abbrev ENG_STATUS : Nat := 0x18
abbrev ENG_EVENT : Nat := 0x20
abbrev ENG_FAIL_LOC : Nat := 0x28
abbrev ENG_FAIL_CORE : Nat := 0x30
abbrev ENG_SR_SEED : Nat := 0x40
abbrev ENG_PASSES : Nat := 0x100
abbrev ENG_TILE_CHECKS : Nat := 0x108
abbrev ENG_TILE_FAILS : Nat := 0x110
abbrev ENG_REPLAYS_PASSED : Nat := 0x118
abbrev ENG_REPLAYS_FAILED : Nat := 0x120
abbrev ENG_UNCHECKED : Nat := 0x128
abbrev ENG_SATURATED : Nat := 0x130
abbrev ENG_BUSY_BEATS : Nat := 0x138
abbrev ENG_STALL_OPERAND : Nat := 0x140
abbrev ENG_SR_COUNTER : Nat := 0x30
abbrev VEC_ID : Nat := 0x0
abbrev VEC_STATUS : Nat := 0x8
abbrev VEC_EVENT : Nat := 0x10
abbrev VEC_FAIL_LOC : Nat := 0x18
abbrev VEC_INSTRS : Nat := 0x100
abbrev VEC_CHECKED : Nat := 0x108
abbrev VEC_FAILS : Nat := 0x110
abbrev VEC_REPLAYS_PASSED : Nat := 0x118
abbrev VEC_REPLAYS_FAILED : Nat := 0x120
abbrev VEC_BUSY_BEATS : Nat := 0x128
abbrev VEC_STALL_BANK : Nat := 0x130
abbrev VEC_TS_READS : Nat := 0x200
abbrev VEC_TS_CORRECTED : Nat := 0x208
abbrev VEC_TS_DOUBLE : Nat := 0x210
abbrev VEC_TS_WRITEBACKS : Nat := 0x218
abbrev VEC_TS_DMA_WAIT : Nat := 0x220
abbrev VEC_WGB_ADDS : Nat := 0x300
abbrev VEC_WGB_READS : Nat := 0x308
abbrev VEC_WGB_CORRECTED : Nat := 0x310
abbrev VEC_WGB_DOUBLE : Nat := 0x318
abbrev STR_ID : Nat := 0x0
abbrev STR_STATUS : Nat := 0x8
abbrev STR_EVENT : Nat := 0x10
abbrev STR_META_ERR : Nat := 0x18
abbrev STR_CHUNKS : Nat := 0x100
abbrev STR_META_ERRS : Nat := 0x108
abbrev STR_SEGMENTS : Nat := 0x110
abbrev STR_BLOCKS : Nat := 0x118
abbrev STR_SHORT_SEGS : Nat := 0x120
abbrev STR_GATHER_WAIT : Nat := 0x128
abbrev STR_STALL_BANK : Nat := 0x130
abbrev STR_PRED_TILES : Nat := 0x138
abbrev STR_ACTIVE : Nat := 0x140
abbrev STR_SKIPPED : Nat := 0x148
abbrev STR_MISSES : Nat := 0x150
abbrev TOP_XBAR_CFG : Nat := 0x0
abbrev TOP_XBAR_STALL : Nat := 0x100
abbrev TOP_DIE_STATUS : Nat := 0x0
abbrev TOP_RTR_PORTS : Nat := 0x80000
abbrev TOP_HOT_LEVEL : Nat := 0x80008
abbrev TOP_RTR_ROUTE : Nat := 0x81000
abbrev TOP_RTR_MCAST : Nat := 0x82000
abbrev TOP_RTR_STALL : Nat := 0x84000
abbrev TOP_RTR_CRC_DATA : Nat := 0x84100
abbrev TOP_RTR_CRC_CTRL : Nat := 0x84108
abbrev TOP_RTR_CTRL_RESENDS : Nat := 0x84110
abbrev TOP_RTR_MCAST_SKIPS : Nat := 0x84118
abbrev TOP_RTR_MCAST_DROPS : Nat := 0x84120
abbrev GOV_ID : Nat := 0x0
abbrev GOV_CTRL : Nat := 0x8
abbrev GOV_STATUS : Nat := 0x10
abbrev GOV_EVENT : Nat := 0x18
abbrev GOV_REPORTS : Nat := 0x100
abbrev GOV_EXCH_REDUCTIONS : Nat := 0x108
abbrev GOV_EXCH_FAILS : Nat := 0x110
abbrev GOV_BOUNDARY_WAIT : Nat := 0x118
abbrev GOV_FORMAT_CHANGES : Nat := 0x120
abbrev GOV_LAYER : Nat := 0x8000
abbrev GOV_CL_STATUS : Nat := 0x0
abbrev GOV_CL_REPORTS : Nat := 0x100
abbrev GOV_CL_LAYER : Nat := 0x4000
abbrev URN_ID : Nat := 0x0
abbrev URN_LOG_BASE : Nat := 0x8
abbrev URN_LOG_LIMIT : Nat := 0x10
abbrev URN_STATUS : Nat := 0x18
abbrev URN_EVENT : Nat := 0x20
abbrev URN_SESSION : Nat := 0x28
abbrev URN_NEXT_ROW : Nat := 0x30
abbrev URN_TILES : Nat := 0x100
abbrev URN_HITS : Nat := 0x108
abbrev URN_SPILLS : Nat := 0x110
abbrev URN_LOG_READS : Nat := 0x118
abbrev URN_MERGED : Nat := 0x120
abbrev URN_DISCARDED : Nat := 0x128
abbrev URN_ADD_FAILS : Nat := 0x130
abbrev URN_PEAK : Nat := 0x138
abbrev URN_SUMMARY : Nat := 0x18
abbrev INF_ID : Nat := 0x0
abbrev INF_CTRL : Nat := 0x8
abbrev INF_STATUS : Nat := 0x10
abbrev INF_EVENT : Nat := 0x18
abbrev INF_PASSON : Nat := 0x30
abbrev INF_CACHE_BASE : Nat := 0x38
abbrev INF_CACHE_CHUNKS : Nat := 0x40
abbrev INF_SERVER : Nat := 0x48
abbrev INF_CHUNKS_DELIVERED : Nat := 0x200
abbrev INF_CHUNKS_HASHED : Nat := 0x208
abbrev INF_HASH_FAILS : Nat := 0x210
abbrev INF_INDEX_FAILS : Nat := 0x218
abbrev INF_REREQUESTS : Nat := 0x220
abbrev INF_TIMEOUTS : Nat := 0x228
abbrev INF_UNAVAILABLE : Nat := 0x230
abbrev INF_CACHE_HITS : Nat := 0x238
abbrev INF_CACHE_MISSES : Nat := 0x240
abbrev INF_PUSHES_SENT : Nat := 0x248
abbrev INF_PUSHES_USED : Nat := 0x250
abbrev INF_PUSH_DROPS : Nat := 0x258
abbrev INF_LATE_REPLIES : Nat := 0x260
abbrev INF_RING_WAIT : Nat := 0x268
abbrev INF_STAGE_WAIT : Nat := 0x270
abbrev INF_PUBLISHED : Nat := 0x278
abbrev INF_SUMMARY : Nat := 0x10
abbrev INF_VERSION : Nat := 0x20
abbrev INF_STAGE : Nat := 0x28
abbrev INF_ACTIVE_ROOT : Nat := 0x80
abbrev INF_STAGE_ROOT : Nat := 0xa0
abbrev INF_PUBKEY_HASH : Nat := 0x100
abbrev SAM_ID : Nat := 0x0
abbrev SAM_CTRL : Nat := 0x8
abbrev SAM_STATUS : Nat := 0x10
abbrev SAM_EVENT : Nat := 0x18
abbrev SAM_RETAIN_BASE : Nat := 0x20
abbrev SAM_RETAIN_LIMIT : Nat := 0x28
abbrev SAM_CONTRIB_SENT : Nat := 0x100
abbrev SAM_INPUTS : Nat := 0x108
abbrev SAM_PARTIALS_OUT : Nat := 0x110
abbrev SAM_OWNED_DONE : Nat := 0x118
abbrev SAM_RESIDUE_CHECKS : Nat := 0x120
abbrev SAM_RESIDUE_FAILS : Nat := 0x128
abbrev SAM_RESEND_RESIDUE : Nat := 0x130
abbrev SAM_RESEND_HALF : Nat := 0x138
abbrev SAM_SAT_KEPT : Nat := 0x140
abbrev SAM_CHECK_FAIL : Nat := 0x148
abbrev SAM_CTX_TIMEOUTS : Nat := 0x150
abbrev SAM_STALE : Nat := 0x158
abbrev SAM_DUPLICATES : Nat := 0x160
abbrev SAM_MISMATCH : Nat := 0x168
abbrev SAM_NONFINITE : Nat := 0x170
abbrev SAM_COUNT_MISMATCH : Nat := 0x178
abbrev SAM_CTX_WAIT : Nat := 0x180
abbrev SAM_RETAIN_WAIT : Nat := 0x188
abbrev SAM_GRP_CMD : Nat := 0x30
abbrev SAM_GROUP : Nat := 0x1000
abbrev SAM_SIPGROUP_STATE : Nat := 0x1800
abbrev SIP_ID : Nat := 0x0
abbrev SIP_CTRL : Nat := 0x8
abbrev SIP_STATUS : Nat := 0x10
abbrev SIP_EVENT : Nat := 0x18
abbrev SIP_OPS : Nat := 0x100
abbrev SIP_FLITS_UP : Nat := 0x108
abbrev SIP_FLITS_DOWN : Nat := 0x110
abbrev SIP_COMBINES : Nat := 0x118
abbrev SIP_COMBINE_FAILS : Nat := 0x120
abbrev SIP_STALE : Nat := 0x128
abbrev SIP_TIMEOUTS : Nat := 0x130
abbrev SIP_MAX_TRANSIT : Nat := 0x138
abbrev SIP_GROUP : Nat := 0x1000
abbrev LNK_ID : Nat := 0x0
abbrev LNK_CTRL : Nat := 0x8
abbrev LNK_STATUS : Nat := 0x10
abbrev LNK_EVENT : Nat := 0x18
abbrev LNK_PORT_CMD : Nat := 0x20
abbrev LNK_ROLE : Nat := 0x28
abbrev LNK_PARTNER : Nat := 0x30
abbrev LNK_LANES_RX : Nat := 0x38
abbrev LNK_LANES_TX : Nat := 0x40
abbrev LNK_TEST : Nat := 0x48
abbrev LNK_FLITS_TX : Nat := 0x100
abbrev LNK_FLITS_RX : Nat := 0x108
abbrev LNK_CRC_FAILS : Nat := 0x110
abbrev LNK_FEC_CORRECTED : Nat := 0x118
abbrev LNK_FEC_UNCORR : Nat := 0x120
abbrev LNK_REPLAYS : Nat := 0x128
abbrev LNK_RETRY_LIMIT : Nat := 0x130
abbrev LNK_RETRAINS : Nat := 0x138
abbrev LNK_LANE_SWAPS : Nat := 0x140
abbrev LNK_FOREIGN_JOB : Nat := 0x148
abbrev LNK_MALFORMED : Nat := 0x150
abbrev LNK_MISROUTED : Nat := 0x158
abbrev LNK_ROLE_DENIED : Nat := 0x160
abbrev LNK_LATE_REPLIES : Nat := 0x168
abbrev LNK_PARTNER_RESETS : Nat := 0x170
abbrev LNK_TAG_WAIT : Nat := 0x178
abbrev LNK_CREDIT_WAIT : Nat := 0x180
abbrev LNK_SIP_FLITS_RX : Nat := 0x188
abbrev LNK_SIP_CRC_FAILS : Nat := 0x190
abbrev LNK_SIP_NAKS : Nat := 0x198
abbrev LNK_LANE_SYMS : Nat := 0x400
abbrev LNK_PRBS_ERRS : Nat := 0x600
abbrev LNK_SUMMARY : Nat := 0x10
abbrev MEM_ID : Nat := 0x0
abbrev MEM_CTRL : Nat := 0x8
abbrev MEM_STATUS : Nat := 0x10
abbrev MEM_EVENT : Nat := 0x18
abbrev MEM_ERR_LOG_ADDR : Nat := 0x20
abbrev MEM_ERR_LOG_SYN : Nat := 0x28
abbrev MEM_FLIP_MASK : Nat := 0x30
abbrev MEM_READS : Nat := 0x100
abbrev MEM_WRITES : Nat := 0x108
abbrev MEM_CORRECTED : Nat := 0x110
abbrev MEM_ERASURE_CORR : Nat := 0x118
abbrev MEM_UNCORR : Nat := 0x120
abbrev MEM_CRIT_READS : Nat := 0x128
abbrev MEM_CRIT_DISAGREE : Nat := 0x130
abbrev MEM_CRIT_NOMAJ : Nat := 0x138
abbrev MEM_RMW : Nat := 0x140
abbrev MEM_UNPOP : Nat := 0x148
abbrev MEM_DIE_ERRS : Nat := 0x400
abbrev MEM_ROW_CAND : Nat := 0x800
abbrev MEM_SOFT_REPAIR : Nat := 0xc00
abbrev MEM_SUMMARY : Nat := 0x10
abbrev SCR_CTRL : Nat := 0x0
abbrev SCR_STATUS : Nat := 0x8
abbrev SCR_EVENT : Nat := 0x10
abbrev SCR_LAP : Nat := 0x18
abbrev SCR_ERR_LOG_ADDR : Nat := 0x20
abbrev SCR_ERR_LOG_SYN : Nat := 0x28
abbrev SCR_READS : Nat := 0x100
abbrev SCR_CORRECTED : Nat := 0x108
abbrev SCR_UNCORR : Nat := 0x110
abbrev SCR_CRIT_DISAGREE : Nat := 0x118
abbrev SCR_LAPS : Nat := 0x120
abbrev SCR_SUMMARY : Nat := 0x8
abbrev CKP_ID : Nat := 0x0
abbrev CKP_CTRL : Nat := 0x8
abbrev CKP_STATUS : Nat := 0x10
abbrev CKP_EVENT : Nat := 0x18
abbrev CKP_BUDDY_SEND : Nat := 0x20
abbrev CKP_BUDDY_HOLD : Nat := 0x28
abbrev CKP_HANDOVER : Nat := 0x30
abbrev CKP_PREEMPT : Nat := 0x38
abbrev CKP_HANDOVER_STEP : Nat := 0x40
abbrev CKP_WRITTEN : Nat := 0x100
abbrev CKP_REFS : Nat := 0x108
abbrev CKP_BYTES : Nat := 0x110
abbrev CKP_FAILS : Nat := 0x118
abbrev CKP_NVME_ERRS : Nat := 0x120
abbrev CKP_DMA_REFUSED : Nat := 0x128
abbrev CKP_BCOPY_SENT : Nat := 0x130
abbrev CKP_BCOPY_RECV : Nat := 0x138
abbrev CKP_CBO_WAIT : Nat := 0x140
abbrev CKP_HANDOVERS : Nat := 0x148
abbrev CKP_RESTORES : Nat := 0x150
abbrev CKP_LAST_TIME : Nat := 0x158
abbrev CKP_PREEMPT_IGNORED : Nat := 0x160
abbrev SEC_ID : Nat := 0x0
abbrev SEC_STATUS : Nat := 0x8
abbrev SEC_EVENT : Nat := 0x10
abbrev SEC_SEAL : Nat := 0x18
abbrev SEC_FW_CMD : Nat := 0x20
abbrev SEC_FW_STATUS : Nat := 0x28
abbrev SEC_OWNER : Nat := 0x40
abbrev SEC_IDENTITY : Nat := 0x60
abbrev SEC_SIGNATURES : Nat := 0x100
abbrev SEC_VERIFIES : Nat := 0x108
abbrev SEC_VERIFY_FAILS : Nat := 0x110
abbrev SEC_ATTESTS : Nat := 0x118
abbrev SEC_SIGN_QUEUE_MAX : Nat := 0x120
abbrev SEC_CERT_ID : Nat := 0x1000
abbrev SEC_CERT_MFG : Nat := 0x3000
abbrev KTL_ID : Nat := 0x0
abbrev KTL_CTRL : Nat := 0x8
abbrev KTL_STATUS : Nat := 0x10
abbrev KTL_EVENT : Nat := 0x18
abbrev KTL_INPUT : Nat := 0x20
abbrev KTL_COOLANT : Nat := 0x28
abbrev KTL_CAP_TIME : Nat := 0x100
abbrev KTL_THROTTLE_TIME : Nat := 0x108
abbrev KTL_TRIPS : Nat := 0x110
abbrev KTL_POWER_TRIPS : Nat := 0x118
abbrev KTL_FALLBACK_TIME : Nat := 0x120
abbrev KTL_WARM_TIME : Nat := 0x128
abbrev KTL_ENERGY : Nat := 0x130
abbrev KTL_DIE : Nat := 0x1000
abbrev TIM_CTRL : Nat := 0x0
abbrev TIM_STATUS : Nat := 0x8
abbrev TIM_NOW : Nat := 0x10
abbrev TIM_SYNCS : Nat := 0x100
abbrev TIM_STEPS : Nat := 0x108
abbrev TIM_UNLOCK_TIME : Nat := 0x110
abbrev TIM_SYNC_TIMEOUTS : Nat := 0x118
abbrev MGT_ID : Nat := 0x0
abbrev MGT_CTRL : Nat := 0x8
abbrev MGT_STATUS : Nat := 0x10
abbrev MGT_EVENT : Nat := 0x18
abbrev MGT_MANAGER : Nat := 0x20
abbrev MGT_SENSOR : Nat := 0x80
abbrev MGT_RX : Nat := 0x100
abbrev MGT_TX : Nat := 0x108
abbrev MGT_DROPPED : Nat := 0x110
abbrev MGT_DENIED : Nat := 0x118
abbrev MGT_DUP_REPLIES : Nat := 0x120
abbrev MGT_ALERTS : Nat := 0x128
abbrev MGT_ALERTS_LOST : Nat := 0x130
abbrev TRC_CTRL : Nat := 0x0
abbrev TRC_STATUS : Nat := 0x8
abbrev TRC_SAMPLE : Nat := 0x80
abbrev TRC_RECORDS : Nat := 0x100
abbrev TRC_DROPPED : Nat := 0x108

end Sys2Proof.Machine.Reg
end

