-- ==== Sys2Proof/Machine/Operands.lean ====
section
/-! DEFINITION. Operand forms: the instruction word (R133, R134), the opcode map (R142) with the bits each opcode uses, the
four descriptor kinds (R135 to R139), and the place of an element or scale of a tensor (R136, R66). -/

namespace Sys2Proof.Machine

/-- Fields of an instruction word (R133). -/
def iOpcode (w : BitVec 128) : Nat := fld w 7 0
def iDst (w : BitVec 128) : Nat := fld w 15 8
def iSrc0 (w : BitVec 128) : Nat := fld w 23 16
def iSrc1 (w : BitVec 128) : Nat := fld w 31 24
def iSrc2 (w : BitVec 128) : Nat := fld w 39 32
def iWait (w : BitVec 128) : Nat := fld w 43 40
def iWaitEn (w : BitVec 128) : Bool := flag w 44
def iSignal (w : BitVec 128) : Nat := fld w 48 45
def iSignalEn (w : BitVec 128) : Bool := flag w 49
def iRound (w : BitVec 128) : Nat := fld w 51 50
def iAcc (w : BitVec 128) : Bool := flag w 52
def iFunc (w : BitVec 128) : Nat := fld w 63 56
def iImm (w : BitVec 128) : Nat := fld w 95 64
def iCore (w : BitVec 128) : Nat := fld w 109 96

/-- The opcodes of R142. -/
inductive Op where
  | nop | end_ | jump | loop | setlc | dload | dset | wait | signal | barrier | drainu | batch | copy | copyh | wreq | wdone
  | publish | mm | mmw | mmrs | wgbrs | wgbclr | smm | smmt | sdwrs | urnmerge | pred | smmp | vop | vcvt | vfn | vred
  | softmax | norm | dfo | dsoftmax | adamw | sgdm | vrs | rxwait | sipred | chkrd
deriving DecidableEq, Repr, Inhabited

/-- The opcode map: value to opcode; every other value is reserved (R142). -/
def Op.ofCode : Nat → Option Op
  | 0x00 => some .nop | 0x01 => some .end_ | 0x02 => some .jump | 0x03 => some .loop | 0x04 => some .setlc
  | 0x05 => some .dload | 0x06 => some .dset | 0x08 => some .wait | 0x09 => some .signal | 0x0A => some .barrier
  | 0x0B => some .drainu | 0x0C => some .batch | 0x10 => some .copy | 0x11 => some .copyh | 0x14 => some .wreq
  | 0x15 => some .wdone | 0x16 => some .publish | 0x20 => some .mm | 0x21 => some .mmw | 0x22 => some .mmrs
  | 0x23 => some .wgbrs | 0x24 => some .wgbclr | 0x28 => some .smm | 0x29 => some .smmt | 0x2A => some .sdwrs
  | 0x2B => some .urnmerge | 0x2C => some .pred | 0x2D => some .smmp | 0x30 => some .vop | 0x31 => some .vcvt
  | 0x32 => some .vfn | 0x33 => some .vred | 0x34 => some .softmax | 0x35 => some .norm | 0x38 => some .dfo
  | 0x39 => some .dsoftmax | 0x3C => some .adamw | 0x3D => some .sgdm | 0x40 => some .vrs | 0x41 => some .rxwait
  | 0x48 => some .sipred | 0x50 => some .chkrd
  | _ => none

/-- The queue an opcode executes in: 0 engine, 1 vector, 2 DMA, 3 stream; none: the sequencer itself (R126). -/
def Op.queue : Op → Option Nat
  | .mm | .mmw | .mmrs | .wgbrs | .wgbclr | .smm | .smmt | .sdwrs | .urnmerge | .pred | .smmp => some 0
  | .vop | .vcvt | .vfn | .vred | .softmax | .norm | .dfo | .dsoftmax | .adamw | .sgdm | .vrs => some 1
  | .copy | .copyh => some 2
  | .wreq | .wdone | .publish | .rxwait | .sipred => some 3
  | _ => none

/-- Which fields an opcode uses: dst, src0, src1, src2, the bits of func, of imm and of core it reads, and whether acc and
round are allowed (R134 and the rule of each opcode). -/
structure Uses where
  dst : Bool := false
  src0 : Bool := false
  src1 : Bool := false
  src2 : Bool := false
  func : Nat := 0
  imm : Nat := 0
  core : Bool := false
  acc : Bool := false
  round : Bool := false
  sync : Bool := true
deriving DecidableEq, Repr

def Op.uses : Op → Uses
  | .nop => {}
  | .end_ => { sync := false }
  | .jump => { imm := 0x3FFF, sync := false }
  | .loop => { func := 3, imm := 0x3FFF, sync := false }
  | .setlc => { func := 3, imm := 0xFFFFFFFF }
  | .dload => { dst := true, src0 := true, imm := 0x1FF }
  | .dset => { dst := true, func := 0xFF, imm := 0xFFFFFFFF }
  | .wait => { func := 0xF, imm := 0xFFFF }
  | .signal => { func := 0xF, imm := 0xFF, core := true }
  | .barrier => { func := 0xFF, imm := 0xFFFF }
  | .drainu => { func := 0xF }
  | .batch => { imm := 0xFFFFFFFF }
  | .copy => { dst := true, src0 := true }
  | .copyh => { dst := true, src0 := true, imm := 0xFFFF }
  | .wreq => { src0 := true, imm := 0xF }
  | .wdone => { src0 := true, imm := 0xFFFF }
  | .publish => { src0 := true, func := 0x3F, imm := 0xFFFFFFFF }
  | .mm => { dst := true, src0 := true, src1 := true, imm := 0x7FF, acc := true, round := true }
  | .mmw => { src0 := true, src1 := true, imm := 0xFF07FF }
  | .mmrs => { dst := true, src0 := true, src1 := true, src2 := true, imm := 0x7FF, acc := true }
  | .wgbrs => { dst := true, func := 1, imm := 0x1FFFF }
  | .wgbclr => { imm := 0x1FFFF }
  | .smm | .smmt => { dst := true, src0 := true, src1 := true, func := 1, imm := 0xFFFFFFFF, acc := true }
  | .sdwrs => { dst := true, src0 := true, src1 := true, src2 := true, imm := 0xFFFFFFFF }
  | .urnmerge => { dst := true, imm := 0x7FFFFFFF }
  | .pred => { dst := true, src0 := true, src1 := true, src2 := true, imm := 0xFFFFFFFF }
  | .smmp => { dst := true, src0 := true, src1 := true, src2 := true, imm := 0xFFFFFFFF }
  | .vop => { dst := true, src0 := true, src1 := true, src2 := true, func := 0xFF, imm := 0xFFFFFFFF, acc := true,
              round := true }
  | .vcvt => { dst := true, src0 := true, round := true }
  | .vfn => { dst := true, src0 := true, func := 0xFF, imm := 0xFFFFFFFF, acc := true, round := true }
  | .vred => { dst := true, src0 := true, func := 0xFF, round := true }
  | .softmax => { dst := true, src0 := true, imm := 0xFFFFFFFF, round := true }
  | .norm => { dst := true, src0 := true, src1 := true, src2 := true, func := 0xFF, imm := 0xFFFFFFFF, round := true }
  | .dfo => { dst := true, src0 := true, src1 := true, func := 0xFF, imm := 0xFFFFFFFF, round := true }
  | .dsoftmax => { dst := true, src0 := true, src1 := true, round := true }
  | .adamw | .sgdm => { dst := true, src0 := true, src1 := true, src2 := true, imm := 0x1FF, round := true }
  | .vrs => { dst := true, src0 := true, func := 0xFF }
  | .rxwait => { dst := true, src0 := true, imm := 0xFFFFFFFF }
  | .sipred => { dst := true, src0 := true, func := 0xFF, imm := 0xFFFFFFFF }
  | .chkrd => { dst := true, func := 0xFF }

/-- The fields an instruction word uses: those of its opcode, less those that its func, acc or imm[8] leaves unused (R134,
R154, R157 to R161). -/
def usesOf (op : Op) (w : BitVec 128) : Uses :=
  let u := op.uses
  match op with
  | .vop => { u with
      src1 := decide (iFunc w ≠ 6 ∧ iFunc w ≠ 8), src2 := decide (iFunc w = 3)
      imm := if iFunc w = 6 ∨ iFunc w = 7 then u.imm else 0 }
  | .vfn => { u with imm := if iFunc w = 1 then u.imm else 0 }
  | .norm => { u with src2 := decide (iFunc w = 1) }
  | .dfo => { u with imm := if iFunc w = 1 then u.imm else 0 }
  | .mmrs => { u with src2 := iAcc w }
  | .dset => { u with imm := if iFunc w = 5 then 0xFFFF else u.imm }
  | .adamw | .sgdm => { u with imm := if flag w 72 then 0x1FF else 0x100 }
  | _ => u

/-- Every unused field and bit of the word holds 0, and round is no reserved value (R134, R133). -/
def wordClean (u : Uses) (w : BitVec 128) : Bool :=
  decide (fld w 127 110 = 0) && decide (fld w 109 108 = 0) && decide (fld w 55 53 = 0) &&
  (u.core || decide (iCore w = 0)) &&
  decide (iImm w &&& (0xFFFFFFFF ^^^ u.imm) = 0) &&
  decide (iFunc w &&& (0xFF ^^^ u.func) = 0) &&
  (u.acc || !iAcc w) &&
  (if u.round then decide (iRound w ≤ 1) else decide (iRound w = 0)) &&
  (u.sync || (!iSignalEn w && !iWaitEn w && decide (iSignal w = 0) && decide (iWait w = 0))) &&
  (u.dst || decide (iDst w = 0)) && (u.src0 || decide (iSrc0 w = 0)) && (u.src1 || decide (iSrc1 w = 0)) &&
  (u.src2 || decide (iSrc2 w = 0))

/-! Descriptors. A raw entry is 32 bytes, byte 0 in the lowest bits. -/

/-- Bits [hi:lo] of the field at byte offset `o` of an entry. -/
def dfld (d : BitVec 256) (o hi lo : Nat) : Nat := fld d (8 * o + hi) (8 * o + lo)

/-- The entry with bits [hi:lo] of the field at byte offset `o` replaced. -/
def dset (d : BitVec 256) (o hi lo v : Nat) : BitVec 256 := setFld d (8 * o + hi) (8 * o + lo) v

/-- The kind of an entry: 0 TENSOR, 1 SHARD, 2 SPARSE, 3 STREAM (R135). -/
def dKind (d : BitVec 256) : Nat := dfld d 0x18 5 4

/-- A TENSOR (R136), its format resolved: the governor's choice where gov_format is 1 (R141). -/
structure Tensor where
  base : Nat
  notifyCore : Nat
  notifyEn : Bool
  notifyTok : Nat
  scaleBase : Nat
  rows : Nat
  cols : Nat
  fmt : Fmt
  colMajor : Bool
  blockDir1 : Bool
  layer : Nat
  pitch : Nat
deriving DecidableEq, Repr, Inhabited

/-- A SHARD (R137). -/
structure Shard where
  chunkBase : Nat
  sliceChunks : Nat
  group : Nat
  rows : Nat
  cols : Nat
  fmt : Fmt
  layer : Nat
deriving DecidableEq, Repr, Inhabited

/-- A SPARSE (R138). -/
structure Sparse where
  base : Nat
  metaBase : Nat
  rows : Nat
  cols : Nat
  fmt : Fmt
  colForm : Bool
  layer : Nat
  nblocks : Nat
deriving DecidableEq, Repr, Inhabited

/-- A STREAM (R139). -/
structure Stream where
  chunkFirst : Nat
  chunkCount : Nat
  destSlot : Nat
  ringSlots : Nat
  tree : Nat
  tier : Nat
  port : Nat
  lead : Nat
  rows : Nat
  cols : Nat
  layer : Nat
  fmt : Fmt
  colForm : Bool
deriving DecidableEq, Repr, Inhabited

/-- The bytes common to every kind are well formed; `gov` is the governor's choice for the entry's layer, where it has one
(R135, R141). -/
def dFormat (gov : Nat → Option Fmt) (d : BitVec 256) : Option Fmt :=
  if dfld d 0x19 7 1 ≠ 0 then none
  else if dfld d 0x19 0 0 = 1 then
    (if dfld d 0x18 3 0 ≠ 0 then none else gov (dfld d 0x1A 15 0))
  else Fmt.ofCode (dfld d 0x18 3 0)

/-- Bytes of one row or column along the contiguous dimension, a last block stored whole (R136). -/
def lineBytes (f : Fmt) (blocked : Bool) (n : Nat) : Nat :=
  let n := if blocked && f.isMx then alignUp n 32 else n
  (n * f.bits + 7) / 8

/-- A TENSOR entry, if it is well formed. A block_dir of 1 where gov_format gives a format without blocks, and a scale_base of a format
without scales, are accepted and mean nothing (DESIGN CHOICE, log entry 93). -/
def parseTensor (gov : Nat → Option Fmt) (d : BitVec 256) : Option Tensor :=
  match dFormat gov d with
  | none => none
  | some f =>
    let rows := dfld d 0x10 31 0
    let cols := dfld d 0x14 31 0
    let cm := dfld d 0x18 6 6 = 1
    let bd := dfld d 0x18 7 7 = 1
    if dKind d ≠ 0 || decide (dfld d 0 62 61 ≠ 0) || decide (dfld d 8 63 53 ≠ 0) || decide (dfld d 0x1C 31 24 ≠ 0) ||
       decide (rows = 0) || decide (cols = 0) || (bd && !f.isMx && decide (dfld d 0x19 0 0 = 0)) ||
       decide (f = .gw32 ∨ f = .gw48 ∨ f = .gs1) then none
    else
      let p := dfld d 0x1C 23 0
      some { base := dfld d 0 48 0, notifyCore := dfld d 0 60 49, notifyEn := dfld d 0 63 63 = 1
             notifyTok := dfld d 8 52 49, scaleBase := dfld d 8 48 0, rows := rows, cols := cols, fmt := f
             colMajor := cm, blockDir1 := bd && f.isMx, layer := dfld d 0x1A 15 0
             pitch := if p = 0 then alignUp (lineBytes f (cm == bd) (if cm then rows else cols)) 64 else p * 64 }

/-- A SHARD entry, if it is well formed. -/
def parseShard (d : BitVec 256) : Option Shard :=
  match Fmt.ofCode (dfld d 0x18 3 0) with
  | none => none
  | some f =>
    if dKind d ≠ 1 || decide (dfld d 8 63 8 ≠ 0) || decide (dfld d 0x1C 31 0 ≠ 0) || decide (dfld d 0x18 7 6 ≠ 0) ||
       decide (dfld d 0x19 7 0 ≠ 0) || decide (dfld d 4 31 0 = 0) ||
       !decide (f = .gw32 ∨ f = .gw48 ∨ f = .gs1) then none
    else some { chunkBase := dfld d 0 31 0, sliceChunks := dfld d 4 31 0, group := dfld d 8 7 0, rows := dfld d 0x10 31 0
                cols := dfld d 0x14 31 0, fmt := f, layer := dfld d 0x1A 15 0 }

/-- A SPARSE entry, if it is well formed: its format is a weight format, 0x1 to 0x8 (R138, R218). -/
def parseSparse (gov : Nat → Option Fmt) (d : BitVec 256) : Option Sparse :=
  match dFormat gov d with
  | none => none
  | some f =>
    let rows := dfld d 0x10 31 0
    let cols := dfld d 0x14 31 0
    if dKind d ≠ 2 || decide (dfld d 0 63 49 ≠ 0) || decide (dfld d 8 63 49 ≠ 0) || decide (dfld d 0x1C 31 24 ≠ 0) ||
       decide (rows % 32 ≠ 0) || decide (cols % 32 ≠ 0) ||
       decide (dfld d 0x18 7 7 ≠ 0) || !decide (1 ≤ f.code ∧ f.code ≤ 8) then none
    else some { base := dfld d 0 48 0, metaBase := dfld d 8 48 0, rows := rows, cols := cols, fmt := f
                colForm := dfld d 0x18 6 6 = 1, layer := dfld d 0x1A 15 0, nblocks := dfld d 0x1C 23 0 }

/-- A STREAM entry, if it is well formed. -/
def parseStream (gov : Nat → Option Fmt) (d : BitVec 256) : Option Stream :=
  match dFormat gov d with
  | none => none
  | some f =>
    let dest := dfld d 8 6 0
    let ring := dfld d 9 7 0
    if dKind d ≠ 3 || decide (dfld d 8 7 7 ≠ 0) || decide (dfld d 0xB 7 4 ≠ 0) || decide (dfld d 0xE 15 0 ≠ 0) ||
       decide (dfld d 0x1C 31 0 ≠ 0) || decide (dfld d 0xA 7 6 = 3) || decide (dfld d 4 31 0 = 0) || decide (ring = 0) ||
       decide (ring > 128) || decide (dest + ring > 128) ||
       (decide (dfld d 0x18 7 7 = 1) && !f.isMx && decide (dfld d 0x19 0 0 = 0)) then none
    else some { chunkFirst := dfld d 0 31 0, chunkCount := dfld d 4 31 0, destSlot := dest, ringSlots := ring
                tree := dfld d 0xA 5 0, tier := dfld d 0xA 7 6, port := dfld d 0xB 3 0, lead := dfld d 0xC 15 0
                rows := dfld d 0x10 31 0, cols := dfld d 0x14 31 0, layer := dfld d 0x1A 15 0, fmt := f
                colForm := dfld d 0x18 6 6 = 1 }

/-! Where the elements and scales of a tensor lie. -/

/-- Bytes of the tensor's elements, from base: whole blocks included (R136). -/
def Tensor.extent (t : Tensor) : Nat :=
  let lines := if t.colMajor then t.cols else t.rows
  let n := if t.colMajor then t.rows else t.cols
  let along := t.colMajor == t.blockDir1
  let lines := if t.fmt.isMx && !along then alignUp lines 32 else lines
  (lines - 1) * t.pitch + lineBytes t.fmt along n

/-- Scale bytes of an MX tensor. -/
def Tensor.scaleCount (t : Tensor) : Nat :=
  if !t.fmt.isMx then 0
  else if t.blockDir1 then t.cols * ((t.rows + 31) / 32) else t.rows * ((t.cols + 31) / 32)

/-- The bit offset of element (r, c) from base (R136, R66). -/
def Tensor.bitOff (t : Tensor) (r c : Nat) : Nat :=
  if t.colMajor then c * t.pitch * 8 + r * t.fmt.bits else r * t.pitch * 8 + c * t.fmt.bits

/-- The address of the scale of the block holding element (r, c). -/
def Tensor.scaleAddr (t : Tensor) (r c : Nat) : Nat :=
  if t.blockDir1 then t.scaleBase + c * ((t.rows + 31) / 32) + r / 32
  else t.scaleBase + r * ((t.cols + 31) / 32) + c / 32

/-- Elements of a tensor. -/
def Tensor.count (t : Tensor) : Nat := t.rows * t.cols

/-- Tiles of an M × N output, in row-major tile order (R152). -/
def tilesOf (m n : Nat) : Nat := ((m + 31) / 32) * ((n + 31) / 32)

end Sys2Proof.Machine
end

