-- ==== Sys2Proof/Machine/Store.lean ====
section
/-! DEFINITION. The operations of a table in canonical form: keys strictly rising, no entry equal to what an unlisted
key reads as. Every table of the state (memory, registers, tile stores) is read and written through these. -/

namespace Sys2Proof.Machine

/-- The value at key `n`; an unlisted key reads as `d`. -/
def Smap.get {β : Type} (d : β) : Smap β → Nat → β
  | [], _ => d
  | (k, v) :: m, n => if n = k then v else Smap.get d m n

/-- The entry at key `n`, if one is listed. -/
def Smap.get? {β : Type} : Smap β → Nat → Option β
  | [], _ => none
  | (k, v) :: m, n => if n = k then some v else Smap.get? m n

/-- List `v` at key `n`, in place of what was listed there. -/
def Smap.put {β : Type} : Smap β → Nat → β → Smap β
  | [], n, v => [(n, v)]
  | (k, w) :: m, n, v =>
    if n < k then (n, v) :: (k, w) :: m
    else if n = k then (n, v) :: m
    else (k, w) :: Smap.put m n v

/-- List nothing at key `n`. -/
def Smap.del {β : Type} : Smap β → Nat → Smap β
  | [], _ => []
  | (k, w) :: m, n => if n = k then Smap.del m n else (k, w) :: Smap.del m n

/-- Make key `n` read as `v`, where an unlisted key reads as `d`: writing `d` removes the entry. The list is
matched first, so that a write on an unknown state does not unfold the value written. -/
def Smap.set {β : Type} [DecidableEq β] (d : β) (m : Smap β) (n : Nat) (v : β) : Smap β :=
  match m with
  | [] => if v = d then [] else [(n, v)]
  | e :: m => if v = d then Smap.del (e :: m) n else Smap.put (e :: m) n v

/-- Keep the entries whose key and value satisfy `p`. -/
def Smap.keep {β : Type} (p : Nat → β → Bool) (m : Smap β) : Smap β :=
  m.filter fun e => p e.1 e.2

/-- The keys rise strictly. -/
def Smap.sorted {β : Type} (m : Smap β) : Bool :=
  decide (m.Pairwise fun a b => a.1 < b.1)

/-- Canonical form, where an unlisted key reads as `d k`. -/
def Smap.wf {β : Type} [DecidableEq β] (d : Nat → β) (m : Smap β) : Bool :=
  Smap.sorted m && m.all fun e => !decide (e.2 = d e.1)

end Sys2Proof.Machine
end

