-- ==== Sys2Proof/Machine/State.lean ====
section
/-! DEFINITION. The state of the module, as plain data: every register, memory, queue, counter, mode and pin the spec names,
the queue of waiting commands, and the module's state right after reset. -/

namespace Sys2Proof.Machine

/-- Why a command stops the model for good. No meaning of this model ends in a fault: the constructor stands for an access
to an address outside the module address space that an internal operation would make; nothing raises it. Safe. -/
inductive Fault where
  /-- An internal access outside the module address space. Raised by nothing; safe. -/
  | outsideAddressSpace (addr : Nat)
deriving DecidableEq, Repr

/-- Why a command has no meaning here. -/
inductive Refusal where
  /-- The command of this mnemonic has no meaning in the model yet. Raised only by the arms of `exec`; safe. -/
  | notModelled (mnemonic : String)
deriving DecidableEq, Repr

/-! ## Cores -/

/-- The state of a sequencer (R176); a fenced core is marked apart. -/
inductive SeqSt where
  | idle | ready | running | waiting | ended | draining | drained | exception
deriving DecidableEq, Repr, Inhabited

/-- What holds issue (R127, R131): nothing, a token count, a barrier or DRAINU. -/
inductive Waits where
  | none
  | token (t : Nat)
  | barrier
  | drainu
  | genArea
deriving DecidableEq, Repr, Inhabited

/-- The pass that is in the engine's other bank while an earlier one is replayed (R82, R84): none, one whose check is due, one
that has passed and whose tile is held, or one that failed and is replayed in its turn. -/
inductive Ahead where
  | none
  | due
  | passed (tile : List FVal)
  | failed
deriving DecidableEq, Repr, Inhabited

/-- An instruction issued to a queue and not completed (R126, R127): its word, index and number, the copies of the
descriptor entries it took at issue (dst, src0, src1, src2, the streaming copy's), and its progress. -/
structure QEntry where
  word : BitVec 128
  pc : Nat
  seq : Nat
  d : List (BitVec 256)
  item : Nat               -- work items done: tile passes, 256-element groups, slots, chunks
  acc : List FVal          -- the open chain's running total, or the vector results
  status : Status          -- the first non-OK status met
  replaying : Bool         -- the current item failed its check once and is being replayed
  fr : Nat                 -- the first free value this instruction uses
  aux : Nat                -- progress of a DMA or stream instruction
  data : List Byte         -- bytes held by it: an intermediate of PRED, a chunk to publish
  ahead : Ahead            -- engine queue: the pass in the other bank
deriving DecidableEq, Repr, Inhabited

/-- One core: its sequencer (R124), its queues, its wide gradient buffer, and what the checks keep per core. -/
structure Core where
  hasProg : Bool
  prog : List (BitVec 128)
  image : Smap (BitVec 256)
  work : Smap (BitVec 256)
  initTok : List Nat
  tok : List Nat
  lc : List Nat
  pc : Nat
  entry : Nat
  evaluation : Bool
  st : SeqSt
  waits : Waits
  fenced : Bool
  testFailed : Bool        -- failed a test in this power cycle: only cold bring-up lifts the fence (R463)
  passedTest : Bool        -- passed its last test (R480)
  powered : Bool
  queues : List (List QEntry)
  wgb : Smap FVal          -- slot x 1024 + element
  srCounter : Nat
  recovered : Nat          -- recovered tile and vector failures in the step (R40)
  amax : FVal              -- the last converted tile (R168)
  zeros : Nat
  excValid : Bool          -- an exception is recorded in this step (R178)
  batches : List Nat       -- batch numbers executed in the step (R148)
  checks : List Nat        -- check events of this core (R168): tiles and vector instructions checked, failed, recovered; words failed
  latch : List Nat         -- those at the last cut (R168)
  writeback : List Nat     -- corrected words to be written back (R94), by number within the store
  xfer : Nat               -- number of its next DMA transfer (R106)
  ending : Bool            -- END has executed in this step
  noMigrate : Bool         -- the fence forbids a migration (R487)
  fencedAt : Nat           -- timebase at the fence
  movedTo : Option Nat     -- the spare that took the fenced core's place (R489)
  ringHeld : List (Nat × Nat × Nat × Nat)  -- ring slots not released: port, first slot, the WREQ's core and number (R151)
deriving DecidableEq, Repr, Inhabited

/-- A core without a program, unpowered. -/
def Core.blank : Core :=
  { hasProg := false, prog := [], image := [], work := [], initTok := List.replicate 16 0, tok := List.replicate 16 0
    lc := List.replicate 4 0, pc := 0, entry := 0, evaluation := false, st := .idle, waits := .none, fenced := false
    testFailed := false, passedTest := false, powered := false, queues := [[], [], [], []], wgb := [], srCounter := 0
    recovered := 0, amax := fzero, zeros := 0, excValid := false, batches := [], checks := [], latch := [], xfer := 0
    writeback := [], ending := false, noMigrate := false, fencedAt := 0, movedTo := none, ringHeld := [] }

/-- A signal or notification on its way to a core (R146, R130). `instr` names the SIGNAL that waits for it: its word, index
and number; none for a notification. -/
structure Sig where
  src : Nat
  target : Nat
  tok : Nat
  count : Nat
  instr : Option (BitVec 128 × Nat × Nat)
deriving DecidableEq, Repr, Inhabited

/-! ## Clusters, dies, regions -/

/-- One entry of an Urn (R232). -/
structure UrnEntry where
  row : Nat
  line : Nat
  age : Nat
  vals : List (BitVec 32)
deriving DecidableEq, Repr, Inhabited

/-- The Urn of a cluster (R232 to R238). -/
structure Urn where
  entries : Smap UrnEntry  -- by entry number
  isOpen : Bool
  layer : Nat
  width : Nat
  misses : Nat
  logUsed : Nat
  nextRow : Nat
  failed : Bool
  fenced : Bool
deriving DecidableEq, Repr, Inhabited

/-- What a cluster governor has accumulated for a layer in the step (R192, R193). -/
structure GovAcc where
  gexp : Nat
  wexp : Nat
  nonzero : Nat
  underE4m3 : Nat
  underE5m2 : Nat
deriving DecidableEq, Repr, Inhabited

def GovAcc.zero : GovAcc := { gexp := 0, wexp := 0, nonzero := 0, underE4m3 := 0, underE5m2 := 0 }

/-- One cluster: Urn, sequencer (R180), governor. Masks are over cores 0 to 11 and bit 12, the borrowed core. -/
structure Cluster where
  urn : Urn
  barOpen : Bool
  barId : Nat
  barArrived : Nat
  endedMask : Nat
  batchReps : List Nat     -- batch ends the cluster has reported in this step, newest last (R148)
  batchDecl : List Nat     -- batch numbers whose boundary the module controller has declared in this step
  batchNo : Nat            -- last batch number reported
  gov : Smap GovAcc
  held : List Sig          -- signals for fenced cores that await a takeover (R489)
  ready : Bool
deriving DecidableEq, Repr, Inhabited

def Urn.blank : Urn :=
  { entries := [], isOpen := false, layer := 0, width := 0, misses := 0, logUsed := 0, nextRow := 0, failed := false
    fenced := false }

def Cluster.blank : Cluster :=
  { urn := Urn.blank, barOpen := false, barId := 0, barArrived := 0, endedMask := 0, batchReps := [], batchDecl := [], batchNo := 0
    gov := [], held := [], ready := false }

/-- One die: bring-up phase, rails (bit 4 router to 7 core, R481), router and mesh links. -/
structure Die where
  phase : Nat
  rails : Nat
  routerOk : Bool
  edgeReady : Bool
  fenced : Bool
  tripped : Bool
  throttled : Bool
  limit : Nat              -- thermal limit on the core voltage, in mV; 800 is no limit
  hot : Nat                -- samples at or above t_throttle since the limit last fell
  cool : Nat               -- samples 3 degrees below it since the limit last rose
  linkFails : Smap Nat     -- consecutive failed control resends, by port (R112)
deriving DecidableEq, Repr, Inhabited

/-- A die without power. -/
def Die.off : Die :=
  { phase := 0, rails := 0, routerOk := false, edgeReady := false, fenced := false, tripped := false, throttled := false
    limit := 800, hot := 0, cool := 0, linkFails := [] }

/-- One region (R26, R491, R494): drain, reset and trip, and its open barrier. -/
structure Region where
  draining : Bool
  drained : Bool
  released : Bool
  resetting : Bool
  resetAt : Nat            -- timebase when the reset began
  tripped : Bool
  barOpen : Bool
  barId : Nat
  barArrived : List Nat
deriving DecidableEq, Repr, Inhabited

def Region.blank : Region :=
  { draining := false, drained := false, released := false, resetting := false, resetAt := 0, tripped := false
    barOpen := false, barId := 0, barArrived := [] }

/-- A migration under way: the fenced core's state lies in the spare, which has not taken it up (R486, R488). -/
structure Takeover where
  core : Nat
  spare : Nat
deriving DecidableEq, Repr, Inhabited

/-! ## Memory -/

/-- A critical word (R382): its value, and the bits flipped in each of its three (72,64) copies. Bits 63 to 0 of a pattern
are data bits. -/
structure CritWord where
  val : Word
  errs : List (BitVec 72)
deriving DecidableEq, Repr, Inhabited

def CritWord.zero : CritWord := { val := 0, errs := [0, 0, 0] }

/-- A row candidate (R389, R399). -/
structure RowCand where
  marked : Bool
  count : Nat
  row : Nat
  bank : Nat
  channel : Nat
  stored : Bool            -- written to module flash
deriving DecidableEq, Repr, Inhabited

/-- One stack: its controller and scrubber (R379, R386 to R390). -/
structure Stack where
  ready : Bool
  failed : Bool
  erased : Option Nat
  cands : List RowCand
  scrubPos : Nat
  scrubCrit : Bool
  lapSlow : Bool
  lapNs : Nat              -- ns of the lap in progress
deriving DecidableEq, Repr, Inhabited

def Stack.blank : Stack :=
  { ready := false, failed := false, erased := none, cands := [], scrubPos := 0, scrubCrit := false, lapSlow := false
    lapNs := 0 }

/-! ## Host interface -/

/-- A command in a queue (R412). `prog` is the progress of a command that runs over several steps. -/
structure Cmd where
  code : Nat
  tag : Nat
  body : List Byte
  prog : Nat
  data : List Nat
deriving DecidableEq, Repr, Inhabited

/-- A command queue (R412, R425). -/
structure CmdQ where
  running : Option Cmd
  waiting : List Cmd
  lastTag : Nat
  lastStatus : Status
  lastCode : Nat
deriving DecidableEq, Repr, Inhabited

def CmdQ.blank : CmdQ := { running := none, waiting := [], lastTag := 0, lastStatus := .ok, lastCode := 0 }

/-- An event in the buffer (R415). It takes its number when it is first sent; 0 until then (DEDUCED, log entry 47). -/
structure Evt where
  seq : Nat
  code : Nat
  payload : List Byte
deriving DecidableEq, Repr, Inhabited

/-- The host interface (R403 to R419). -/
structure HostIf where
  linkUp : Bool
  trained : Bool           -- the link has trained since cold bring-up
  ready : Bool
  tags : List Nat
  stale : List Nat         -- tags outstanding when the link went down: their CPLs are discarded
  queues : List CmdQ
  buf : List Evt
  nextSeq : Nat
  acked : Nat
  lost : Nat               -- events lost since the last OVERFLOW
  discarded : Nat          -- tags lost to the host by the link loss
deriving DecidableEq, Repr, Inhabited

def HostIf.blank : HostIf :=
  { linkUp := false, trained := false, ready := false, tags := [], stale := [], queues := List.replicate 16 CmdQ.blank, buf := []
    nextSeq := 1, acked := 0, lost := 0, discarded := 0 }

/-! ## The loaded Blend -/

/-- One cluster entry of TOPOLOGY (R433). -/
structure TopoEntry where
  cluster : Nat
  active : Nat
  spare : Nat
  borrow : Bool
  lender : Nat             -- lender cluster within the die
  core : Nat               -- core value borrowed
deriving DecidableEq, Repr, Inhabited

/-- One port entry of PORTS (R438). -/
structure PortCfg where
  role : Nat
  expRole : Nat
  expPort : Nat
  expRank : Nat
  passon : Nat
  servers : List Nat       -- images of INF_SERVER[0-3]
deriving DecidableEq, Repr, Inhabited

/-- A port the factory default leaves unused (R452). -/
def PortCfg.unused : PortCfg := { role := 0, expRole := 0, expPort := 0, expRank := 0, passon := 0, servers := [0, 0, 0, 0] }

/-- A member of a reduction group (R439). -/
structure Member where
  rank : Nat
  board : Nat
  position : Nat
deriving DecidableEq, Repr, Inhabited

/-- One entry of GROUPS (R439). -/
structure GroupCfg where
  group : Nat
  epoch : Nat
  formats : Nat
  uplinks : List Nat
  gatherer : Nat
  job : Nat
  members : List Member
deriving DecidableEq, Repr, Inhabited

/-- One entry of SIP_GROUPS (R440). -/
structure SipGroupCfg where
  group : Nat
  epoch : Nat
  upPort : Nat
  root : Bool
  downMask : Nat
  modules : Nat
deriving DecidableEq, Repr, Inhabited

/-- BUDDY (R441). -/
structure BuddyCfg where
  sendRank : Nat
  holdRank : Nat
  sendPort : Nat
  holdPort : Nat
  hasSend : Bool
  hasHold : Bool
  writer : Bool
  replicaGroup : Nat
deriving DecidableEq, Repr, Inhabited

/-- A module without a buddy. -/
def BuddyCfg.absent : BuddyCfg :=
  { sendRank := 0, holdRank := 0, sendPort := 0, holdPort := 0, hasSend := false, hasHold := false, writer := false
    replicaGroup := 0 }

/-- One area of MEMORY (R442). -/
structure Area where
  kind : Nat
  inst : Nat
  base : Nat
  size : Nat
deriving DecidableEq, Repr, Inhabited

/-- POWER (R444). -/
structure PowerCfg where
  liquid : Bool
  keepWarm : Nat
  cap : Nat
  vMin : Nat
  vMax : Nat
deriving DecidableEq, Repr, Inhabited

/-- One layer of STAGES (R435). -/
structure StageCfg where
  resident : Bool
  pinned : Bool
  initFormat : Nat
  savedFormat : Nat
  initScale : Nat
  region : Nat
deriving DecidableEq, Repr, Inhabited

/-- The loaded Blend, section by section. `store`: the kept PROGRAM payloads of BLEND_STORE (R442), by core. -/
structure Blend where
  topoHead : List Byte
  topo : List TopoEntry
  regions : List (Nat × Nat)       -- region and its cluster mask
  stages : List StageCfg
  ports : List PortCfg
  keyHashes : List (List Byte)
  groups : List GroupCfg
  sipGroups : List SipGroupCfg
  buddy : BuddyCfg
  areas : List Area
  power : PowerCfg
  calib : List (Nat × Nat × Int)
  routes : List (Nat × List Byte)  -- ROUTES payload of each die named
  store : Smap (List Byte)
deriving DecidableEq, Repr, Inhabited

/-- Before any Blend is applied. -/
def Blend.none : Blend :=
  { topoHead := [], topo := [], regions := [], stages := [], ports := List.replicate 16 PortCfg.unused, keyHashes := []
    groups := [], sipGroups := [], buddy := BuddyCfg.absent, areas := []
    power := { liquid := false, keepWarm := 0, cap := 5000, vMin := 550, vMax := 800 }, calib := [], routes := []
    store := [] }

/-- The job a Blend serves (R433); 0 for none. -/
def Blend.job (b : Blend) : Nat := leAt b.topoHead 0 2

/-- The module's rank in it. -/
def Blend.rank (b : Blend) : Nat := leAt b.topoHead 2 2

/-- The stacks that must be ready for a job to open. -/
def Blend.stackMask (b : Blend) : Nat := leAt b.topoHead 8 8

/-! ## Job, step and cupping record -/

/-- Where the module stands between two steps (R206): no step yet, a step running, the step closed and the next not
started, or the step ended FAILED or ABANDONED and orders awaited (R496). -/
inductive StepSt where
  | none | running | boundary | stopped
deriving DecidableEq, Repr, Inhabited

/-- The job and its step. The step counter and the chain state are critical words (R382) to which the spec gives no
address; they are held here. -/
structure Job where
  isOpen : Bool
  id : Nat
  step : Nat
  st : StepSt
  seed : List Byte
  key0 : Word
  key1 : Word
  data : List (Nat × Nat)          -- STEP_DATA held: step and position
  dataPos : Nat
  closing : Bool
  fencedJob : Bool                 -- the job is fenced: no further step
  epoch : Nat                      -- job_epoch
  recordSeq : Nat
  lastHash : List Byte
  sliceHashes : List (List Byte)   -- hashes of the new master slices, in slice order
  slices : List (Nat × Nat)        -- slices COPYH has begun: the slice's key, parts seen
  entered : Nat                    -- last step whose exchange has entered the governor log
  counters : List (Nat × Nat)      -- ENG_SR_COUNTER of each core at the boundary (R204)
deriving DecidableEq, Repr, Inhabited

/-- No job. -/
def Job.closed : Job :=
  { isOpen := false, id := 0, step := 0, st := .none, seed := zeros 32, key0 := 0, key1 := 0, data := [], dataPos := 0
    closing := false, fencedJob := false, epoch := 0, recordSeq := 0, lastHash := zeros 32, sliceHashes := []
    slices := [], entered := 0, counters := [] }

/-- A record that has been cut and is not free yet (R60, R61). -/
structure RingSlot where
  recordSeq : Nat
  slot : Nat
  body : List Byte
  signed : Bool
  tries : Nat
  evt : Nat                        -- sequence of its RECORD event; 0 before it is sent
  acked : Bool
  stored : Bool                    -- written to the Caddy store
deriving DecidableEq, Repr, Inhabited

/-- What the cupping record gathers in its window (R49, R51 to R56). -/
structure Rec where
  cls : List (List Nat)            -- 12 classes: performed, failed, recovered, escalated
  saturated : Bool
  resends : Nat
  foreign : Nat
  versions : List (Nat × List Byte)  -- versions consumed, in order of first use, with their Merkle roots
  published : Nat
  thermal : Bool
  ckpWritten : Bool
  rolledBack : Bool
  restored : Bool
  slots : List RingSlot
  nextSlot : Nat
deriving DecidableEq, Repr, Inhabited

/-- A window in which nothing has happened. -/
def Rec.empty : Rec :=
  { cls := List.replicate 12 [0, 0, 0, 0], saturated := false, resends := 0, foreign := 0, versions := [], published := 0
    thermal := false, ckpWritten := false, rolledBack := false, restored := false, slots := [], nextSlot := 0 }

/-! ## Checkpoint engine -/

/-- Why an NVMe command was issued; its completion goes on from there (R521, R526, R528). -/
inductive NvWhy where
  | admin                          -- at link-up, before the last queue pair (R519)
  | createQueues                   -- the last queue pair at link-up (R519)
  | readHead (copy : Nat)          -- at link-up: partition header copies 0 and 1, own slot headers 2 and 3
  | format                         -- fresh partition header or zero slot header (R521)
  | recordSlot (slot : Nat)        -- the record in a slot of the ring
  | clearHead                      -- the slot's header LBA as zeros (R526 step 2)
  | data (offset : Nat)
  | flush
  | writeHead
  | restoreHead (slot : Nat)       -- the header of slot 2 x partition + slot
  | restoreData (offset : Nat)
deriving DecidableEq, Repr, Inhabited

/-- An NVMe command issued or waiting to be (R519): opcode (of the admin set, plus 256), first LBA, length and data. An admin command
has in the place of the LBA what it names: a CNS, a feature or a queue. -/
structure NvCmd where
  opcode : Nat
  lba : Nat
  blocks : Nat
  data : List Byte
  fua : Bool
  why : NvWhy
  retried : Bool
deriving DecidableEq, Repr, Inhabited

/-- A checkpoint request held for a boundary (R523, R527). -/
structure CkpReq where
  queues : List Nat                -- command queues whose CHECKPOINT it answers
  preempt : Bool
  stop : Bool
  at_ : Nat                        -- timebase at the request
deriving DecidableEq, Repr, Inhabited

/-- A checkpoint write under way (R526). -/
structure CkpWrite where
  req : CkpReq
  step : Nat
  slot : Nat
  reference : Bool
  tail : List Byte                 -- the first 128 bytes of the area's tail
  offset : Nat                     -- bytes of the area read so far
  hashed : List Byte               -- those bytes, for data_hash
deriving DecidableEq, Repr, Inhabited

/-- A RESTORE under way (R528). -/
structure Restore where
  queue : Nat
  dry : Bool
  foreign : Bool                   -- flags bit 1: another module's identity is allowed
  step : Nat
  heads : List (List Byte)         -- slot headers read so far
  slot : Nat                       -- slot whose data is read: 2 x partition + slot
  own : Nat                        -- the module's own slot
  offset : Nat
  got : List Byte
deriving DecidableEq, Repr, Inhabited

/-- Blocks being sent over a buddy link: the module's own copy, or a handover (R511, R516). -/
structure BlockSend where
  port : Nat
  step : Nat
  block : Nat                      -- next block without an OK answer; past the last: the commit
  tries : Nat
  tag : Nat
  rank : Nat
deriving DecidableEq, Repr, Inhabited

/-- The checkpoint engine (R509 to R529). -/
structure Ckp where
  area : List (Option Nat)         -- step whose complete state each generation area holds (R510)
  shard : List (List Byte)         -- shard_hash of the record of each area's step (R522)
  held : Option CkpReq
  write : Option CkpWrite
  restore : Option Restore
  send : Option BlockSend
  hand : Option BlockSend
  recv : Option (Nat × Nat × List Nat)   -- handover received: port, step, blocks written
  holdBlocks : List Nat
  guard : List (Nat × Nat)         -- copies begun at earlier boundaries: step, blocks acknowledged (R513)
  caddyReady : Bool
  nsze : Nat
  xfer : Nat                       -- largest transfer, bytes
  nv : List NvCmd                  -- commands; the first is outstanding
  goodSlots : List (Option Nat)    -- steps of the complete checkpoints in slots 0 and 1
  storeHead : List (List Byte)     -- partition header copies read at link-up
  stopped : Bool                   -- a checkpoint stopped the job: no further step (R523)
deriving DecidableEq, Repr, Inhabited

/-- Nothing saved, nothing held, no store. -/
def Ckp.idle : Ckp :=
  { area := [none, none], shard := [zeros 32, zeros 32], held := none, write := none, restore := none, send := none, hand := none, recv := none
    holdBlocks := [], guard := [], caddyReady := false, nsze := 0, xfer := 0, nv := [], goodSlots := [none, none]
    storeHead := [], stopped := false }

/-! ## Management, time -/

/-- An unacknowledged alert (R579). -/
structure Alert where
  num : Nat
  block : Nat
  die : Nat
  cause : Nat
deriving DecidableEq, Repr, Inhabited

/-- A JOB_FENCE waiting for its ports (R581). -/
structure FenceRun where
  src : MgtSrc
  seq : BitVec 32
  type : BitVec 8
  job : Nat
  ports : List Nat
deriving DecidableEq, Repr, Inhabited

/-- The management port (R573 to R580). -/
structure Mgt where
  manager : Option MgtSrc
  replies : List (MgtSrc × BitVec 32 × Nat × List Byte)   -- replies kept, newest first, with the timebase at sending (R577)
  alerts : List Alert
  nextAlert : Nat
  nextSeq : Nat
  misses : List Nat                -- polls each I3C target has missed in a row
  fence : Option FenceRun
  capOrder : Option Nat            -- cap of the last POWER request
  warmOrder : Option Nat           -- target of the last KEEP_WARM request
  image : Smap Byte                -- recovery image collected by the boot ROM (R548)
  lastOutcome : Nat
  order : Option Nat               -- step of a ROLLBACK order that waits for a takeover (R498)
deriving DecidableEq, Repr, Inhabited

/-- No manager, no alert. -/
def Mgt.idle : Mgt :=
  { manager := none, replies := [], alerts := [], nextAlert := 1, nextSeq := 1, misses := List.replicate 8 0, fence := none
    capOrder := none, warmOrder := none, image := [], lastOutcome := 0, order := none }

/-- The clock of the timebase (R583 to R585). `frac` counts units of 10⁻⁷ ns below `ns`. -/
structure Tim where
  started : Bool
  refclk : Bool
  ns : Nat
  frac : Nat
  good : Nat                       -- consecutive Syncs below 500 ns
  stepped : Bool                   -- a first offset has been measured since cold bring-up
  domain : Nat                     -- domain in force
  best : Option PtpMaster
deriving DecidableEq, Repr, Inhabited

/-- The timebase before the service rail is good. -/
def Tim.off : Tim := { started := false, refclk := true, ns := 0, frac := 0, good := 0, stepped := false, domain := 0, best := none }

/-! ## Flash, fuses, security, Kettle, module controller -/

/-- A firmware slot in module flash (R461, R545): whether it was left valid, and its image's version, security epoch and
digest. -/
structure FwSlot where
  valid : Bool
  version : Nat
  epoch : Nat
  digest : Hash
deriving DecidableEq, Repr, Inhabited

/-- A row marked for soft repair (R388, R389). -/
structure SoftRow where
  stack : Nat
  row : Nat
  bank : Nat
  channel : Nat
  applied : Bool
deriving DecidableEq, Repr, Inhabited

/-- Module flash: what survives power-off (R462, R463, R389, R545). -/
structure Flash where
  fw : List FwSlot
  failures : List Nat              -- cores with a failure record, by core index
  soft : List SoftRow              -- in order of marking
deriving DecidableEq, Repr, Inhabited

/-- The fuses (R462, R543, R547). Masks of an unlisted cluster or port are 0. -/
structure Fuse where
  bad : Smap Nat                   -- bad cores of each cluster
  noSpare : List Nat               -- clusters marked as having no spare
  erased : Smap Nat                -- stack, with its erased die plus 1
  laneRx : Smap Nat
  laneTx : Smap Nat
  owner : Option Hash              -- the owner key hash of a sealed module
  epoch : Nat
deriving DecidableEq, Repr, Inhabited

/-- The security engine (R539 to R549). -/
structure Sec where
  slot : Nat                       -- firmware slot running
  attests : List (Nat × List Byte × Nat)  -- attestation bodies to be signed: queue, body, address
  ckpDue : Bool                    -- a checkpoint header is to be signed
  ckpAt : Nat                      -- timebase when it came to be
  reports : Nat
deriving DecidableEq, Repr, Inhabited

/-- The Kettle (R558 to R566). -/
structure Kettle where
  vCap : Nat                       -- module target, mV
  ramp : Nat                       -- where the ramp of a step start stands, mV; 800 when it is over (R560)
  low : Nat                        -- consecutive samples 2 % or more below the cap
  powers : List Nat                -- input power of the last 1 ms of samples
  energy : Nat                     -- energy below 1 J, in nJ
  run : Nat                        -- consecutive samples that confirm liquid mode
  fellBack : Bool
  warmFrom : Nat                   -- state from which WARM_IDLE was entered
deriving DecidableEq, Repr, Inhabited

/-- The module controller: pins (R601), bring-up (R459 to R472). TOP_STATE holds state, phase, health and progress. -/
structure Top where
  pwrEn : Bool
  inRange : Bool
  pwrGood : Bool
  identityOk : Bool
  ringsStarted : Nat
  stackReports : List Nat
  routerReports : List Nat
  waves : List (List Nat)          -- waves of core tests under way, oldest first, by their clusters (R467)
  blendWaiting : Option (Nat × List Byte)  -- a full load that waits for the last wave (R472): its queue, the image
  failCounts : List Nat            -- cores failed and waiting for a failure record
  boot : BootObs                   -- what the boot ROM found at the last power-on
  t0 : Nat
deriving DecidableEq, Repr, Inhabited

/-- What leaves the module: messages, records and commands to devices, in the order sent. -/
inductive Out where
  | cpl (tag : Nat) (status : Status) (payload : List Byte)
  | evt (seq code : Nat) (payload : List Byte)
  | mgt (dst : MgtSrc) (bytes : List Byte)
  | mgtMulticast (bytes : List Byte)
  | trace (bytes : List Byte)
  | port (p : Nat) (m : Msg)       -- a message whose last flit has been placed in a pair
  | pair (p : Nat) (header : BitVec 40) (flits : List FlitBytes)  -- a codeword pair a port sends (R332), one of NULL flits only where its header says something
  | sip (p slot : Nat) (f : FlitBytes)     -- a flit other than IDLE on a Sip port, and its slot (R360)
  | nvme (c : NvCmd)
  | status (st : Status)           -- status of a register access or device access made by the command at the front
  | dma (bytes : List Byte)        -- data a device or requester reads
  | mesh (die port : Nat) (flit : List Byte)      -- a flit a router sends on a port (R109)
  | leafCopy (die offset : Nat) (bytes : List Byte)  -- a tree's copy that a memory controller receives, and its offset (R109)
deriving DecidableEq, Repr, Inhabited

/-! ## Stream ports (R329 to R357) -/

/-- Who waits for the reply to a stream tag (R347). -/
inductive TagUse where
  | infuser | gform | jfence | bcopy
deriving DecidableEq, Repr, Inhabited

/-- A message queued for sending: its credit class, the message, and the flits not yet sent. -/
structure TxMsg where
  cls : Nat
  msg : Msg
  left : Nat
deriving DecidableEq, Repr, Inhabited

/-- A flit in the replay buffer: its class, the job of its message, and its bytes. -/
structure TxFlit where
  cls : Nat
  job : BitVec 16
  bytes : FlitBytes
deriving DecidableEq, Repr, Inhabited

/-- The link layer of a port (R338 to R343), and what waits on it. -/
structure Port where
  rxSeq : Nat                      -- next sequence number expected
  naking : Bool                    -- a flit was lost; later ones are discarded until the replay reaches it
  rx : List (Option (List Byte))   -- bytes of the message in progress in each class
  txSeq : Nat                      -- sequence number of the next flit sent
  acked : Nat                      -- last sequence number acknowledged
  unacked : List TxFlit            -- the replay buffer, oldest first
  ctlSince : Nat                   -- flits of other classes sent since the last one of CTL, up to 15
  turn : Nat                       -- which of the other classes has the next turn: its number less 1
  nakSeen : Bool                   -- the nak that stands in the partner's headers has been answered
  precode : Nat                    -- mask of the transmit lanes whose precoder is on (R329)
  replays : Nat                    -- consecutive replays without ack advancing
  credits : List Nat
  txq : List TxMsg
  tags : List (Nat × TagUse)
  tagq : List (TagUse × Msg)       -- a JFENCE or BCOPY that waits for a free tag (R347)
  tagWait : Bool                   -- some other request found no free tag
  heldTags : List (Nat × TagUse)    -- tags held out of use after TIMEOUT (R15)
  nextTag : Nat
  msgset : Nat
  trainFails : Nat                 -- full retrains that failed in a row
  jfence : Option Nat              -- tag of the JFENCE awaiting its answer
  jfAnswer : Option (Nat × Nat)    -- JFENCE_DONE owed: tag, and the job whose flits must be acknowledged first
  rebind : Bool                    -- the binding changed; HELLO goes out when the tags are free (R357)
  fastFail : Nat                   -- mask of the lanes the fast retrain under way excludes
  fastFrom : Nat                   -- the state it returns to
  sipNaks : Smap Nat               -- NAKs that the flit in a slot has met (R360)
  sipSent : Smap SipFlit           -- reduction flits sent, by slot from link-up
  sipSlot : Nat                    -- first slot, from link-up, after the last flit that was not IDLE
  sipUpAt : Nat                    -- when the Sip port came up
  sipNakWait : Nat                 -- flits that failed their CRC and have not come again
  sipPartner : Nat
  partnerJob : Nat                 -- job_id of the partner's HELLO (R582)
deriving DecidableEq, Repr, Inhabited

/-- A port whose link is down. -/
def Port.down : Port :=
  { rxSeq := 0, naking := false, rx := [none, none, none, none], txSeq := 0, acked := 4095, unacked := [], ctlSince := 15
    turn := 0, nakSeen := false, precode := 0, tagq := [], tagWait := false, replays := 0
    credits := [0, 0, 0, 0], txq := [], tags := [], heldTags := [], nextTag := 0, msgset := 0, trainFails := 0
    jfence := none, jfAnswer := none, rebind := false, fastFail := 0, fastFrom := 0, sipNaks := [], sipSent := [], sipSlot := 0, sipUpAt := 0
    sipNakWait := 0, sipPartner := 0, partnerJob := 0 }

/-! ## Groups, Samovars, Sip units (R285 to R315) -/

/-- States of a group (R286). -/
inductive GrpSt where
  | none | forming | formed | failed
deriving DecidableEq, Repr, Inhabited

/-- A reduction group on this module: its entry in the Blend, with members as re-formation left them (R309). `asked`: ports
whose GFORM answer is outstanding, with its tag; `confirmed`: ports whose neighbour confirmed (R287). -/
structure Grp where
  cfg : GroupCfg
  st : GrpSt
  epoch : Nat
  asked : List (Nat × Nat)
  confirmed : List Nat
deriving DecidableEq, Repr, Inhabited

/-- A Sip group on this module. -/
structure SipGrp where
  cfg : SipGroupCfg
  job : Nat
  st : GrpSt
  epoch : Nat
  asked : List (Nat × Nat)
  confirmed : List Nat
  base : Option Nat                -- oldest open sequence number (R315)
  moved : Bool                     -- a combine of the epoch has completed
  done : List Nat                  -- sequence numbers ahead of the oldest open one that have completed
deriving DecidableEq, Repr, Inhabited

/-- The key of a reduction context (R299). -/
structure CKey where
  job : Nat
  group : Nat
  epoch : Nat
  chunk : Nat
deriving DecidableEq, Repr, Inhabited

/-- A reduction context (R299, R304): what the inputs of the attempt have brought. -/
structure Ctx where
  key : CKey
  format : Nat
  layer : Nat
  scale : Nat
  half : Bool
  attempt : Nat
  inputs : List (Nat × Nat)        -- port (16: local) and source rank of the inputs of the attempt
  sums : List Int
  mag : Nat
  count : Nat
  carried : Nat                    -- sum of the carried residues, mod 65,535
  bad : Bool
  sat : Bool
  nonfinite : Bool
  status : Status                  -- the non-OK status that ranks first among the inputs'
  residueResent : Bool             -- at the owner: a residue re-send has been made
  held : Bool                      -- at the owner: ended OK, held until RXWAIT delivers the sum
deriving DecidableEq, Repr, Inhabited

/-- A chunk retained at the home Samovar (R302): where its FP32 values lie, how it was last sent, and to whom: a peer port and
rank, or none for the module's own context. -/
structure Retained where
  key : CKey
  slot : Nat
  format : Nat
  layer : Nat
  scale : Nat
  attempt : Nat
  half : Bool
  signs : List Bool                -- GS1: sign bits and magnitude of the last attempt
  mag : Nat
  dst : Option (Nat × Nat)
  final : Bool                     -- GS1: RDONE reported OK and the error memory waits under copy-before-overwrite
deriving DecidableEq, Repr, Inhabited

/-- A Samovar. -/
structure Sam where
  ctxs : List Ctx
  retained : List Retained
  waits : List (CKey × (Nat × Nat) × Status × List Byte)   -- inputs that wait for a context (R301)
  full : Bool                      -- a chunk offered waits for a place in the retain area (R302)
  ctxFull : Bool                   -- a chunk of the module itself waits for a context (R301)
deriving DecidableEq, Repr, Inhabited

def Sam.idle : Sam := { ctxs := [], retained := [], waits := [], full := false, ctxFull := false }

/-- The end of an owned chunk in the step, kept for RXWAIT and RDONE (R166, R303). -/
structure Ended where
  key : CKey
  attempt : Nat
  status : Status
  vals : List FVal
deriving DecidableEq, Repr, Inhabited

/-- A Sip combine open at the unit of a group's up port (R313, R315). -/
structure Combine where
  group : Nat
  seq : Nat
  op : Nat
  words : Nat                      -- payload words, 1 to 8
  payload : List (BitVec 32)
  count : Nat
  status : Status
  arrived : List Nat               -- ports that have sent; 16: the module's own contribution
deriving DecidableEq, Repr, Inhabited

/-- Who waits for a result of the Sip path: a core, with the number of its SIPRED, or the governor exchange (R167, R195). -/
structure SipWait where
  group : Nat
  seq : Nat
  core : Option (Nat × Nat)
deriving DecidableEq, Repr, Inhabited

/-- A local combine: contributions of the module's cores before they enter the Sip unit (R167). It stands until the result comes;
one that is MALFORMED until all its cores have joined. -/
structure LocalSip where
  group : Nat
  seq : Nat
  op : Nat
  words : Nat
  payload : List (BitVec 32)
  expected : Nat
  got : Nat
  malformed : Bool
deriving DecidableEq, Repr, Inhabited

/-- The governor exchange under way (R195). -/
structure Exchange where
  step : Nat
  summaries : List (List Byte)     -- this module's summaries of the step, by layer
  next : Nat                       -- next reduction to send
  open_ : List Nat                 -- reductions outstanding
  results : List (Nat × Status × List (BitVec 32))   -- delivered, not yet taken
  got : Smap (List Nat)            -- words received, by reduction
deriving DecidableEq, Repr, Inhabited

/-- Groups, their epoch sets, and the Sip path. -/
structure Coll where
  groups : Smap Grp
  sips : Smap SipGrp
  epochs : Smap (List Nat)         -- epochs held in the job: reduction groups 0-255, Sip groups 256-511
  epochJob : Nat
  sams : List Sam                  -- one per port
  ended : List Ended
  sent : List (CKey × Nat)         -- chunks of the step whose partial this gatherer has sent, with the attempt
  fails : List (CKey × Nat)        -- failed comparisons not yet counted recovered or escalated (R304)
  shape : List (Nat × Nat × Nat)   -- slices that SHARD descriptors have named in the step: group, first chunk, slice_chunks (R163)
  reported : List CKey             -- first chunks of the slices whose RDONE has been sent in the step
  owned : List (Nat × Nat)         -- group and first chunk of owned slices this module contributed to in the step
  combines : List Combine
  locals : List LocalSip
  sipWaits : List SipWait
  exch : Option Exchange
deriving DecidableEq, Repr, Inhabited

/-- No group loaded. -/
def Coll.idle : Coll :=
  { groups := [], sips := [], epochs := [], epochJob := 0, sams := List.replicate 16 Sam.idle, ended := [], sent := []
    fails := [], shape := [], reported := [], owned := [], combines := [], locals := [], sipWaits := [], exch := none }
/-! ## Infusers (R253 to R284) -/

/-- What a weight request fetches (R257, R261). -/
inductive Fetch where
  | chunk (c : Nat)
  | page (p : Nat)
  | roots
deriving DecidableEq, Repr, Inhabited

/-- A layer record of an accepted manifest (R255). -/
structure LayerRec where
  layer : Nat
  kind : Nat
  count : Nat
  lastLen : Nat
  root : List Byte
deriving DecidableEq, Repr, Inhabited

/-- A WREQ at an Infuser: the instruction it belongs to, its STREAM and token, and once accepted its version, kind and
progress (R258 to R260). -/
structure InfReq where
  core : Nat
  seq : Nat
  word : BitVec 128
  pc : Nat
  strm : Stream
  tok : Nat
  version : Nat
  entry : LayerRec
  asked : Nat                      -- chunks requested
  done : Nat                       -- chunks delivered
  released : Smap Nat              -- slots released since acceptance, by receiving core
deriving DecidableEq, Repr, Inhabited

/-- A chunk, page or list of an accepted WREQ (the instruction is its name): a request outstanding, or content verified. -/
structure InfChunk where
  core : Nat
  seq : Nat
  what : Fetch
  version : Nat
  layer : Nat
  kind : Nat
  tier : Nat
  attempt : Nat                    -- requests sent
  tag : Option (Nat × Nat)         -- port and tag of the request outstanding
  follow : Bool                    -- waits for its WPUSH
  fails : Nat                      -- hash failures so far
  arrived : Option (List Byte)     -- here, and not verified yet
  source : Nat                     -- of what is here: 0 a server, 1 a push, 2 the resident cache
  content : Option (List Byte)     -- verified
  hop : Nat
  origin : Nat
deriving DecidableEq, Repr, Inhabited

/-- A WPUSH held unmatched (R265). -/
structure HeldPush where
  version : Nat
  layer : Nat
  kind : Nat
  chunk : Nat
  hop : Nat
  origin : Nat
  content : List Byte
deriving DecidableEq, Repr, Inhabited

/-- A page-root list (page 0) or index page (page + 1) in an index store. -/
structure IndexPage where
  version : Nat
  layer : Nat
  kind : Nat
  page : Nat
  bytes : List Byte
deriving DecidableEq, Repr, Inhabited

/-- One Infuser: WREQs waiting, WREQs accepted, chunks in its buffer, pushes held, index store. -/
structure Inf where
  waiting : List InfReq
  reqs : List InfReq
  chunks : List InfChunk
  pushes : List HeldPush
  index : List IndexPage
deriving DecidableEq, Repr, Inhabited

def Inf.idle : Inf := { waiting := [], reqs := [], chunks := [], pushes := [], index := [] }

/-- An accepted manifest (R267). -/
structure Manifest where
  version : Nat
  slot : Nat                       -- slot of the manifest store that holds its bytes, 0 to 2 (R267)
  root : List Byte
  recs : List LayerRec
deriving DecidableEq, Repr, Inhabited

/-- The fetch of a manifest under way (R268, R515). -/
structure ManFetch where
  version : Nat
  forActive : Bool
  server : Nat                     -- next entry of the server list
  refused : Nat                    -- mask of the entries whose copy was refused under R256
  fails : Nat                      -- copies that failed their signature, or came for another version
  tag : Option (Nat × Nat)
deriving DecidableEq, Repr, Inhabited

/-- A WPUB outstanding (R271). -/
structure Wpub where
  core : Nat
  seq : Nat
  inf : Nat                        -- the port whose server list it uses
  server : Nat
  tries : Nat                      -- requests sent, or servers passed over
  tag : Option (Nat × Nat)
  version : Nat
  layer : Nat
  kind : Nat
  chunk : Nat
  body : List Byte                 -- the content
deriving DecidableEq, Repr, Inhabited

/-- The Infusers and the weight versions. INF_STAGE holds state, reason and version of staging. -/
structure Wts where
  infs : Smap Inf
  active : Option Nat
  activeRoot : List Byte
  prior : Option Nat
  priorRoot : List Byte
  manifests : List Manifest
  man : List ManFetch
  open_ : Bool                     -- a decision is due at the next WREQ (R269)
  between : Bool                   -- a batch boundary has passed and no decision has been made
  waitFrom : Option Nat            -- timebase at the first waiting WREQ
  pubs : List Wpub
  firstPub : Option Nat            -- version of the step's first acknowledged WPUB
  genVersion : List (Nat × Nat)    -- version published by the step of each generation area (R273)
deriving DecidableEq, Repr, Inhabited

/-- No version. -/
def Wts.idle : Wts :=
  { infs := [], active := none, activeRoot := zeros 32, prior := none, priorRoot := zeros 32, manifests := [], man := []
    open_ := true, between := false, waitFrom := none, pubs := [], firstPub := none, genVersion := [] }


/-! ## The module -/

/-- The state of the module. `pending` is the queue of commands waiting, first in, first out. `out` is what the module has
sent, oldest first. `freeIx` counts the free values used (the model's own field). -/
structure State where
  pending : List Instr
  freeIx : Nat
  out : List Out
  regs : Smap Word                 -- by module address; an unlisted register reads its reset value
  pendRegs : Smap Word             -- register values pending until the step boundary (R17)
  snap : Smap Word                 -- counter values at the last cut (R586)
  snapHead : List Byte
  meshLost : List (Nat × Nat)      -- data flits dropped whose transfer has not ended: source core, transfer number (R53, R106)
  trcLost : Nat                    -- trace records dropped since the last LOST record (R587)
  tsRate : Nat × Nat               -- second of the timebase, with the tile-store corrections in it (R499)
  mem : Smap Byte                  -- the module address space, byte by byte; an unlisted byte reads 0
  memErr : Smap Byte               -- symbol errors of bonded memory: 72 x granule + 18 x codeword + symbol
  crit : Smap CritWord
  stackSt : Smap Stack
  cores : Smap Core                -- by core index
  clusters : Smap Cluster
  dies : Smap Die
  regions : Smap Region            -- by region identifier
  sigs : List Sig
  takeovers : List Takeover
  host : HostIf
  top : Top
  flash : Flash
  fuse : Fuse
  blend : Blend
  job : Job
  ports : Smap Port
  coll : Coll
  wts : Wts
  record : Rec
  ckp : Ckp
  sec : Sec
  ktl : Kettle
  mgt : Mgt
  tim : Tim
deriving DecidableEq, Repr

/-! ## Reset -/

/-- Module flash as the module leaves the factory (R461, R474): two valid firmware slots. Version, epoch and digest of the
images are not given; DESIGN CHOICE, log entry 13. -/
def Flash.shipped : Flash :=
  { fw := [{ valid := true, version := 0, epoch := 0, digest := 0 }, { valid := true, version := 0, epoch := 0, digest := 0 }]
    failures := [], soft := [] }

/-- Fuses as the module leaves the factory: no bad core, die or lane is presumed. DESIGN CHOICE, log entry 13. -/
def Fuse.shipped : Fuse := { bad := [], noSpare := [], erased := [], laneRx := [], laneTx := [], owner := none, epoch := 0 }

def Sec.idle : Sec := { slot := 0, attests := [], ckpDue := false, ckpAt := 0, reports := 0 }

def Kettle.off : Kettle := { vCap := 0, ramp := 800, low := 0, powers := [], energy := 0, run := 0, fellBack := false, warmFrom := 0 }

/-- The controller of a module that is COLD, with 48 V in range and PWR_EN low (R459, R602). -/
def Top.cold : Top :=
  { pwrEn := false, inRange := true, pwrGood := false, identityOk := false, ringsStarted := 0
    stackReports := [], routerReports := [], waves := [], blendWaiting := none, failCounts := [], boot := default, t0 := 0 }

/-- The machine right after reset: COLD, every rail off, every register at the reset value of its
table but TOP_STATE, whose state is COLD (R459, R476, R600). -/
def State.reset : State :=
  { pending := [], freeIx := 0, out := [], regs := [(0x200000200008, 0x100000000)], pendRegs := [], snap := [], snapHead := zeros 32, meshLost := [], trcLost := 0
    tsRate := (0, 0), mem := [], memErr := [], crit := [], stackSt := [], cores := [], clusters := [], dies := []
    regions := [], sigs := [], takeovers := [], host := HostIf.blank, top := Top.cold, flash := Flash.shipped
    fuse := Fuse.shipped, blend := Blend.none, job := Job.closed, ports := [], coll := Coll.idle, wts := Wts.idle
    record := Rec.empty, ckp := Ckp.idle, sec := Sec.idle, ktl := Kettle.off, mgt := Mgt.idle, tim := Tim.off }

end Sys2Proof.Machine
end

