-- ==== Sys2Proof/Machine/RegFile.lean ====
section
/-! DEFINITION. The register file: where every register lies in the module address space (R35, R36), and the operations that
read and write the value held at a register. Access types and the actions of a write are in Machine/RegAccess.lean. -/

namespace Sys2Proof.Machine

/-- The die that carries the link chiplet of each stream port (R20). -/
def portDies : List Nat := [1, 2, 5, 6, 15, 23, 47, 55, 62, 61, 58, 57, 48, 40, 16, 8]

def portDie (p : Nat) : Nat := nth 64 portDies p

/-- The stream port whose chiplet sits on a die. -/
def diePort (d : Nat) : Option Nat := (List.range 16).find? fun p => decide (portDie p = d)

/-- The edge ring of a die (R18). -/
def dieRing (d : Nat) : Nat := min (min (d / 8) (d % 8)) (min (7 - d / 8) (7 - d % 8))

/-- The cluster number 4·die + cluster of a core index (R23). -/
def coreCluster (i : Nat) : Nat := i / 16

/-- The die of a core index. -/
def coreDie (i : Nat) : Nat := i / 64

/-- The core value of a core index. -/
def coreVal (i : Nat) : Nat := i % 16

/-- The core index of a cluster number and a core value. -/
def coreIdx (c k : Nat) : Nat := 16 * c + k

/-- Whether an index names a physical core: 64 dies, 4 clusters, core values 0 to 11. -/
def isCore (i : Nat) : Bool := decide (i < 4096) && decide (i % 16 < 12)

/-- The index of a block under R35. -/
def RBlk.index : RBlk → Nat
  | .hifMod => 0 | .cfgMod => 1 | .topMod | .topCluster | .topDie => 2
  | .seqMod | .seqCore | .seqCluster => 3 | .engMod | .engCore => 4 | .vecMod | .vecCore => 5 | .strMod | .strCore => 6
  | .urnMod | .urnCluster => 7 | .govMod | .govCluster => 8 | .memMod | .memDie => 9 | .scrMod | .scrDie => 10
  | .lnkMod | .lnkPort => 11 | .samMod | .samPort => 12 | .infMod | .infPort => 13 | .sipMod | .sipPort => 14
  | .ckpMod => 15 | .secMod => 16 | .ktlMod => 17 | .timMod => 18 | .mgtMod => 19 | .trcMod => 20

/-- The module-level block of a block. -/
def RBlk.mod : RBlk → RBlk
  | .hifMod => .hifMod | .cfgMod => .cfgMod | .topMod | .topCluster | .topDie => .topMod
  | .seqMod | .seqCore | .seqCluster => .seqMod | .engMod | .engCore => .engMod | .vecMod | .vecCore => .vecMod
  | .strMod | .strCore => .strMod | .urnMod | .urnCluster => .urnMod | .govMod | .govCluster => .govMod
  | .memMod | .memDie => .memMod | .scrMod | .scrDie => .scrMod | .lnkMod | .lnkPort => .lnkMod
  | .samMod | .samPort => .samMod | .infMod | .infPort => .infMod | .sipMod | .sipPort => .sipMod
  | .ckpMod => .ckpMod | .secMod => .secMod | .ktlMod => .ktlMod | .timMod => .timMod | .mgtMod => .mgtMod
  | .trcMod => .trcMod

/-- The module-level blocks, by index (R35). -/
def modBlocks : List RBlk :=
  [.hifMod, .cfgMod, .topMod, .seqMod, .engMod, .vecMod, .strMod, .urnMod, .govMod, .memMod, .scrMod, .lnkMod, .samMod
   , .infMod, .sipMod, .ckpMod, .secMod, .ktlMod, .timMod, .mgtMod, .trcMod]

def modWin (b : Nat) : Nat := 0x200000000000 + b * 0x100000
def dieWin (d : Nat) : Nat := 0x200100000000 + d * 0x1000000
def clusterWin (c : Nat) : Nat := dieWin (c / 4) + 0x400000 + c % 4 * 0x300000
def coreWin (i : Nat) : Nat := clusterWin (coreCluster i) + 0x100000 + coreVal i * 0x20000

/-- The module address at which block `b` of index `i` begins: a core index, a cluster number, a die or a port (R36). -/
def blockBase (b : RBlk) (i : Nat) : Nat :=
  match b with
  | .seqCore => coreWin i
  | .engCore => coreWin i + 0x8000
  | .vecCore => coreWin i + 0x10000
  | .strCore => coreWin i + 0x18000
  | .urnCluster => clusterWin i
  | .govCluster => clusterWin i + 0x10000
  | .seqCluster => clusterWin i + 0x20000
  | .topCluster => clusterWin i + 0x30000
  | .topDie => dieWin i
  | .memDie => dieWin i + 0x100000
  | .scrDie => dieWin i + 0x180000
  | .lnkPort => dieWin (portDie i) + 0x200000
  | .samPort => dieWin (portDie i) + 0x280000
  | .infPort => dieWin (portDie i) + 0x300000
  | .sipPort => dieWin (portDie i) + 0x380000
  | _ => modWin b.index

/-- The die on which a block's registers lie. -/
def siteDie (b : RBlk) (i : Nat) : Nat :=
  match b with
  | .seqCore | .engCore | .vecCore | .strCore => coreDie i
  | .urnCluster | .govCluster | .seqCluster | .topCluster => i / 4
  | .topDie | .memDie | .scrDie => i
  | .lnkPort | .samPort | .infPort | .sipPort => portDie i
  | _ => 7

/-- A place in the register windows: block, its index, and the offset within it. -/
def regSite (a : Nat) : Option (RBlk × Nat × Nat) :=
  if 0x200000000000 ≤ a ∧ a < 0x200100000000 then
    let w := a - 0x200000000000
    match modBlocks[w / 0x100000]? with
    | some b => some (b, 0, w % 0x100000)
    | none => none
  else if 0x200100000000 ≤ a ∧ a < 0x200140000000 then
    let d := (a - 0x200100000000) / 0x1000000
    let o := (a - 0x200100000000) % 0x1000000
    if o < 0x100000 then some (.topDie, d, o)
    else if o < 0x180000 then some (.memDie, d, o - 0x100000)
    else if o < 0x200000 then some (.scrDie, d, o - 0x180000)
    else if o < 0x400000 then
      match diePort d with
      | none => none
      | some p =>
        if o < 0x280000 then some (.lnkPort, p, o - 0x200000)
        else if o < 0x300000 then some (.samPort, p, o - 0x280000)
        else if o < 0x380000 then some (.infPort, p, o - 0x300000)
        else some (.sipPort, p, o - 0x380000)
    else
      let c := 4 * d + (o - 0x400000) / 0x300000
      let q := (o - 0x400000) % 0x300000
      if q < 0x10000 then some (.urnCluster, c, q)
      else if q < 0x20000 then some (.govCluster, c, q - 0x10000)
      else if q < 0x30000 then some (.seqCluster, c, q - 0x20000)
      else if q < 0x40000 then some (.topCluster, c, q - 0x30000)
      else if q < 0x100000 ∨ 0x280000 ≤ q then none
      else
        let i := coreIdx c ((q - 0x100000) / 0x20000)
        let r := (q - 0x100000) % 0x20000
        if r < 0x8000 then some (.seqCore, i, r)
        else if r < 0x10000 then some (.engCore, i, r - 0x8000)
        else if r < 0x18000 then some (.vecCore, i, r - 0x10000)
        else some (.strCore, i, r - 0x18000)
  else none

/-- The value a register has at reset (the tables of Machine/RegMap.lean); 0 where nothing is mapped. -/
def regReset (a : Nat) : Word :=
  match regSite a with
  | none => 0
  | some (b, _, o) =>
    match findReg b o with
    | none => 0
    | some r => r.resetWord

/-- The value held at a module address of the register windows. -/
def State.peekAddr (s : State) (a : Nat) : Word := Smap.get (regReset a) s.regs a

/-- Hold `v` at a module address of the register windows. -/
def State.pokeAddr (s : State) (a : Nat) (v : Word) : State := { s with regs := Smap.set (regReset a) s.regs a v }

/-- The value held at register offset `o` of block `b`, index `i`. -/
def State.peek (s : State) (b : RBlk) (i o : Nat) : Word := s.peekAddr (blockBase b i + o)

/-- Hold `v` there. -/
def State.poke (s : State) (b : RBlk) (i o : Nat) (v : Word) : State := s.pokeAddr (blockBase b i + o) v

/-- Bits [hi:lo] of a register. -/
def State.rfield (s : State) (b : RBlk) (i o hi lo : Nat) : Nat := fld (s.peek b i o) hi lo

/-- Bit `n` of a register. -/
def State.rflag (s : State) (b : RBlk) (i o n : Nat) : Bool := flag (s.peek b i o) n

/-- Set bits [hi:lo] of a register, as hardware does. -/
def State.rset (s : State) (b : RBlk) (i o hi lo v : Nat) : State := s.poke b i o (setFld (s.peek b i o) hi lo v)

/-- Set one bit of a register, as hardware does. -/
def State.rbit (s : State) (b : RBlk) (i o n : Nat) (v : Bool) : State := s.rset b i o n n (b2n v)

/-- Add to one counter. -/
def State.add (s : State) (b : RBlk) (i o n : Nat) : State := s.poke b i o (s.peek b i o + BitVec.ofNat 64 n)

/-- Add to a counter and to the module-level counter of its kind (R35). -/
def State.bump (s : State) (b : RBlk) (i o n : Nat) : State :=
  if b.mod = b then s.add b i o n else (s.add b i o n).add b.mod 0 o n

/-- Raise a counter that holds a maximum. -/
def State.rmax (s : State) (b : RBlk) (i o n : Nat) : State :=
  if (s.peek b i o).toNat < n then s.poke b i o (BitVec.ofNat 64 n) else s

/-- The OR of the EVENT register at offset `o` of every block of kind `b` (R35). -/
def State.eventOr (s : State) (b : RBlk) (o : Nat) : Word :=
  s.regs.foldl (fun w e =>
    match regSite e.1 with
    | some (b', _, o') => if b' = b ∧ o' = o then w ||| e.2 else w
    | none => w) 0

/-- Clear the bits of `v` in that register of every block of kind `b`. -/
def State.eventClear (s : State) (b : RBlk) (o : Nat) (v : Word) : State :=
  s.regs.foldl (fun t e =>
    match regSite e.1 with
    | some (b', _, o') => if b' = b ∧ o' = o then t.pokeAddr e.1 (e.2 &&& ~~~v) else t
    | none => t) s

end Sys2Proof.Machine
end

