-- ==== Sys2Proof/Machine/Ops.lean ====
section
/-! DEFINITION. Operations every family shares: trace records, event registers, record counters, host events, management
alerts, the fault log, health, the module state, and what the topology says of a core. -/

namespace Sys2Proof.Machine

/-- Append to what the module has sent. -/
def State.send (s : State) (o : Out) : State := { s with out := s.out ++ [o] }

/-- Answer the register or device access that the command at hand makes. -/
def State.answer (s : State) (st : Status) : State := s.send (.status st)

/-- Draw `n` free values: the number of the first. -/
def State.useFree (s : State) (n : Nat) : State := { s with freeIx := s.freeIx + n }

/-! ## Cores, clusters, regions -/

def State.core (s : State) (i : Nat) : Core := Smap.get Core.blank s.cores i
def State.setCore (s : State) (i : Nat) (c : Core) : State := { s with cores := Smap.set Core.blank s.cores i c }
def State.cluster (s : State) (c : Nat) : Cluster := Smap.get Cluster.blank s.clusters c
def State.setCluster (s : State) (c : Nat) (v : Cluster) : State := { s with clusters := Smap.set Cluster.blank s.clusters c v }
def State.die (s : State) (d : Nat) : Die := Smap.get Die.off s.dies d
def State.setDie (s : State) (d : Nat) (v : Die) : State := { s with dies := Smap.set Die.off s.dies d v }
def State.stack (s : State) (n : Nat) : Stack := Smap.get Stack.blank s.stackSt n
def State.setStack (s : State) (n : Nat) (v : Stack) : State := { s with stackSt := Smap.set Stack.blank s.stackSt n v }
def State.region (s : State) (r : Nat) : Region := Smap.get Region.blank s.regions r
def State.setRegion (s : State) (r : Nat) (v : Region) : State := { s with regions := Smap.set Region.blank s.regions r v }

/-- TOP_XBAR_CFG of a cluster (R120). -/
def State.xbar (s : State) (c : Nat) : Word := s.peek .topCluster c Reg.TOP_XBAR_CFG

def xbarActive (w : Word) : Nat := fld w 15 4
def xbarSpare (w : Word) : Nat := fld w 3 0
def xbarBorrowed (w : Word) : Bool := flag w 29
def xbarLent (w : Word) : Bool := flag w 22

/-- The core index a cluster borrows, if it borrows one (R103). -/
def State.borrowedCore (s : State) (c : Nat) : Option Nat :=
  let w := s.xbar c
  if xbarBorrowed w then some (coreIdx (4 * (c / 4) + fld w 28 27) (fld w 26 23)) else none

/-- The cluster a core works for: the borrower of a lent core, otherwise its own (R22). -/
def State.homeCluster (s : State) (i : Nat) : Nat :=
  let c := coreCluster i
  let w := s.xbar c
  if xbarLent w ∧ fld w 19 16 = coreVal i then 4 * (c / 4) + fld w 21 20 else c

/-- The bit of a core in the masks of its home cluster: its value, or 12 for the borrowed core (R180). -/
def State.maskBit (s : State) (i : Nat) : Nat := if s.homeCluster i = coreCluster i then coreVal i else 12

/-- The region a cluster belongs to (R434). -/
def State.regionOf (s : State) (c : Nat) : Option Nat := (s.blend.regions.find? fun r => r.2.testBit c).map (·.1)

/-- The region a core belongs to: that of its home cluster (R26). -/
def State.coreRegion (s : State) (i : Nat) : Option Nat := s.regionOf (s.homeCluster i)

/-- The clusters of a region, in ascending number. -/
def State.regionClusters (s : State) (r : Nat) : List Nat :=
  match s.blend.regions.find? fun e => decide (e.1 = r) with
  | none => []
  | some e => below 256 e.2.testBit

/-- The cores that work for a cluster: its active cores, and the core it borrows. -/
def State.clusterCores (s : State) (c : Nat) : List Nat :=
  let w := s.xbar c
  ((below 12 fun k => (xbarActive w).testBit k).map (coreIdx c)) ++ (s.borrowedCore c).toList

/-- The cores of a region, lent spares counted with the borrower. -/
def State.regionCores (s : State) (r : Nat) : List Nat :=
  (s.regionClusters r).flatMap fun c =>
    let w := s.xbar c
    ((below 12 fun k => !(xbarLent w && decide (fld w 19 16 = k))).map (coreIdx c)) ++ (s.borrowedCore c).toList

/-- The cores that hold a program. -/
def State.programCores (s : State) : List Nat := (s.cores.filter fun e => e.2.hasProg).map (·.1)

/-- A core is good: not fuse-bad, no failure record, and passed its test in this power cycle (R464). -/
def State.coreGood (s : State) (i : Nat) : Bool :=
  !(Smap.get 0 s.fuse.bad (coreCluster i)).testBit (coreVal i) && !s.flash.failures.contains i && (s.core i).passedTest

/-- Spare cores neither fenced nor taken over (R479). -/
def State.spares (s : State) : Nat :=
  (below 256 fun c =>
    let k := xbarSpare (s.xbar c)
    decide (k < 12) && !(s.core (coreIdx c k)).fenced && (s.core (coreIdx c k)).powered).length

/-! ## Module state and job facts -/

/-- TOP_STATE.state (R476). -/
def State.topState (s : State) : Nat := s.rfield .topMod 0 Reg.TOP_STATE 3 0

def stCold : Nat := 0
def stBringup : Nat := 1
def stReady : Nat := 2
def stRunning : Nat := 3
def stDraining : Nat := 4
def stWarm : Nat := 5
def stSafe : Nat := 6

/-- TOP_STATE.health: 0 OK, 1 DEGRADED, 2 FAILED. -/
def State.health (s : State) : Nat := s.rfield .topMod 0 Reg.TOP_STATE 9 8

def State.safeCause (s : State) : Nat := s.rfield .topMod 0 Reg.TOP_STATE 27 24

/-- The module's controller runs: powered, and not held in SAFE by its firmware. -/
def State.powered (s : State) : Bool := !decide (s.topState = stCold)

/-- The timebase in ns (R583). -/
def State.now (s : State) : Nat := s.tim.ns

/-! ## Trace (R587, R588) -/

/-- The bytes of a trace record. -/
def traceBytes (kind block die core time : Nat) (payload : List Byte) : List Byte :=
  let head := leBytes 1 kind ++ leBytes 1 block ++ leBytes 1 die ++ zeros 1 ++ leBytes 2 core ++ zeros 2 ++ leBytes 8 time ++
    padTo 12 payload
  head ++ leBytes 4 (crc32c head).toNat

/-- Send a trace record, or count it as dropped while the lanes have no clock. A LOST record goes first when room returns. -/
def State.trace (s : State) (kind block die core : Nat) (payload : List Byte) : State :=
  let ctrl := s.peek .trcMod 0 Reg.TRC_CTRL
  if ¬ flag ctrl 16 ∨ ¬ flag ctrl kind then s
  else if ¬ s.tim.refclk then { s.add .trcMod 0 Reg.TRC_DROPPED 1 with trcLost := s.trcLost + 1 }
  else
    let s := if s.trcLost = 0 ∨ ¬ flag ctrl 7 then s else
      { (s.send (.trace (traceBytes 7 0xFF 0 0 s.now (leBytes 4 s.trcLost)))).add .trcMod 0 Reg.TRC_RECORDS 1 with trcLost := 0 }
    (s.send (.trace (traceBytes kind block die core s.now payload))).add .trcMod 0 Reg.TRC_RECORDS 1

/-! ## Event registers -/

/-- Set a bit of the EVENT register at offset `o`; a newly set bit is traced (R588). -/
def State.raise (s : State) (b : RBlk) (i o n : Nat) : State :=
  if s.rflag b i o n then s
  else
    let core := match b with | .seqCore | .engCore | .vecCore | .strCore => i | _ => 0
    (s.rbit b i o n true).trace 1 b.index (siteDie b i) core (leBytes 8 (2 ^ n))

/-! ## Record counters (R49, R52, R53) -/

def cTile : Nat := 0
def cVec : Nat := 1
def cStore : Nat := 2
def cVote : Nat := 3
def cFlit : Nat := 4
def cDma : Nat := 5
def cMem : Nat := 6
def cCrit : Nat := 7
def cLink : Nat := 8
def cSip : Nat := 9
def cRed : Nat := 10
def cChunk : Nat := 11

/-- Add to the four counters of a class. -/
def bumpClass (c : List Nat) (p f r e : Nat) : List Nat :=
  [satAdd 64 (nth 0 c 0) p, satAdd 32 (nth 0 c 1) f, satAdd 32 (nth 0 c 2) r, satAdd 32 (nth 0 c 3) e]

/-- Whether adding saturates a counter of the class. -/
def classSat (c : List Nat) (p f r e : Nat) : Bool :=
  decide (2 ^ 64 ≤ nth 0 c 0 + p) || decide (2 ^ 32 ≤ nth 0 c 1 + f) || decide (2 ^ 32 ≤ nth 0 c 2 + r) ||
    decide (2 ^ 32 ≤ nth 0 c 3 + e)

/-- Count check events in class `k`: performed, failed, recovered, escalated. -/
def State.check (s : State) (k p f r e : Nat) : State :=
  let c := nth [0, 0, 0, 0] s.record.cls k
  { s with record := { s.record with
      cls := setNth s.record.cls k (bumpClass c p f r e), saturated := s.record.saturated || classSat c p f r e } }

/-! ## Host events (R415, R416) -/

def evFuncReady : Nat := 1
def evState : Nat := 2
def evStepEnd : Nat := 3
def evRecord : Nat := 4
def evException : Nat := 5
def evPreempt : Nat := 6
def evStage : Nat := 7
def evAlert : Nat := 8
def evRegion : Nat := 9
def evOverflow : Nat := 10
def evLinkRestored : Nat := 11

/-- Put an event in the buffer; it takes its number when it is sent. -/
def State.enqueueEvt (s : State) (code : Nat) (payload : List Byte) : State :=
  { s with host := { s.host with buf := s.host.buf ++ [{ seq := 0, code := code, payload := padTo 16 payload }] } }

/-- Events other than RECORD in the buffer. -/
def HostIf.unreserved (h : HostIf) : Nat := (h.buf.filter fun e => !decide (e.code = evRecord)).length

/-- Raise a host event: masked codes are not raised, and an event that finds no free unreserved entry is lost. -/
def State.hostEvent (s : State) (code : Nat) (payload : List Byte) : State :=
  let always := code = evRecord ∨ code = evOverflow ∨ code = evLinkRestored
  if ¬ always ∧ ¬ s.rflag .hifMod 0 Reg.HIF_CTRL code then s
  else if code = evRecord then s.enqueueEvt code payload
  else
    let need := if s.host.lost = 0 then 1 else 2
    if 960 < s.host.unreserved + need then
      { (s.add .hifMod 0 Reg.HIF_EVTS_LOST 1).raise .hifMod 0 Reg.HIF_EVENT 3 with
        host := { s.host with lost := s.host.lost + 1 } }
    else
      let s := if s.host.lost = 0 then s else
        let t := s.enqueueEvt evOverflow (leBytes 4 s.host.lost)
        { t with host := { t.host with lost := 0 } }
      s.enqueueEvt code payload

/-! ## STATUS and alerts of the management port (R578, R579) -/

/-- One past the newest entry of the fault log, and the level it recorded. -/
def State.lastLevel (s : State) : Nat :=
  let n := s.rfield .topMod 0 Reg.TOP_FAULT_LOG_HEAD 31 0
  if n = 0 then 0 else s.rfield .topMod 0 (Reg.TOP_FAULT_LOG + 16 * ((n - 1) % 256)) 11 8

/-- The 64-byte STATUS body (R578). -/
def State.statusBody (s : State) : List Byte :=
  let health := s.peek .topMod 0 Reg.TOP_HEALTH
  leBytes 1 (s.topState + 16 * s.health + 64 * fld health 8 8 + 128 * s.rfield .timMod 0 Reg.TIM_STATUS 0 0) ++
  leBytes 1 (s.safeCause + 16 * fld health 27 24) ++ leBytes 1 (fld health 7 0) ++ leBytes 1 s.mgt.alerts.length ++
  leBytes 2 (if s.job.isOpen then s.job.id else 0) ++ leBytes 2 s.blend.rank ++ leBytes 8 s.job.step ++
  leBytes 4 (s.job.recordSeq - 1) ++ leBytes 1 s.mgt.lastOutcome ++ leBytes 1 s.lastLevel ++ leBytes 2 s.spares ++
  leBytes 4 (s.rfield .ktlMod 0 Reg.KTL_INPUT 63 32) ++ leBytes 4 (s.rfield .ktlMod 0 Reg.KTL_STATUS 63 32) ++
  leBytes 8 s.now ++ (List.range 3).flatMap fun i => leBytes 8 (s.peek .cfgMod 0 (Reg.CFG_CHECK + 8 * i)).toNat

/-- The bytes of a management message from the module (R574). -/
def mgtBytes (type status : Nat) (resp : Bool) (seq : Nat) (job : Nat) (body : List Byte) : List Byte :=
  leBytes 4 0x4D474D54 ++ leBytes 1 1 ++ leBytes 1 type ++ leBytes 1 (status + 16 * b2n resp) ++ zeros 1 ++ leBytes 4 seq ++
  leBytes 4 body.length ++ leBytes 8 Config.serial.toNat ++ leBytes 2 job ++ zeros 6 ++ body

/-- The management link carries messages. -/
def State.mgtUp (s : State) : Bool := s.rflag .mgtMod 0 Reg.MGT_STATUS 0

/-- Send an unsolicited message to the bound manager, if there is one and the link is up. -/
def State.mgtSend (s : State) (type : Nat) (body : List Byte) : State :=
  match s.mgt.manager with
  | none => s
  | some m =>
    if ¬ s.mgtUp then s else
    let t := (s.send (.mgt m (mgtBytes type 0 false s.mgt.nextSeq 0 body))).add .mgtMod 0 Reg.MGT_TX 1
    { t with mgt := { t.mgt with nextSeq := t.mgt.nextSeq + 1 } }

/-- An unsolicited STATUS (R578). -/
def State.sendStatus (s : State) : State := s.mgtSend 2 s.statusBody

/-- ALERT# and the alert fields of MGT_STATUS follow the alerts held, and SAFE (R579). -/
def State.alertPin (s : State) : State :=
  let s := s.rset .mgtMod 0 Reg.MGT_STATUS 15 8 s.mgt.alerts.length
  s.rbit .mgtMod 0 Reg.MGT_STATUS 3 (!s.mgt.alerts.isEmpty || decide (s.topState = stSafe))

/-- The EVENT register of a block: its module-level one, or one die's. -/
def State.eventReg (s : State) (block : Nat) : Word :=
  match block with
  | 0 => s.peek .hifMod 0 Reg.HIF_EVENT
  | 1 => s.peek .cfgMod 0 Reg.CFG_EVENT
  | 2 => s.peek .topMod 0 Reg.TOP_FAULT_EVENT
  | 3 => s.eventOr .seqCore Reg.SEQ_EVENT
  | 4 => s.eventOr .engCore Reg.ENG_EVENT
  | 5 => s.eventOr .vecCore Reg.VEC_EVENT
  | 6 => s.eventOr .strCore Reg.STR_EVENT
  | 7 => s.eventOr .urnCluster Reg.URN_EVENT
  | 8 => s.peek .govMod 0 Reg.GOV_EVENT
  | 9 => s.eventOr .memDie Reg.MEM_EVENT
  | 10 => s.eventOr .scrDie Reg.SCR_EVENT
  | 11 => s.eventOr .lnkPort Reg.LNK_EVENT
  | 12 => s.eventOr .samPort Reg.SAM_EVENT
  | 13 => s.eventOr .infPort Reg.INF_EVENT
  | 14 => s.eventOr .sipPort Reg.SIP_EVENT
  | 15 => s.peek .ckpMod 0 Reg.CKP_EVENT
  | 16 => s.peek .secMod 0 Reg.SEC_EVENT
  | 17 => s.peek .ktlMod 0 Reg.KTL_EVENT
  | 19 => s.peek .mgtMod 0 Reg.MGT_EVENT
  | _ => 0

/-- The ALERT message body (R575). -/
def State.alertBody (s : State) (a : Alert) : List Byte :=
  leBytes 1 a.block ++ leBytes 1 a.die ++ leBytes 1 a.cause ++ zeros 1 ++ leBytes 4 a.num ++ leBytes 8 (s.eventReg a.block).toNat

/-- Raise a management alert (R579): 64 are kept, and a full list gives up the oldest of the same block. -/
def State.mgtAlert (s : State) (block die cause : Nat) : State :=
  let a : Alert := { num := s.mgt.nextAlert, block := block, die := die, cause := cause }
  let s := s.add .mgtMod 0 Reg.MGT_ALERTS 1
  let same := s.mgt.alerts.findIdx? fun x => decide (x.block = block)
  match decide (s.mgt.alerts.length < 64), same with
  | false, none =>
    ({ s with mgt := { s.mgt with nextAlert := s.mgt.nextAlert + 1 } }.add .mgtMod 0 Reg.MGT_ALERTS_LOST 1).raise .mgtMod 0
      Reg.MGT_EVENT 2
  | full, same =>
    let kept := if full then s.mgt.alerts else match same with | some i => s.mgt.alerts.eraseIdx i | none => s.mgt.alerts
    let t := { s with mgt := { s.mgt with nextAlert := s.mgt.nextAlert + 1, alerts := kept ++ [a] } }
    (t.mgtSend 3 (t.alertBody a)).alertPin

/-- A signature of a Blend, a manifest or a firmware image has been checked (R539, R550, R552). -/
def State.verified (s : State) (ok : Bool) : State :=
  let s := s.add .secMod 0 Reg.SEC_VERIFIES 1
  if ok then s else (s.add .secMod 0 Reg.SEC_VERIFY_FAILS 1).raise .secMod 0 Reg.SEC_EVENT 3

/-! ## Fault log, health, module state -/

/-- The levels of R482. -/
def lvNone : Nat := 0
def lvUnit : Nat := 1
def lvSpare : Nat := 2
def lvRegion : Nat := 3
def lvRollback : Nat := 4
def lvReform : Nat := 5
def lvOperator : Nat := 6

/-- Write a TOP_FAULT_LOG entry (R508). -/
def State.faultLog (s : State) (cause level : Nat) (status : Status) (item : Nat) : State :=
  let n := s.rfield .topMod 0 Reg.TOP_FAULT_LOG_HEAD 31 0
  let w0 := mkWord [(s.job.step % 2 ^ 32, 32), (cause, 16), (level, 8), (status.code, 0)]
  let w1 := mkWord [(s.now % 2 ^ 48, 16), (item % 65536, 0)]
  let o := Reg.TOP_FAULT_LOG + 16 * (n % 256)
  let s := ((s.poke .topMod 0 o w0).poke .topMod 0 (o + 8) w1).rset .topMod 0 Reg.TOP_FAULT_LOG_HEAD 31 0 (n + 1)
  let s := if 256 ≤ n then s.raise .topMod 0 Reg.TOP_FAULT_EVENT 7 else s
  s.trace 4 2 7 0 (leBytes 8 w0.toNat)

/-- Set the health fields of TOP_STATE and TOP_HEALTH. -/
def State.setHealth (s : State) (h : Nat) : State := (s.rset .topMod 0 Reg.TOP_STATE 9 8 h).rset .topMod 0 Reg.TOP_HEALTH 17 16 h

/-- A condition of R499 holds: bit `n` of TOP_HEALTH. Entry to DEGRADED does what R500 lists. -/
def State.degrade (s : State) (n : Nat) : State :=
  let s := s.rbit .topMod 0 Reg.TOP_HEALTH n true
  if s.health ≠ 0 then s
  else
    let s := ((s.setHealth 1).rbit .topMod 0 Reg.TOP_HEALTH 8 true).raise .topMod 0 Reg.TOP_FAULT_EVENT 0
    let s := s.hostEvent evAlert (leBytes 2 2 ++ leBytes 1 7 ++ zeros 5 ++ leBytes 8 (s.peek .topMod 0 Reg.TOP_FAULT_EVENT).toNat)
    (s.mgtAlert 2 7 n).sendStatus

/-- Health becomes FAILED with a cause of R504 (R501). -/
def State.failHealth (s : State) (cause : Nat) : State :=
  let s := if s.health = 2 then s else
    ((s.setHealth 2).rset .topMod 0 Reg.TOP_HEALTH 27 24 cause).raise .topMod 0 Reg.TOP_FAULT_EVENT 1
  (s.rbit .topMod 0 Reg.TOP_HEALTH 8 true).sendStatus

/-- spares_low of R499, judged again. -/
def State.checkSpares (s : State) : State :=
  if s.spares < s.rfield .topMod 0 Reg.TOP_FAULT_CTRL 11 0 ∧ 1 < s.topState ∧ s.topState < 6 then s.degrade 0 else s

/-- Change TOP_STATE.state; the host and the bound manager hear of it (R416, R578). -/
def State.setState (s : State) (v : Nat) : State :=
  if s.topState = v then s
  else
    let prev := s.topState
    let s := s.rset .topMod 0 Reg.TOP_STATE 3 0 v
    ((s.hostEvent evState (leBytes 1 v ++ leBytes 1 s.health ++ leBytes 1 prev)).sendStatus).alertPin

/-- FUNC_READY (R468). -/
def State.funcReady (s : State) (kind index : Nat) (st : Status) : State :=
  s.hostEvent evFuncReady (leBytes 1 kind ++ leBytes 2 index ++ leBytes 1 st.code)

/-- A REGION event (R416): 0 drained, 1 reset begun, 2 ready again, 3 thermal trip. -/
def State.regionEvent (s : State) (r what : Nat) : State := s.hostEvent evRegion (leBytes 2 r ++ leBytes 1 what)

/-- The cores of a drained region: DRAINING while any region is drained, otherwise RUNNING with a job open (R491). -/
def State.restState (s : State) : State :=
  if s.topState = stReady ∨ s.topState = stRunning ∨ s.topState = stDraining then
    if s.regions.any fun e => e.2.drained then s.setState stDraining
    else if s.job.isOpen then s.setState stRunning else s.setState stReady
  else s

end Sys2Proof.Machine
end

