-- ==== Sys2Proof/Machine/Memory.lean ====
section
/-! DEFINITION. Bonded memory and the critical words (R372 to R391): the symbol code, read-modify-write, the test flip, row
candidates, the vote over three copies. -/

namespace Sys2Proof.Machine

/-- The stack whose window holds a bonded-memory address. -/
def stackOf (a : Nat) : Nat := a / 0x2000000000

/-- The offset in that window (R373). -/
def stackOff (a : Nat) : Nat := a % 0x2000000000

/-- Bytes of a stack that are populated (R373). -/
def stackBytes : Nat := 80000000000

/-- The `n` bytes at `a` lie in populated bonded memory of one stack. -/
def populated (a n : Nat) : Bool := decide (a < 0x80000000000) && decide (stackOff a + n ≤ stackBytes) && decide (0 < n)

/-- Row, bank and channel of an offset (R373). -/
def rowOf (off : Nat) : Nat := bitsOf off 36 26
def bankOf (off : Nat) : Nat := bitsOf off 20 16 ^^^ bitsOf off 35 31
def channelOf (off : Nat) : Nat := bitsOf off 15 11 ^^^ bitsOf off 30 26

/-- The `n` bytes held at `a`. -/
def getBytes (m : Smap Byte) (a n : Nat) : List Byte := (List.range n).map fun i => Smap.get 0 m (a + i)

/-- Hold `bs` at `a`. -/
def putBytes (m : Smap Byte) (a : Nat) : List Byte → Smap Byte
  | [] => m
  | b :: bs => putBytes (Smap.set 0 m a b) (a + 1) bs

/-- The key of symbol `i` of codeword `j` of the granule at `g` in `State.memErr`. -/
def symKey (g j i : Nat) : Nat := 72 * (g / 64) + 18 * j + i

/-- The error pattern of codeword `j` of the granule at `g`. -/
def State.cwErrs (s : State) (g j : Nat) : List Byte := (List.range 18).map fun i => Smap.get 0 s.memErr (symKey g j i)

/-- XOR a value into a stored symbol. -/
def State.disturb (s : State) (g j i : Nat) (v : Byte) : State :=
  { s with memErr := Smap.set 0 s.memErr (symKey g j i) (Smap.get 0 s.memErr (symKey g j i) ^^^ v) }

/-- The symbols a stack supplies wrong on this access, put into the granule at `g`. -/
def State.upset (s : State) (g : Nat) (u : Upset) : State := u.foldl (fun s e => s.disturb g (e.1 % 4) (e.2.1 % 18) e.2.2) s

/-- Who reads a granule: a requester, whose findings the MEM block counts; the scrubber; or a read-modify-write. -/
inductive MemReader where
  | requester | scrubber | rmw
deriving DecidableEq, Repr

/-- Decode the four codewords of a granule. -/
def State.decodeGranule (s : State) (g : Nat) : List CwOut :=
  (List.range 4).map fun j =>
    let y := syndromes (s.cwErrs g j)
    decodeCw (s.stack (stackOf g)).erased y.1 y.2

/-- The byte delivered for byte `n` of a granule, where codeword n mod 4 has its symbol n / 4. -/
def State.deliver (s : State) (g : Nat) (outs : List CwOut) (n : Nat) : Byte :=
  let raw := Smap.get 0 s.mem (g + n) ^^^ Smap.get 0 s.memErr (symKey g (n % 4) (n / 4))
  match nth .clean outs (n % 4) with
  | .corrected p v _ => if p = n / 4 then raw ^^^ v else raw
  | _ => raw

/-- S0 and S1 of the four codewords, as MEM_ERR_LOG_SYN holds them (R397). -/
def State.synWord (s : State) (g : Nat) : Word :=
  mkWord ((List.range 4).flatMap fun j =>
    let y := syndromes (s.cwErrs g j)
    [(y.1.toNat, 16 * j), (y.2.toNat, 16 * j + 8)])

/-- An entry of MEM_ERR_LOG or SCR_ERR_LOG (R397). -/
def errLogWord (kind copy addr : Nat) : Word := mkWord [(1, 63), (kind, 56), (copy, 54), (addr, 0)]

/-- Record an entry in the log of a stack and in the module-level log. -/
def State.errLog (s : State) (b : RBlk) (n kind copy addr : Nat) (syn : Word) : State :=
  let o := if b = .scrDie then Reg.SCR_ERR_LOG_ADDR else Reg.MEM_ERR_LOG_ADDR
  let w := errLogWord kind copy addr
  (((s.poke b n o w).poke b n (o + 8) syn).poke b.mod 0 o w).poke b.mod 0 (o + 8) syn

/-- The first candidate with the lowest count among those that are not marked. -/
def lowestCand (cs : List RowCand) : Option Nat :=
  let lows := (cs.zipIdx.filter fun c => !c.1.marked).map fun c => (c.1.count, c.2)
  (lows.foldl (fun (best : Option (Nat × Nat)) c => match best with
    | none => some c
    | some b => if c.1 < b.1 then some c else some b) none).map (·.2)

/-- The candidates of a stack after an error in a row, given the candidate a new row starts as; none if the list keeps what it
holds. Whether a row is newly marked comes with it (R389). -/
def noteRow (thresh : Nat) (fresh : RowCand) (cands : List RowCand) : Option (List RowCand × Bool) :=
  match cands.findIdx? fun x => decide (x.row = fresh.row ∧ x.bank = fresh.bank ∧ x.channel = fresh.channel) with
  | some k =>
    let x := nth fresh cands k
    let y := { x with count := min 255 (x.count + 1), marked := x.marked || decide (thresh ≤ x.count + 1) }
    some (setNth cands k y, y.marked && !x.marked)
  | none =>
    if cands.length < 64 then some (cands ++ [fresh], fresh.marked)
    else (lowestCand cands).map fun k => (setNth cands k fresh, fresh.marked)

/-- A corrected read in a row: the row's candidate counts it, or the row enters the list (R389). -/
def State.rowCandidate (s : State) (g : Nat) : State :=
  let n := stackOf g
  let st := s.stack n
  let thresh := s.rfield .memMod 0 Reg.MEM_CTRL 55 48
  let fresh : RowCand :=
    { marked := decide (thresh ≤ 1), count := 1, row := rowOf (stackOff g), bank := bankOf (stackOff g)
      channel := channelOf (stackOff g), stored := false }
  match noteRow thresh fresh st.cands with
  | none => s
  | some r =>
    let s := s.setStack n { st with cands := r.1 }
    if r.2 then s.raise .memDie n Reg.MEM_EVENT 5 else s

/-- A corrected symbol counts against its die. -/
def State.dieErr (n : Nat) (s : State) (o : CwOut) : State :=
  match o with
  | .corrected p _ _ => s.add .memDie n (Reg.MEM_DIE_ERRS + 8 * p) 1
  | _ => s

/-- Read and decode one granule: whether it decoded, the 64 bytes, and the state after the read has been counted. -/
def State.readGranule (s : State) (who : MemReader) (g : Nat) : Bool × List Byte × State :=
  let n := stackOf g
  let outs := s.decodeGranule g
  let bad := outs.any fun o => decide (o = .bad)
  let dirty := outs.any fun o => !decide (o = .clean)
  let erasures := (outs.filter fun o => match o with | .corrected _ _ e => e | _ => false).length
  let data := (List.range 64).map (s.deliver g outs)
  let kind := if bad then 3 else if 0 < erasures then 2 else 1
  let syn := s.synWord g
  match who with
  | .scrubber =>
    let s := s.bump .scrDie n Reg.SCR_READS 1
    if ¬ dirty then (true, data, s)
    else
      let s := s.errLog .scrDie n kind 0 g syn
      if bad then (false, [], (s.bump .scrDie n Reg.SCR_UNCORR 1).raise .scrDie n Reg.SCR_EVENT 1)
      else (true, data, (s.bump .scrDie n Reg.SCR_CORRECTED 1).rowCandidate g)
  | _ =>
    let s := if who = .requester then s.bump .memDie n Reg.MEM_READS 1 else s
    let s := s.check cMem 1 (b2n dirty) (b2n (dirty && !bad)) (b2n bad)
    if ¬ dirty then (true, data, s)
    else
      let s := s.errLog .memDie n kind 0 g syn
      if bad then (false, [], (s.bump .memDie n Reg.MEM_UNCORR 1).raise .memDie n Reg.MEM_EVENT 1)
      else
        let s := (s.bump .memDie n Reg.MEM_CORRECTED 1).bump .memDie n Reg.MEM_ERASURE_CORR erasures
        let s := outs.foldl (State.dieErr n) s
        (true, data, (s.raise .memDie n Reg.MEM_EVENT 0).rowCandidate g)

/-- Store a whole granule: fresh check symbols, and the armed flip of R385 with target 0. -/
def State.storeGranule (s : State) (g : Nat) (bs : List Byte) : State :=
  let n := stackOf g
  let s := { s with
    mem := putBytes s.mem g (bs.take 64)
    memErr := (List.range 72).foldl (fun m k => Smap.del m (72 * (g / 64) + k)) s.memErr }
  let s := s.bump .memDie n Reg.MEM_WRITES 1
  let f := s.peek .memDie n Reg.MEM_FLIP_MASK
  if flag f 63 ∧ ¬ flag f 62 then
    let s := (List.range 4).foldl (fun s j => (List.range 18).foldl (fun s i =>
      if flag f (24 + j) ∧ flag f i then s.disturb g j i (BitVec.ofNat 8 (fld f 39 32)) else s) s) s
    (s.rbit .memDie n Reg.MEM_FLIP_MASK 63 false).raise .memDie n Reg.MEM_EVENT 8
  else s

/-- The granule addresses that `n` bytes at `a` touch. -/
def granules (a n : Nat) : List Nat := (List.range ((a + n + 63) / 64 - a / 64)).map fun i => 64 * (a / 64 + i)

/-- Whether a stack serves requests: MALFORMED for unpopulated bytes (R373), UNAVAILABLE before it is ready (R417). -/
def State.memGate (s : State) (a n : Nat) : Status × State :=
  if ¬ populated a n then (.malformed, s.bump .memDie (stackOf a % 64) Reg.MEM_UNPOP 1)
  else if ¬ (s.stack (stackOf a)).ready then (.unavailable, s)
  else (.ok, s)

/-- Read `n` bytes of bonded memory for a requester. No byte is delivered when a granule is uncorrectable (R381). -/
def State.memRead (s : State) (a n : Nat) : Status × List Byte × State :=
  let gate := s.memGate a n
  if gate.1 ≠ .ok then (gate.1, [], gate.2)
  else
    let r := (granules a n).foldl (fun (acc : Bool × List Byte × State) g =>
      let x := acc.2.2.readGranule .requester g
      (acc.1 && x.1, acc.2.1 ++ x.2.1, x.2.2)) (true, [], s)
    if r.1 then (.ok, (r.2.1.drop (a % 64)).take n, r.2.2) else (.dataErr, [], r.2.2)

/-- Write the part of `bs` (which begins at address `a`) that falls into the granule at `g`: whole, or by
read-modify-write. -/
def State.writeGranule (s : State) (g a : Nat) (bs : List Byte) : Bool × State :=
  let part := (bs.drop (g - a)).take (g + 64 - max a g)
  if part.length = 64 then (true, s.storeGranule g part)
  else
    let s := s.bump .memDie (stackOf g) Reg.MEM_RMW 1
    let r := s.readGranule .rmw g
    if ¬ r.1 then (false, r.2.2)
    else
      let o := max a g - g
      (true, r.2.2.storeGranule g (r.2.1.take o ++ part ++ r.2.1.drop (o + part.length)))

/-- Write bytes of bonded memory (R380): a granule whose read-modify-write cannot be read is left unchanged. -/
def State.memWrite (s : State) (a : Nat) (bs : List Byte) : Status × State :=
  let gate := s.memGate a bs.length
  if gate.1 ≠ .ok then gate
  else
    let r := (granules a bs.length).foldl (fun (acc : Bool × State) g =>
      let x := acc.2.writeGranule g a bs
      (acc.1 && x.1, x.2)) (true, s)
    (if r.1 then .ok else .dataErr, r.2)

/-! ## Critical words -/

def critBase : Nat := 0x080000000000

/-- The DRAM die and the bank that hold copy `k` of word `w` of a stack (R382). -/
def critDie (w k : Nat) : Nat := 3 * (w % 6) + k
def critBank (w k : Nat) : Nat := (w / 6 + 11 * k) % 32

/-- The stack and the word of a critical-window address. -/
def critStack (a : Nat) : Nat := (a - critBase) / 0x1000000

def State.critWord (s : State) (a : Nat) : CritWord := Smap.get CritWord.zero s.crit ((a - critBase) / 8)
def State.setCrit (s : State) (a : Nat) (w : CritWord) : State := { s with crit := Smap.set CritWord.zero s.crit ((a - critBase) / 8) w }

/-- How a copy decodes: its vote, if it has one, and whether it needed correction. A pattern of three or more flipped bits
may decode to any value or to none: a free value. -/
def critCopy (fr : Nat) (v : Word) (e : BitVec 72) : Option Word × Bool :=
  match popcount 72 e.toNat with
  | 0 => (some v, false)
  | 1 => (some v, true)
  | 2 => (none, true)
  | _ => if Config.freeValue fr % 2 = 0 then (none, true) else (some (BitVec.ofNat 64 (Config.freeValue (fr + 1))), true)

/-- The value at least two votes hold. -/
def critMajority (votes : List (Option Word)) : Option Word :=
  (votes.filterMap id).find? fun v => decide (2 ≤ (votes.filter fun x => decide (x = some v)).length)

/-- The vote over the three copies of a critical word (R383): the majority, whether a copy disagreed, whether a copy
disagreed or needed correction, and the first disagreeing copy. Six free values stand for copies with three or more flipped
bits. -/
def State.critVote (s : State) (a : Nat) : Option Word × Bool × Bool × Nat :=
  let w := s.critWord a
  let copies := w.errs.zipIdx.map fun e => critCopy (s.freeIx + 2 * e.2) w.val e.1
  let votes := copies.map (·.1)
  let maj := critMajority votes
  let wrong (x : Option Word) : Bool := match maj with | some v => !decide (x = some v) | none => true
  let disagree := votes.any fun x => x.isNone || wrong x
  (maj, disagree, disagree || copies.any (·.2), (votes.findIdx? fun x => x.isNone || wrong x).getD 0)

/-- Read a critical word (R383): status, value, and the state after the read has been counted. -/
def State.critRead (s : State) (a : Nat) : Status × Word × State :=
  let n := critStack a
  if ¬ (s.stack n).ready then (.unavailable, 0, s)
  else
    let (maj, disagree, failed, first) := s.critVote a
    let s := s.useFree 6
    let s := (s.bump .memDie n Reg.MEM_CRIT_READS 1).check cCrit 1 (b2n failed) (b2n (failed && maj.isSome)) (b2n maj.isNone)
    let s := if disagree then s.bump .memDie n Reg.MEM_CRIT_DISAGREE 1 else s
    match maj with
    | some v => (.ok, v, if disagree then s.errLog .memDie n 4 first a 0 else s)
    | none =>
      (.dataErr, 0, (((s.bump .memDie n Reg.MEM_CRIT_NOMAJ 1).raise .memDie n Reg.MEM_EVENT 2).errLog .memDie n 5 first a 0))

/-- Write a critical word: three fresh copies, and the armed flip of R385 with target 1. -/
def State.critWrite (s : State) (a : Nat) (v : Word) : Status × State :=
  let n := critStack a
  if ¬ (s.stack n).ready then (.unavailable, s)
  else
    let f := s.peek .memDie n Reg.MEM_FLIP_MASK
    if flag f 63 ∧ flag f 62 then
      let s := s.setCrit a { val := v, errs := setNth [0, 0, 0] (fld f 61 60) (BitVec.ofNat 72 (fld f 39 32)) }
      (.ok, (s.rbit .memDie n Reg.MEM_FLIP_MASK 63 false).raise .memDie n Reg.MEM_EVENT 8)
    else (.ok, s.setCrit a { val := v, errs := [0, 0, 0] })

/-- Disturb the copies of a critical word. -/
def State.critUpset (s : State) (a : Nat) (u : CritUpset) : State :=
  let w := s.critWord a
  s.setCrit a { w with errs := u.foldl (fun es e => modNth es e.1 (· ^^^ e.2)) w.errs }

end Sys2Proof.Machine
end

