-- ==== Sys2Proof/Machine/Crit.lean ====
section
/-! DEFINITION. The critical words in which the module itself keeps what must survive a DRAM die: the step counter, the job epoch,
what the generation areas hold, the copy held, the chain of records, the weight-version pointers, the buddy map, the checkpoint
manifest head, groups and their epoch sets. The spec names the words and no place for them: their places and layouts, below word
65,536 of each stack, are a DESIGN CHOICE (log entry 100). -/

namespace Sys2Proof.Machine

/-! ## Places: word numbers of stack 0 -/

def kwStep : Nat := 0
def kwEpoch : Nat := 1
def kwArea (g : Nat) : Nat := 2 + g % 2
def kwHold : Nat := 4
def kwSeq : Nat := 5
def kwHash : Nat := 6
def kwActive : Nat := 10
def kwStage : Nat := 15
def kwPrior : Nat := 20
def kwVersion (g : Nat) : Nat := 25 + g % 2
def kwBuddy : Nat := 27
def kwCkp : Nat := 28
def kwGroup (k : Nat) : Nat := 512 + k
def kwEpochs (k : Nat) : Nat := 1024 + 4 * k

/-- The module address of word `w`: the first 65,536 words of each stack in turn. -/
def kwAddr (w : Nat) : Nat := critBase + 0x1000000 * (w / 65536) + 8 * (w % 65536)

/-- Words of stack 1 and the stacks after it hold the member tables, two members to a word, groups in ascending number. -/
def kwTables : Nat := 65536

/-- A value that may be absent: bit 63 says that it is there. -/
def kwMark : Option Nat → Word
  | none => 0
  | some v => BitVec.ofNat 64 (v % 2 ^ 63 + 2 ^ 63)

/-! ## Writing and reading -/

/-- Write critical word `w` of the module. -/
def State.keepWord (s : State) (w : Nat) (v : Word) : State := (s.critWrite (kwAddr w) v).2

/-- Write critical words from `w` on. -/
def State.keepWords (s : State) : Nat → List Word → State
  | _, [] => s
  | w, v :: vs => (s.keepWord w v).keepWords (w + 1) vs

/-- The words of bytes, eight to a word. -/
def wordsOf (bs : List Byte) : List Word := (chunksOf 8 bs).map fun b => BitVec.ofNat 64 (ofLe b)

/-- The value that a critical word delivers, `held` standing for it where none is delivered; and whether a read met DATA_ERR. -/
def State.votedWord (s : State) (w : Nat) (held : Word) : Bool × Word × State :=
  let r := s.critRead (kwAddr w)
  (decide (r.1 = .dataErr), if r.1 = .ok then r.2.1 else held, r.2.2)

/-- The same for `n` words from `w` on. -/
def State.votedWords (s : State) (w : Nat) : List Word → Bool × List Word × State
  | [] => (false, [], s)
  | v :: vs =>
    let x := s.votedWord w v
    let y := x.2.2.votedWords (w + 1) vs
    (x.1 || y.1, x.2.1 :: y.2.1, y.2.2)

/-! ## What is kept -/

/-- The step counter and the job epoch (R206, R510). -/
def State.keepJob (s : State) : State := (s.keepWord kwStep (BitVec.ofNat 64 s.job.step)).keepWord kwEpoch (BitVec.ofNat 64 s.job.epoch)

/-- Generation area `g` holds the complete state of this step, or of none (R510). -/
def State.markArea (s : State) (g : Nat) (step : Option Nat) : State :=
  ({ s with ckp := { s.ckp with area := setNth s.ckp.area (g % 2) step } } : State).keepWord (kwArea g) (kwMark step)

/-- The version that the step of generation area `g` published (R273). -/
def State.markVersion (s : State) (g v : Nat) : State :=
  ({ s with wts := { s.wts with genVersion := (s.wts.genVersion.filter fun x => !decide (x.1 = g % 2)) ++ [(g % 2, v)] } } : State).keepWord
    (kwVersion g) (kwMark (some v))

/-- The chain of records: the next record_seq and the hash of the last slot (R58). -/
def State.keepChain (s : State) : State :=
  (s.keepWord kwSeq (BitVec.ofNat 64 s.job.recordSeq)).keepWords kwHash (wordsOf (padTo 32 s.job.lastHash))

/-- The version pointers, each with its mark, state and root (R267). -/
def State.keepPointers (s : State) : State :=
  let w := s.wts
  let root (k : Nat) : Word := s.peek .infMod 0 (Reg.INF_STAGE_ROOT + 8 * k)
  let s := s.keepWords kwActive (kwMark w.active :: wordsOf (padTo 32 w.activeRoot))
  let s := s.keepWords kwStage (s.peek .infMod 0 Reg.INF_STAGE :: (List.range 4).map root)
  s.keepWords kwPrior (kwMark w.prior :: wordsOf (padTo 32 w.priorRoot))

/-- The state and step of the copy held (R512). -/
def State.keepHold (s : State) : State := s.keepWord kwHold (s.peek .ckpMod 0 Reg.CKP_BUDDY_HOLD)

/-- The buddy map. -/
def State.keepBuddy (s : State) : State :=
  let b := s.blend.buddy
  s.keepWord kwBuddy (mkWord [(b.sendRank, 0), (b.holdRank, 16), (b.sendPort, 32), (b.holdPort, 36), (b2n b.hasSend, 40),
    (b2n b.hasHold, 41), (b2n b.writer, 42), (b.replicaGroup, 48)])

/-- The head of the checkpoint manifests: the steps of the complete checkpoints in slots 0 and 1. -/
def State.keepCkp (s : State) : State := s.keepWords kwCkp ((List.range 2).map fun k => kwMark (nth none s.ckp.goodSlots k))

/-- A set of epochs as four words, epoch e at bit e (R289). -/
def epochWords (es : List Nat) : List Word :=
  let m := es.eraseDups.foldl (fun a e => a + 2 ^ e) 0
  (List.range 4).map fun k => BitVec.ofNat 64 (m / 2 ^ (64 * k))

/-- The set of epochs held for a group; a Sip group's under 256 + its number (R289). -/
def State.keepEpochs (s : State) (k : Nat) : State := s.keepWords (kwEpochs k) (epochWords (Smap.get [] s.coll.epochs k))

/-- Words of the member table of a group. -/
def GroupCfg.tableWords (g : GroupCfg) : List Word :=
  (chunksOf 2 g.members).map fun ms => mkWord (ms.zipIdx.map fun m => (m.1.rank + 0x10000 * (m.1.board + 0x4000 * m.1.position), 32 * m.2))

/-- Where the member table of a group begins: after those of the groups below it. -/
def State.tableAt (s : State) (n : Nat) : Nat :=
  (s.coll.groups.filter fun g => decide (g.1 < n)).foldl (fun a g => a + (g.2.cfg.members.length + 1) / 2) kwTables

/-- The members of a group and its epoch (R309 step 1). -/
def State.keepGroup (s : State) (n : Nat) : State :=
  match Smap.get? s.coll.groups n with
  | none => s
  | some g =>
    (s.keepWord (kwGroup n) (mkWord [(g.epoch, 0), (g.cfg.members.length - 1, 8), (g.cfg.job, 32), (1, 63)])).keepWords (s.tableAt n)
      g.cfg.tableWords

/-- The epoch of a Sip group. -/
def State.keepSip (s : State) (n : Nat) : State :=
  match Smap.get? s.coll.sips n with
  | none => s
  | some g => s.keepWord (kwGroup (256 + n)) (mkWord [(g.epoch, 0), (g.job, 32), (1, 63)])

end Sys2Proof.Machine
end

