-- ==== Sys2Proof/Machine/Keccak.lean ====
section
/-! DEFINITION. SHAKE256 of FIPS 202, the one hash of the manual (R542). The state is five planes of five lanes; the
rotation offsets and the round constants are generated as FIPS 202 defines them, by the walk of ρ and the register of ι. -/

namespace Sys2Proof.Machine

/-- A plane: the five lanes of one y, x rising. -/
abbrev Plane := List Word

/-- The XOR of two planes, lane by lane. -/
def planeXor (p q : Plane) : Plane := List.zipWith (fun u v => u ^^^ v) p q

/-- The plane whose lane x is lane x + n of `p`. -/
def turned (n : Nat) (p : Plane) : Plane := p.drop n ++ p.take n

/-- θ: each lane takes the parities of the column at x - 1 and of the column at x + 1 one bit on. -/
def thetaStep (a : List Plane) : List Plane :=
  let parity := a.foldl planeXor (List.replicate 5 0)
  let effect := planeXor (turned 4 parity) ((turned 1 parity).map fun w => w.rotateLeft 1)
  a.map (planeXor effect)

/-- The lanes ρ visits from `p`, in their order: from (x, y) it goes to (y, 2x + 3y). -/
def rhoWalk : Nat → Nat × Nat → List (Nat × Nat)
  | 0, _ => []
  | n + 1, p => p :: rhoWalk n (p.2, (2 * p.1 + 3 * p.2) % 5)

/-- The rotation of lane (x, y): (t + 1)(t + 2) / 2 for the lane the walk visits at t, none for lane (0, 0). -/
def rhoOffset (x y : Nat) : Nat :=
  match (rhoWalk 24 (1, 0)).idxOf? (x, y) with
  | some t => (t + 1) * (t + 2) / 2 % 64
  | none => 0

/-- ρ: every lane turned by its offset. -/
def rhoStep (a : List Plane) : List Plane :=
  a.mapIdx fun y p => p.mapIdx fun x w => w.rotateLeft (rhoOffset x y)

/-- π: lane (x, y) comes from lane (x + 3y, x). -/
def piStep (a : List Plane) : List Plane :=
  (List.range 5).map fun y => (List.range 5).map fun x => nth 0 (nth [] a x) ((x + 3 * y) % 5)

/-- χ on one plane. -/
def chiPlane (p : Plane) : Plane :=
  planeXor p (List.zipWith (fun u v => ~~~u &&& v) (turned 1 p) (turned 2 p))

/-- One step of ι's register: x⁸ + x⁶ + x⁵ + x⁴ + 1. -/
def iotaNext (r : Nat) : Nat := if r < 128 then 2 * r else (2 * r) ^^^ 0x171

/-- A round's constant from ι's register, and the register after its seven bits: bit j of the seven lies at 2^j - 1. -/
def iotaConst (r : Nat) : Word × Nat :=
  (List.range 7).foldl (fun c j => (if c.2.testBit 0 then c.1 ||| BitVec.twoPow 64 (2 ^ j - 1) else c.1, iotaNext c.2)) (0, r)

/-- ι: the round's constant into lane (0, 0). -/
def iotaStep (k : Word) (a : List Plane) : List Plane := a.modify 0 (fun p => p.modify 0 (fun w => w ^^^ k))

/-- `n` rounds from ι's register `r`. -/
def spongeRounds : Nat → Nat → List Plane → List Plane
  | 0, _, a => a
  | n + 1, r, a =>
    let c := iotaConst r
    spongeRounds n c.2 (iotaStep c.1 ((piStep (rhoStep (thetaStep a))).map chiPlane))

/-- Take a block of 136 bytes into the state and permute it by the 24 rounds. -/
def takeBlock (a : List Plane) (block : List Byte) : List Plane :=
  let lanes := (List.range 25).map fun i => BitVec.ofNat 64 (leAt block (8 * i) 8)
  spongeRounds 24 1 (List.zipWith planeXor a (chunksOf 5 lanes))

/-- The message with the SHAKE suffix and padding, a multiple of 136 bytes. -/
def shakePad (msg : List Byte) : List Byte :=
  let r := msg.length % 136
  if r = 135 then msg ++ [0x9F]
  else msg ++ [0x1F] ++ zeros (134 - r) ++ [0x80]

/-- SHAKE256 with 256-bit output, its first four lanes; byte 0 lies in the lowest eight bits (R542). -/
def shake256 (msg : List Byte) : Hash :=
  let a := (chunksOf 136 (shakePad msg)).foldl takeBlock (List.replicate 5 (List.replicate 5 0))
  BitVec.ofNat 256 (ofLe (a.flatten.take 4 |>.flatMap fun w => leBytes 8 w.toNat))

/-- The 32 bytes of a hash. -/
def hashBytes (h : Hash) : List Byte := leBytes 32 h.toNat

end Sys2Proof.Machine
end

