-- ==== Sys2Proof/Machine/StepEnd.lean ====
section
/-! DEFINITION. How a step ends: the cut of the cupping record (R49 to R56), and a step that ends FAILED or ABANDONED (R496,
R497). -/

namespace Sys2Proof.Machine

/-- The causes of R484. -/
def csTile : Nat := 0x01
def csStore : Nat := 0x02
def csVote : Nat := 0x03
def csNoSpare : Nat := 0x04
def csDma : Nat := 0x05
def csMemory : Nat := 0x06
def csUrn : Nat := 0x07
def csWeight : Nat := 0x08
def csReduce : Nat := 0x09
def csSip : Nat := 0x0A
def csProgram : Nat := 0x0B
def csThermal : Nat := 0x0C
def csReset : Nat := 0x0D
def csDrain : Nat := 0x0E
def csMesh : Nat := 0x0F
def csPort : Nat := 0x10
def csStack : Nat := 0x11
def csMember : Nat := 0x12
def csSign : Nat := 0x13
def csSelfTest : Nat := 0x14

/-- The epoch of the lowest-numbered reduction group that has this module as a member; 0 without one (R51). -/
def State.recordEpoch (s : State) : Nat :=
  match s.coll.groups.find? fun g => g.2.cfg.members.any fun m => decide (m.rank = s.blend.rank) with
  | some g => g.2.epoch
  | none => 0

/-- Format and scale code in force for a layer (R213). -/
def State.layerChoice (s : State) (l : Nat) : Nat × Nat :=
  let w := s.peek .govMod 0 (Reg.GOV_LAYER + 8 * l)
  (fld w 3 0, fld w 23 16)

/-- GOV_CTRL.layers (R210). -/
def State.layers (s : State) : Nat := s.rfield .govMod 0 Reg.GOV_CTRL 12 0

/-- The input of formats_digest (R56): 4 bytes a layer. -/
def State.formatBytes (s : State) : List Byte :=
  (List.range s.layers).flatMap fun l =>
    let c := s.layerChoice l
    leBytes 2 l ++ leBytes 1 c.1 ++ leBytes 1 c.2

/-- Layers whose gradient format has code `f`. -/
def State.layersIn (s : State) (f : Nat) : Nat := (below s.layers fun l => decide ((s.layerChoice l).1 = f)).length

/-- The flags of a record (R55). -/
def State.recordFlags (s : State) : Nat :=
  b2n (!s.rflag .timMod 0 Reg.TIM_STATUS 0) + 2 * b2n s.record.saturated + 8 * b2n (decide (s.health = 1)) +
  16 * b2n s.record.ckpWritten + 32 * b2n s.record.restored + 64 * b2n s.record.rolledBack + 128 * b2n s.record.thermal

/-- One counter class of the body (R52). -/
def classBytes (c : List Nat) : List Byte :=
  leBytes 8 (nth 0 c 0) ++ leBytes 4 (nth 0 c 1) ++ leBytes 4 (nth 0 c 2) ++ leBytes 4 (nth 0 c 3)

/-- The 32 bytes at a register of four words. -/
def State.hashReg (s : State) (b : RBlk) (o : Nat) : List Byte :=
  (List.range 4).flatMap fun i => leBytes 8 (s.peek b 0 (o + 8 * i)).toNat

/-- The record body at a cut (R51), with prev_hash still zero: it is filled in when the record is signed. -/
def State.recordBody (s : State) (outcome : Nat) (st : Status) : List Byte :=
  let vs := s.record.versions
  let first := match vs with | [] => 0 | v :: _ => v.1
  let last := match vs.getLast? with | none => 0 | some v => v.1
  leBytes 4 0x50554343 ++ leBytes 1 1 ++ leBytes 1 1 ++ leBytes 2 s.job.id ++ leBytes 8 s.job.step ++ leBytes 8 s.now ++
  leBytes 4 s.job.recordSeq ++ leBytes 2 s.blend.rank ++ leBytes 1 s.recordEpoch ++
  leBytes 1 (outcome + 16 * (if outcome = 2 then st.code else 0)) ++ zeros 32 ++ s.hashReg .cfgMod Reg.CFG_CHECK ++
  hashBytes (shake256 Config.identityKey) ++
  hashBytes (shake256 (vs.flatMap fun v => leBytes 4 v.1 ++ padTo 32 v.2)) ++ leBytes 4 first ++ leBytes 4 last ++
  leBytes 2 vs.length ++ leBytes 2 s.recordFlags ++ leBytes 4 s.record.published ++
  (if outcome = 1 then hashBytes (shake256 ((s.job.sliceHashes.filter fun h => !h.isEmpty).flatMap (padTo 32))) else zeros 32) ++
  hashBytes (shake256 s.formatBytes) ++ leBytes 2 (s.layersIn 3) ++ leBytes 2 (s.layersIn 4) ++ leBytes 2 (s.layersIn 1) ++
  leBytes 2 (s.rfield .engMod 0 Reg.ENG_TAU 41 32) ++ leBytes 8 s.job.dataPos ++ (s.record.cls.flatMap classBytes) ++
  leBytes 4 s.record.resends ++ leBytes 4 s.record.foreign ++ leBytes 2 s.spares ++ leBytes 1 s.health ++ zeros 5

/-- The counters of the module-level blocks, as the snapshot image keeps them (R586). -/
def State.counterImage (s : State) : Smap Word := Smap.keep (fun a _ => decide (a < 0x200100000000)) s.regs

/-- The step and the record number of a record come from their critical words (R51, R58). -/
def State.readCounts (s : State) : State :=
  let n := s.votedWord kwStep (BitVec.ofNat 64 s.job.step)
  let q := n.2.2.votedWord kwSeq (BitVec.ofNat 64 s.job.recordSeq)
  let s : State := q.2.2
  let s : State := { s with job := { s.job with step := n.2.1.toNat, recordSeq := q.2.1.toNat % 2 ^ 32 } }
  if n.1 ∨ q.1 then s.faultLog csMemory lvReform .dataErr 0 else s

/-- The cut (R49): the window closes, a record body is formed and waits for its signature, the counters are copied, and
every core latches its check counters (R168). -/
def State.cut (s : State) (outcome : Nat) (st : Status) : State :=
  let s := s.readCounts
  let slot : RingSlot :=
    { recordSeq := s.job.recordSeq, slot := s.record.nextSlot, body := s.recordBody outcome st, signed := false, tries := 0
      evt := 0, acked := false, stored := false }
  State.keepChain { s with
    cores := s.cores.map fun e => (e.1, { e.2 with latch := e.2.checks })
    record := { Rec.empty with slots := s.record.slots ++ [slot], nextSlot := (s.record.nextSlot + 1) % 64 }
    snap := s.counterImage
    snapHead := leBytes 8 s.job.step ++ leBytes 8 s.now ++ leBytes 4 s.job.recordSeq ++ zeros 12
    job := { s.job with recordSeq := s.job.recordSeq + 1 }
    mgt := { s.mgt with lastOutcome := outcome } }

/-- STEP_END to the host, and the STEP trace record (R416, R588). -/
def State.stepEnd (s : State) (outcome : Nat) (st : Status) : State :=
  let body := leBytes 8 s.job.step ++ leBytes 1 outcome ++ leBytes 1 st.code
  (s.hostEvent evStepEnd body).trace 2 0xFF 7 0 body

/-- A core stops issue as under a drain (R132, R497): it is DRAINED once nothing it issued remains. -/
def Core.stop (c : Core) : Core :=
  match c.st with
  | .running | .waiting | .ready =>
    { c with st := if c.queues.all (·.isEmpty) then .drained else .draining, waits := .none }
  | _ => c

/-- A core stops; one with nothing in its queues reports DRAINED at once. -/
def State.stopCore (s : State) (i : Nat) : State :=
  let c := s.core i
  let s := s.setCore i c.stop
  if c.stop.st = .drained ∧ c.st ≠ .drained then s.raise .seqCore i Reg.SEQ_EVENT 5 else s

/-- Every core stops. -/
def State.stopCores (s : State) : State := (s.cores.map (·.1)).foldl State.stopCore s

/-- A step ends FAILED (R496), or a failure is logged while no step runs. -/
def State.stepFail (s : State) (cause level : Nat) (st : Status) (item : Nat) : State :=
  let s := s.faultLog cause level st item
  if s.job.st = .running then
    let s := (s.cut 2 st).stepEnd 2 st
    let s := (s.add .topMod 0 Reg.TOP_STEP_FAILS 1).raise .topMod 0 Reg.TOP_FAULT_EVENT 4
    ({ s with job := { s.job with st := .stopped } }).mgtAlert 2 7 cause
  else s.mgtAlert 2 7 cause

/-- What a critical word holds, `held` standing for it where none is delivered. DATA_ERR ends the step FAILED, and no step starts before
orders (R484). -/
def State.known (s : State) (w : Nat) (held : Word) : Word × State :=
  let r := s.votedWord w held
  (r.2.1, if r.1 then
      let s := r.2.2.stepFail csMemory lvReform .dataErr 0
      if s.job.isOpen then { s with job := { s.job with st := .stopped } } else s
    else r.2.2)

/-- Whether a group has held an epoch, read from the set kept (R289). -/
def State.epochKept (s : State) (k e : Nat) : Bool × State :=
  let i := e / 64 % 4
  let r := s.known (kwEpochs k + i) (nth 0 (epochWords (Smap.get [] s.coll.epochs k)) i)
  (r.1.getLsbD (e % 64), r.2)

/-- Whether generation area (k mod 2) holds the complete state of step `k`, read from the area's word (R510). -/
def State.holdsStep (s : State) (k : Nat) : Bool × State :=
  let r := s.known (kwArea k) (kwMark (nth none s.ckp.area (k % 2)))
  (decide (r.1 = kwMark (some k)), r.2)

/-- A running step ends ABANDONED (R54): its record is cut and its cores stop. -/
def State.abandonStep (s : State) : State :=
  if s.job.st = .running then
    let s := ((s.cut 3 .ok).stepEnd 3 .ok).stopCores
    { s with job := { s.job with st := .stopped } }
  else s

end Sys2Proof.Machine
end

