-- ==== Sys2Proof/Machine/CoreOps.lean ====
section
/-! DEFINITION. What every instruction of a core shares: the tile store, tokens, exceptions (R170), the fence of a core (R39),
issue (R127, R134), completion (R129), drain and end (R132). -/

namespace Sys2Proof.Machine

/-! ## Check events of a core -/

/-- Count check events of core `i` in class `k`, and in the counters CHKRD reports (R53, R168). -/
def State.checkAt (s : State) (i k p f r e : Nat) : State :=
  let s := s.check k p f r e
  let c := s.core i
  let here : List Nat := if k = cTile then [p, f, r] else if k = cVec then [0, 0, 0, p, f, r] else [0, 0, 0, 0, 0, 0, f]
  s.setCore i { c with checks := (List.range 7).map fun n => nth 0 c.checks n + nth 0 here n }

/-! ## Tile stores (R33, R94) -/

def tileBase (i : Nat) : Nat := 0x100000000000 + i * 0x1000000

/-- Bytes of a tile store. -/
def tileBytes : Nat := 0x800000

/-- `n` bytes at `a` lie in the populated window of core `i`. -/
def ownRange (i a n : Nat) : Bool := decide (tileBase i ≤ a) && decide (a + n ≤ tileBase i + tileBytes)

/-- The byte of the module address space at `a`, as plain storage. -/
def State.byteAt (s : State) (a : Nat) : Byte := Smap.get 0 s.mem a

/-- Write bytes of a tile store: a write-back waiting for one of the words is cancelled (R114). -/
def State.tsWrite (s : State) (i a : Nat) (bs : List Byte) : State :=
  let c := s.core i
  let hit (w : Nat) : Bool :=
    decide (a < tileBase i + 4 * w + 4) && decide (tileBase i + 4 * w < a + bs.length)
  let s := if c.writeback.any hit then s.setCore i { c with writeback := c.writeback.filter fun w => !hit w } else s
  { s with mem := putBytes s.mem a bs }

/-- Words of a tile store that `n` bytes at `a` touch. -/
def wordsIn (a n : Nat) : Nat := (n + a % 4 + 3) / 4

/-- Tile-store corrections in the current second of the timebase: past the limit the module is DEGRADED (R499). -/
def State.tsCorrections (s : State) (n : Nat) : State :=
  let sec := s.now / 1000000000
  let k := (if s.tsRate.1 = sec then s.tsRate.2 else 0) + n
  let s := { s with tsRate := (sec, k) }
  if s.rfield .topMod 0 Reg.TOP_FAULT_CTRL 47 16 < k then s.degrade 4 else s

/-- Count `n` words read from a core's tile store, those corrected (which wait for their write-back), and a double-bit
error. -/
def State.tsReads (s : State) (i n : Nat) (corrected : List Nat) (double : Bool) : State :=
  let k := corrected.length
  let s := (s.bump .vecCore i Reg.VEC_TS_READS n).checkAt i cStore n (k + b2n double) k (b2n double)
  let s := if k = 0 then s else
    let c := s.core i
    let t := ((s.setCore i { c with writeback := c.writeback ++ corrected }).bump .vecCore i Reg.VEC_TS_CORRECTED k).raise
      .vecCore i Reg.VEC_EVENT 3
    t.tsCorrections k
  if double then (s.bump .vecCore i Reg.VEC_TS_DOUBLE 1).raise .vecCore i Reg.VEC_EVENT 4 else s

/-! ## Tokens and exceptions -/

/-- The tokens an instruction word takes when it issues: its wait field, and the count of WAIT (R130, R146). -/
def tokenNeeds (w : BitVec 128) : List (Nat × Nat) :=
  (if iWaitEn w then [(iWait w, 1)] else []) ++
  (if iOpcode w = 0x08 then [(iFunc w % 16, iImm w % 65536)] else [])

/-- The count an instruction word takes from token `t`. -/
def needOf (w : BitVec 128) (t : Nat) : Nat := ((tokenNeeds w).filter fun n => decide (n.1 = t)).foldl (fun a n => a + n.2) 0

/-- Every token holds what the word takes. -/
def tokensMet (tok : List Nat) (w : BitVec 128) : Bool := (tokenNeeds w).all fun n => decide (needOf w n.1 ≤ nth 0 tok n.1)

/-- The tokens after the word has issued. -/
def takeTokens (tok : List Nat) (w : BitVec 128) : List Nat := (List.range 16).map fun t => nth 0 tok t - needOf w t

/-- The word at a core's program counter. -/
def Core.word (c : Core) : BitVec 128 := nth 0 c.prog c.pc

/-- The cause and level of an instruction that ends non-OK (R484). `area`: the operand in error lies where rollback would
read it again, or, for RXWAIT, the status is the reduction's own. DEDUCED for a status no row names: cause PROGRAM, level ROLLBACK. -/
def excCause (word : BitVec 128) (st : Status) (area : Bool) : Nat × Nat :=
  match Op.ofCode (iOpcode word), st with
  | some .smm, .dataErr => (csUrn, lvRollback)
  | some .smmt, .dataErr => (csUrn, lvRollback)
  | some .smm, .unavailable => (csUrn, lvRollback)
  | some .smmt, .unavailable => (csUrn, lvRollback)
  | some .urnmerge, .unavailable => (csUrn, lvRollback)
  | _, .dataErr => if iOpcode word = 0x41 then (csReduce, lvOperator) else (csMemory, if area then lvReform else lvRollback)
  | some .rxwait, .malformed => (if area then csReduce else csProgram, lvOperator)
  | some .sipred, _ => (csSip, lvRollback)
  | some .copy, .checkFail => (csDma, lvRollback)
  | some .copy, .timeout => (csDma, lvRollback)
  | some .copyh, .checkFail => (csDma, lvRollback)
  | some .copyh, .timeout => (csDma, lvRollback)
  | some .wreq, .unavailable => (csWeight, lvRollback)
  | some .wreq, .checkFail => (csDma, lvRollback)
  | some .publish, .unavailable => (csWeight, lvRollback)
  | some .rxwait, .checkFail => (csReduce, lvRollback)
  | some .rxwait, .timeout => (csReduce, lvRollback)
  | some .rxwait, .unavailable => (csReduce, lvRollback)
  | some .mmrs, .unavailable => (csReduce, lvRollback)
  | some .wgbrs, .unavailable => (csReduce, lvRollback)
  | some .sdwrs, .unavailable => (csReduce, lvRollback)
  | some .vrs, .unavailable => (csReduce, lvRollback)
  | some .smm, .checkFail => (csUrn, lvRollback)
  | some .smmt, .checkFail => (csUrn, lvRollback)
  | some .urnmerge, .checkFail => (csUrn, lvRollback)
  | _, .malformed => (csProgram, lvOperator)
  | _, .denied => (csProgram, lvOperator)
  | _, .version => (csProgram, lvOperator)
  | _, _ => (csProgram, lvRollback)

/-- SEQ_EXC (R178). -/
def excWord (seq pc src : Nat) (st : Status) : Word :=
  mkWord [(seq % 2 ^ 32, 32), (pc, 16), (src, 8), (st.code, 4), (1, 0)]

/-- An exception (R170): the core stops issue, records the instruction if it is the step's first, and the step ends FAILED.
`src` is the queue, or 4 for the sequencer. -/
def State.exception (s : State) (i src : Nat) (word : BitVec 128) (pc seq : Nat) (st : Status) (area : Bool) : State :=
  let c := s.core i
  let w := excWord seq pc src st
  let s := s.raise .seqCore i Reg.SEQ_EVENT 0
  let put (s : State) (b : RBlk) (k : Nat) : State :=
    ((s.poke b k Reg.SEQ_EXC w).poke b k Reg.SEQ_EXC_WORD_LO (BitVec.ofNat 64 (fld word 63 0))).poke b k Reg.SEQ_EXC_WORD_HI
      (BitVec.ofNat 64 (fld word 127 64))
  let s :=
    if c.excValid then s.bump .seqCore i Reg.SEQ_EXC_LOST 1
    else
      let s := put s .seqCore i
      let s := if s.rflag .seqMod 0 Reg.SEQ_EXC 0 then s
        else (put s .seqMod 0).poke .seqMod 0 Reg.SEQ_EXC_CORE (BitVec.ofNat 64 i)
      (s.hostEvent evException (leBytes 2 i ++ zeros 6 ++ leBytes 8 w.toNat)).trace 3 3 (coreDie i) i (leBytes 8 w.toNat)
  let s := s.setCore i { s.core i with excValid := true, st := .exception, waits := .none }
  let k := excCause word st area
  s.stepFail k.1 k.2 st i

/-- Add to a token (R130): past 65,535 it stays there and the core raises an exception. The rules name no failing instruction for it:
SEQ_EXC takes the word at the core's program counter, source 4 and the present SEQ_INSTRS (DESIGN CHOICE, log entry 103). -/
def State.addToken (s : State) (i t n : Nat) : State :=
  let c := s.core i
  let v := nth 0 c.tok t + n
  let tok := setNth c.tok t (min v 65535)
  let wake := decide (c.waits = .token t) && tokensMet tok c.word
  let s := s.setCore i { c with
    tok := tok
    st := if wake then .running else c.st
    waits := if wake then .none else c.waits }
  if v ≤ 65535 then s
  else (s.raise .seqCore i Reg.SEQ_EVENT 4).exception i 4 c.word c.pc (s.peek .seqCore i Reg.SEQ_INSTRS).toNat .malformed false

/-! ## The fence of a core -/

/-- The spare that would take over a core of cluster `c`: its own, or one borrowed from c xor 1 or c xor 2 (R103, R485). -/
def State.spareFor (s : State) (c : Nat) : Option (Nat × Bool) :=
  let free (n : Nat) : Option Nat :=
    let k := xbarSpare (s.xbar n)
    let i := coreIdx n k
    if k < 12 ∧ ¬ (s.core i).fenced ∧ (s.core i).powered then some i else none
  match free c with
  | some i => some (i, false)
  | none =>
    if xbarBorrowed (s.xbar c) then none
    else
      let try' (x : Nat) : Option Nat :=
        let n := 4 * (c / 4) + (c % 4 ^^^ x)
        if xbarLent (s.xbar n) then none else free n
      match try' 1 with
      | some i => some (i, true)
      | none => (try' 2).map fun i => (i, true)

/-- The core's work in the step is not over: it holds a program and a step runs in which it has not ended. -/
def State.coreBusy (s : State) (i : Nat) : Bool :=
  let c := s.core i
  decide (s.job.st = .running) && c.hasProg && !decide (c.st = .ended) && !decide (c.st = .drained)

/-- An instruction sends its results to the Urn (R226). -/
def urnBound (w : BitVec 128) : Bool := decide (iOpcode w = 0x28 ∨ iOpcode w = 0x29) && decide (iFunc w % 2 = 1)

/-- An instruction runs by tile passes. -/
def passOp (w : BitVec 128) : Bool :=
  match Op.ofCode (iOpcode w) with
  | some .mm | some .mmw | some .mmrs | some .smm | some .smmt | some .sdwrs | some .pred | some .smmp => true
  | _ => false

/-- A finished tile of MMRS or SDWRS waits for its Samovar. -/
def QEntry.offered (e : QEntry) : Bool := decide (e.aux = 1) && decide (iOpcode e.word = 0x22 ∨ iOpcode e.word = 0x2A)

/-- A checked tile of the instruction waits for its addition into the Urn to be computed again (R238). -/
def QEntry.urnAgain (e : QEntry) : Bool := urnBound e.word && decide (e.aux = 2)

/-- Transfers end: what is recorded of their lost data flits is recovered if they ended well, and escalated otherwise (R53). -/
def State.lostEnd (s : State) (f : Nat × Nat → Bool) (ok : Bool) : State :=
  let lost := (s.meshLost.filter f).length
  if lost = 0 then s
  else { s.check cFlit 0 0 (if ok then lost else 0) (if ok then 0 else lost) with meshLost := s.meshLost.filter fun x => !f x }

/-- Data flits lost for transfer `n` of core `i` are resolved: recovered if the transfer ended OK, otherwise escalated (R53). -/
def State.meshEnd (s : State) (i n : Nat) (ok : Bool) : State := s.lostEnd (fun f => decide (f = (i, n))) ok

/-- A name for the source of the multicast transfers on one tree: its root die and number. -/
def treeSource (die tree : Nat) : Nat := 16384 + 64 * die + tree

/-- Failures of a core's work that nothing will recover any more count as escalated (R43, R52): of the engine, the tile awaiting its
replay, one failed in the other bank, and an addition into the Urn to be recomputed; the vector instruction with a failed beat;
the transfer that failed its CRC-32C and the flits lost for it. -/
def State.giveUp (s : State) (i : Nat) : State :=
  let c := s.core i
  let head (q : Nat) : List QEntry := (nth [] c.queues q).take 1
  let tiles := ((head 0).map fun e => b2n e.replaying + b2n (decide (e.ahead = .failed)) + b2n e.urnAgain).sum
  let vecs := ((head 1).map fun e => e.aux % 2).sum
  let dmas := ((head 2).map fun e => b2n (decide (16 ≤ e.aux))).sum
  let s := if tiles = 0 then s else s.checkAt i cTile 0 0 0 tiles
  let s := if vecs = 0 then s else s.checkAt i cVec 0 0 0 vecs
  let s := if dmas = 0 then s else s.check cDma 0 0 0 dmas
  let s := if (head 2).isEmpty then s else s.meshEnd i (c.xfer % 65536) false
  let c := s.core i
  let still (e : QEntry) : QEntry :=
    if e.urnAgain then { e with acc := [], aux := 0, replaying := false, ahead := .none } else { e with replaying := false, ahead := .none }
  let first (q : Nat) (f : QEntry → QEntry) (qs : List (List QEntry)) : List (List QEntry) :=
    modNth qs q fun l => l.take 1 |>.map f |>.append (l.drop 1)
  s.setCore i { c with queues := first 0 still (first 1 (fun e => { e with aux := e.aux / 2 * 2, replaying := false })
    (first 2 (fun e => { e with aux := 0 }) c.queues)) }

/-- A fenced spare is no spare in service (R120). -/
def State.dropSpare (s : State) (i : Nat) : State :=
  let h := coreCluster i
  if xbarSpare (s.xbar h) = coreVal i then s.poke .topCluster h Reg.TOP_XBAR_CFG (setFld (s.xbar h) 3 0 15) else s

/-- A core is fenced (R39, R484): it issues nothing more, and failures of its that await recovery are escalated. Its program is for a spare to take over, by SPARE_TAKEOVER; its arrival
at a barrier stands (R147). With no spare, health becomes FAILED. After a double-bit error or a vote without majority there is no migration, and the step ends
FAILED. -/
def State.fenceCore (s : State) (i cause : Nat) : State :=
  let c := s.core i
  if c.fenced then s
  else
    let s := (s.giveUp i).dropSpare i
    let c := s.core i
    let busy := s.coreBusy i
    let noMig := decide (cause = csStore) || decide (cause = csVote)
    let s := (s.setCore i { c with fenced := true, waits := if c.waits = .barrier then .barrier else .none, noMigrate := noMig, fencedAt := s.now })
    if ¬ c.hasProg then
      (s.faultLog cause (if cause = csSelfTest then lvNone else lvSpare) .ok i).checkSpares
    else
      let st : Status := if cause = csStore then .dataErr else .checkFail
      match s.spareFor (s.homeCluster i) with
      | none => ((s.failHealth 3).stepFail csNoSpare lvOperator st i)
      | some _ =>
        let s := if noMig ∧ busy then s.stepFail cause lvRollback st i
          else s.faultLog cause (if noMig then lvRollback else lvSpare) (if noMig then st else .ok) i
        s.checkSpares

/-- One more recovered failure in the step, beside `pending` still being replayed, would exceed ENG_CTRL.fail_limit: the core is to be
fenced and the failure escalates (R40). -/
def State.overLimit (s : State) (i pending : Nat) : Bool :=
  decide (s.rfield .engMod 0 Reg.ENG_CTRL 15 8 < (s.core i).recovered + pending + 1)

/-! ## End and drain -/

/-- A core whose queues are empty reports ENDED or DRAINED (R132). -/
def State.settle (s : State) (i : Nat) : State :=
  let c := s.core i
  if ¬ c.queues.all (·.isEmpty) ∨ c.fenced then s
  else match c.st with
    | .draining => (s.setCore i { c with st := .drained }).raise .seqCore i Reg.SEQ_EVENT 5
    | .running => if c.ending then s.setCore i { c with st := .ended } else s
    | _ => s

/-! ## Issue -/

/-- The governor's choice of format for a layer (R141). -/
def State.govFormat (s : State) (l : Nat) : Option Fmt :=
  if l < s.layers then Fmt.ofCode (s.layerChoice l).1 else none

/-- A working-copy descriptor entry of a core. -/
def Core.entryOf (c : Core) (e : Nat) : BitVec 256 := Smap.get 0 c.work e

/-- The entries an instruction copies at issue: dst, src0, src1, src2, and the streaming copy of ADAMW and SGDM. -/
def Core.copies (c : Core) (op : Op) (w : BitVec 128) : List (BitVec 256) :=
  [c.entryOf (iDst w), c.entryOf (iSrc0 w), c.entryOf (iSrc1 w), c.entryOf (iSrc2 w)] ++
  (if op = .adamw ∨ op = .sgdm then [c.entryOf (iImm w % 256)] else [])

/-- Voted reads of an issue (R37): the program word, the descriptor entries it names, and the tokens it waits on. -/
def votedReads (op : Op) (w : BitVec 128) : Nat :=
  let u := usesOf op w
  1 + b2n u.dst + b2n u.src0 + b2n u.src1 + b2n u.src2 + b2n ((decide (op = .adamw) || decide (op = .sgdm)) && flag w 72) +
    ((tokenNeeds w).map (·.1)).eraseDups.length

/-- Count the voted reads of an issue. -/
def State.countVotes (s : State) (i n : Nat) (v : Vote) : State :=
  let s := s.bump .seqCore i Reg.SEQ_VOTE_READS n
  match v with
  | .agree => s.check cVote n 0 0 0
  | .majority => ((s.check cVote n 1 1 0).bump .seqCore i Reg.SEQ_VOTE_DISAGREE 1).raise .seqCore i Reg.SEQ_EVENT 2
  | .noMajority => ((s.check cVote n 1 0 1).bump .seqCore i Reg.SEQ_VOTE_DISAGREE 1).raise .seqCore i Reg.SEQ_EVENT 2

/-- A core can issue: it runs or waits, has not executed END, and is in service. -/
def State.canIssue (s : State) (i : Nat) : Bool :=
  let c := s.core i
  isCore i && c.hasProg && !c.fenced && !c.ending && decide (c.pc < c.prog.length) &&
  (decide (c.st = .running) || decide (c.st = .waiting))

/-- The instruction at the program counter issues: tokens taken, counters, the next program counter. A next instruction
outside the program is MALFORMED at this one (R143). Answers whether the next lies in the program. -/
def State.advance (s : State) (i next : Nat) : Bool × State :=
  let c := s.core i
  let ok := decide (next < c.prog.length)
  let s := s.setCore i { c with tok := takeTokens c.tok c.word, pc := next % 16384, st := .running, waits := .none }
  (ok, s.bump .seqCore i Reg.SEQ_INSTRS 1)

/-- SEQ_INSTRS of a core. -/
def State.instrs (s : State) (i : Nat) : Nat := (s.peek .seqCore i Reg.SEQ_INSTRS).toNat

/-- A sequencer instruction completes with a status, the program counter going to `next`. -/
def State.seqDone (s : State) (i : Nat) (st : Status) (next : Nat) : State :=
  let c := s.core i
  let w := c.word
  let r := s.advance i next
  let st := if r.1 then st else st.join .malformed
  if st = .ok then (if iSignalEn w then r.2.addToken i (iSignal w) 1 else r.2)
  else r.2.exception i 4 w c.pc (r.2.instrs i) st false

/-- The common part of every issue (R127, R134): `op` is the row's opcode. The state is unchanged where the word at the
program counter is another instruction; a vote without majority fences the core; a word with a field it must not use is
MALFORMED; an unmet wait holds issue; otherwise `run` issues it. -/
def State.issueWith (s : State) (op : Op) (i : Nat) (o : IssueObs) (run : State → State) : State :=
  let c := s.core i
  if ¬ s.canIssue i ∨ Op.ofCode (iOpcode c.word) ≠ some op then s
  else if o.vote = .noMajority then (s.countVotes i (votedReads op c.word) .noMajority).fenceCore i csVote
  else if ¬ wordClean (usesOf op c.word) c.word then
    let s := s.countVotes i (votedReads op c.word) o.vote
    match op.queue with
    | none => s.seqDone i .malformed (c.pc + 1)
    | some q =>
      let r := s.advance i (c.pc + 1)
      r.2.exception i q c.word c.pc (r.2.instrs i) .malformed false
  else if ¬ tokensMet c.tok c.word then
    let t := ((tokenNeeds c.word).find? fun n => decide (nth 0 c.tok n.1 < needOf c.word n.1)).map (·.1)
    s.setCore i { c with st := .waiting, waits := .token (t.getD 0) }
  else run (s.countVotes i (votedReads op c.word) o.vote)

/-- The instruction at the program counter goes to its queue: entries copied, with the status its check gives it (R126,
R127). -/
def State.enqueue (s : State) (op : Op) (check : State → Nat → BitVec 128 → List (BitVec 256) → Status) (i : Nat) : State :=
  let q := op.queue.getD 0
  let c := s.core i
  let d := c.copies op c.word
  let st := check s i c.word d
  let r := s.advance i (c.pc + 1)
  if r.1 then
    let e : QEntry :=
      { word := c.word, pc := c.pc, seq := r.2.instrs i, d := d, item := 0, acc := [], status := st, replaying := false
        fr := r.2.freeIx, aux := 0, data := [], ahead := .none }
    let s := r.2.setCore i { r.2.core i with queues := modNth (r.2.core i).queues q (· ++ [e]) }
    if q = 1 then s.bump .vecCore i Reg.VEC_INSTRS 1 else s
  else r.2.exception i q c.word c.pc (r.2.instrs i) .malformed false

/-- A queue of 8 has no room (R126). -/
def State.queueFull (s : State) (i q : Nat) : Bool := decide (8 ≤ (nth [] (s.core i).queues q).length)

/-- Issue to a queue: nothing issues while the queue is full. -/
def State.issueQ (s : State) (op : Op) (check : State → Nat → BitVec 128 → List (BitVec 256) → Status) (i : Nat) (o : IssueObs) :
    State :=
  if s.queueFull i (op.queue.getD 0) then s else s.issueWith op i o fun s => s.enqueue op check i

/-! ## Queues -/

/-- The instruction at the head of a queue. -/
def State.headOf (s : State) (i q : Nat) : Option QEntry := (nth [] (s.core i).queues q).head?

/-- Replace the head of a queue. -/
def State.setHead (s : State) (i q : Nat) (e : QEntry) : State :=
  let c := s.core i
  s.setCore i { c with queues := modNth c.queues q fun l => e :: l.tail }

/-- The head of a queue completes with a status (R129): its signal takes effect if it is OK (DEDUCED, log entry 20),
otherwise it raises an exception. A failed pass in the other bank goes with it. -/
def State.retire (s : State) (i q : Nat) (st : Status) (area : Bool) : State :=
  match s.headOf i q with
  | none => s
  | some e =>
    let c := s.core i
    let s := s.setCore i { c with queues := modNth c.queues q List.tail }
    let s := if e.ahead = .failed then s.checkAt i cTile 0 0 0 1 else s
    let s :=
      if st = .ok then (if iSignalEn e.word then s.addToken i (iSignal e.word) 1 else s)
      else s.exception i q e.word e.pc e.seq st area
    s.settle i

/-- A core runs work of its queues: it is in service and powered. -/
def State.coreWorks (s : State) (i : Nat) : Bool := isCore i && !(s.core i).fenced && (s.core i).powered

/-! ## Areas of the memory layout (R442) -/

/-- The kind and offset of the area that holds a module address. Extents of one kind are joined in order. -/
def State.areaOf (s : State) (a : Nat) : Option (Nat × Nat) :=
  let rec go : List Area → Nat → Nat → Option (Nat × Nat)
    | [], _, _ => none
    | x :: xs, kind, off =>
      let off := if x.kind = kind then off else 0
      if x.base ≤ a ∧ a < x.base + x.size then some (x.kind, off + (a - x.base)) else go xs x.kind (off + x.size)
  go s.blend.areas 0 0

/-- Rollback would read an error at this address again: a generation area, the buddy area or the governor log. -/
def State.keptArea (s : State) (a : Nat) : Bool :=
  match s.areaOf a with
  | some (k, _) => decide (k = 1 ∨ k = 2 ∨ k = 3 ∨ k = 7)
  | none => false

/-- The module address of offset `off` of an area kind of several extents. -/
def areaAddr : List Area → Nat → Nat → Option Nat
  | [], _, _ => none
  | x :: xs, kind, off =>
    if x.kind ≠ kind then areaAddr xs kind off
    else if off < x.size then some (x.base + off) else areaAddr xs kind (off - x.size)

/-- The size of an area kind. -/
def areaSize (xs : List Area) (kind : Nat) : Nat := ((xs.filter fun x => decide (x.kind = kind)).map (·.size)).foldl (· + ·) 0

end Sys2Proof.Machine
end

