-- ==== Sys2Proof/Machine/LineCode.lean ====
section
/-! DEFINITION. What stands on the lanes: the symbols of a codeword pair on a stream port's lanes (R329, R332), with the RS(544,514)
code of R333, the PAM4 levels and the precoder; and the bits of a Sip flit on its two lanes, scrambled (R358). -/

namespace Sys2Proof.Machine

/-! ## RS(544,514) over GF(2^10) (R333; the field and the generator are those of IEEE 802.3 Clause 91: PRESUMED, log entry 101) -/

/-- Multiplication by α modulo x^10 + x^3 + 1. -/
def gf10Times2 (a : Nat) : Nat := if a < 512 then 2 * a else (2 * a - 1024) ^^^ 9

/-- Product of two field elements. -/
def gf10Mul (a b : Nat) : Nat :=
  ((List.range 10).foldl (fun (r : Nat × Nat) i => (if b.testBit i then r.1 ^^^ r.2 else r.1, gf10Times2 r.2)) (0, a)).1

/-- The generator: the product of x + α^j for j below 30, highest power first. -/
def rsGenerator : List Nat :=
  ((List.range 30).foldl (fun (r : List Nat × Nat) _ =>
    (List.zipWith (· ^^^ ·) (r.1 ++ [0]) (0 :: r.1.map (gf10Mul r.2)), gf10Times2 r.2)) ([1], 1)).1

/-- The 30 check symbols of 514 data symbols, the first data symbol the highest power. -/
def rsCheck (data : List Nat) : List Nat :=
  data.foldl (fun rem d =>
    let q := (rem.headD 0) ^^^ d
    List.zipWith (· ^^^ ·) (rem.drop 1 ++ [0]) ((rsGenerator.drop 1).map (gf10Mul q))) (List.replicate 30 0)

/-! ## A pair (R332) -/

/-- The ten-bit symbols of a pair's contents: the 40-bit header, then the flits, least significant bit first. -/
def pairSymbols (header : BitVec 40) (flits : List FlitBytes) : List Nat :=
  let v := header.toNat + 2 ^ 40 * ofLe flits.flatten
  (List.range 1028).map fun i => bitsOf v (10 * i + 9) (10 * i)

/-- The 1,088 symbols in transmission order: even ones from codeword A, odd ones from codeword B, contents before check symbols
(which contents go to which codeword is DEDUCED, log entry 101). -/
def pairCode (header : BitVec 40) (flits : List FlitBytes) : List Nat :=
  let data := pairSymbols header flits
  let half (k : Nat) : List Nat := (data.zipIdx.filter fun x => decide (x.2 % 2 = k)).map (·.1)
  data ++ (List.zip (rsCheck (half 0)) (rsCheck (half 1))).flatMap fun x => [x.1, x.2]

/-- The symbols that logical lane `l` carries: 2k and 2k + 1 for every k with k mod 32 = l. -/
def laneSymbols (code : List Nat) (l : Nat) : List Nat :=
  (List.range 17).flatMap fun j => [nth 0 code (2 * (32 * j + l)), nth 0 code (2 * (32 * j + l) + 1)]

/-- The bits of a lane in transmission order: each symbol bit 0 first. -/
def symbolBits (xs : List Nat) : List Bool := xs.flatMap fun x => (List.range 10).map x.testBit

/-! ## Signalling (R329) -/

/-- The Gray map: two bits in transmission order, the first the more significant, as a level from 0 to 3 for −3 to +3. -/
def grayIndex : Bool → Bool → Nat
  | false, false => 0
  | false, true => 1
  | true, true => 2
  | true, false => 3

/-- The PAM4 level of an index. -/
def pam4 (i : Nat) : Int := 2 * (i : Int) - 3

/-- The indexes of a lane's bits, two bits to a symbol. -/
def grayOf : List Bool → List Nat
  | a :: b :: xs => grayIndex a b :: grayOf xs
  | _ => []

/-- The 1/(1+D) precoder, from the last index sent: each index less the one before it, modulo 4. -/
def precode (last : Nat) : List Nat → List Nat
  | [] => []
  | x :: xs =>
    let y := (x + 4 - last % 4) % 4
    y :: precode y xs

/-- The levels on logical lane `l` for a pair; `last`: the precoder's last index, where the lane has it switched on. -/
def laneLevels (header : BitVec 40) (flits : List FlitBytes) (l : Nat) (last : Option Nat) : List Int :=
  let xs := grayOf (symbolBits (laneSymbols (pairCode header flits) l))
  ((match last with | some p => precode p xs | none => xs)).map pam4

/-! ## Test patterns (R361) and the Sip lanes (R358) -/

/-- The next bit of a PRBS with feedback taps `a` and `b`, and its register after it. -/
def prbsStep (a b : Nat) (r : Nat) : Bool × Nat :=
  let x := r.testBit (a - 1) != r.testBit (b - 1)
  (x, (2 * r + b2n x) % 2 ^ a)

/-- `n` bits of a PRBS from a register: PRBS7 has taps 7 and 6, PRBS15 taps 15 and 14, PRBS31 taps 31 and 28. -/
def prbsBits (a b : Nat) : Nat → Nat → List Bool
  | 0, _ => []
  | n + 1, r => (prbsStep a b r).1 :: prbsBits a b n (prbsStep a b r).2

/-- The taps of pattern `k` of LNK_TEST (R371). -/
def prbsTaps (k : Nat) : Nat × Nat := match k with | 0 => (7, 6) | 1 => (15, 14) | _ => (31, 28)

/-- The bits of a Sip flit on lane `l` (0 or 1): 32-bit words l, l + 2, ..., each least significant bit first, scrambled from the
register `r` of the lane. -/
def sipLane (f : FlitBytes) (l r : Nat) : List Bool :=
  let bits := (List.range 8).flatMap fun k => (List.range 32).map (leAt f (4 * (2 * k + l)) 4).testBit
  List.zipWith (· != ·) bits (prbsBits 31 28 256 r)

end Sys2Proof.Machine
end

