-- ==== Sys2Proof/Machine/Link.lean ====
section
/-! DEFINITION. A stream port as its users see it (R338 to R350): states, credit classes, sending, acknowledgement, stream
tags, and the health of its lanes. -/

namespace Sys2Proof.Machine

/-! ## Message types and classes (R340, R346) -/

def mHello : Nat := 0x01
def mCpl : Nat := 0x02
def mJfence : Nat := 0x03
def mJfenceDone : Nat := 0x04
def mWget : Nat := 0x10
def mWidx : Nat := 0x11
def mWman : Nat := 0x12
def mWdata : Nat := 0x13
def mWpush : Nat := 0x14
def mWpub : Nat := 0x15
def mWack : Nat := 0x16
def mRchunk : Nat := 0x20
def mRresend : Nat := 0x21
def mRdone : Nat := 0x22
def mGform : Nat := 0x23
def mBcopy : Nat := 0x30
def mBack : Nat := 0x31

/-- The message types of R346. -/
def msgTypes : List Nat :=
  [mHello, mCpl, mJfence, mJfenceDone, mWget, mWidx, mWman, mWdata, mWpush, mWpub, mWack, mRchunk, mRresend, mRdone, mGform,
   mBcopy, mBack]

/-- The credit class of a type (R340). -/
def msgClass (t : Nat) : Nat :=
  if t = mWget ∨ t = mWidx ∨ t = mWman then 1
  else if t = mRchunk then 2
  else if t = mWdata ∨ t = mWpush ∨ t = mWpub ∨ t = mBcopy then 3
  else 0

/-- The receive buffer of a class, in flits (R340). -/
def classBuffer (c : Nat) : Nat := nth 0 [64, 128, 512, 1024] c

/-- Types allowed by a role (R348). -/
def roleAllows (role t : Nat) : Bool :=
  if t = mHello ∨ t = mCpl ∨ t = mJfence ∨ t = mJfenceDone then decide (0 < role)
  else match role with
    | 1 => [mWpush, mRchunk, mRresend, mRdone, mGform].contains t
    | 2 => [mWget, mWidx, mWman, mWdata, mWpub, mWack, mRchunk, mRresend, mRdone, mGform].contains t
    | 3 => [mBcopy, mBack].contains t
    | _ => false

/-- Flits of a message: 250 body bytes each, header included (R339, R345). -/
def msgFlits (m : Msg) : Nat := (32 + m.body.length + 249) / 250

/-- The bytes of a message: transaction header, then the body (R345). -/
def msgBytes (m : Msg) : List Byte :=
  leBytes 1 m.type.toNat ++ leBytes 1 (m.status.toNat + 16 * b2n m.req + 32 * b2n m.resp) ++ leBytes 2 m.tag.toNat ++
  leBytes 2 m.job.toNat ++ leBytes 1 m.group.toNat ++ leBytes 1 m.epoch.toNat ++ leBytes 2 m.src.toNat ++
  leBytes 2 m.dst.toNat ++ leBytes 4 m.length.toNat ++ leBytes 4 m.chunk.toNat ++ zeros 12 ++ m.body

/-- A message read from its bytes. -/
def parseMsg (bs : List Byte) : Msg :=
  { type := BitVec.ofNat 8 (leAt bs 0 1), status := BitVec.ofNat 4 (bitsAt bs 1 3 0), req := decide (bitsAt bs 1 4 4 = 1)
    resp := decide (bitsAt bs 1 5 5 = 1), tag := BitVec.ofNat 14 (bitsAt bs 2 13 0), job := BitVec.ofNat 16 (leAt bs 4 2)
    group := BitVec.ofNat 8 (leAt bs 6 1), epoch := BitVec.ofNat 8 (leAt bs 7 1), src := BitVec.ofNat 16 (leAt bs 8 2)
    dst := BitVec.ofNat 16 (leAt bs 10 2), length := BitVec.ofNat 32 (leAt bs 12 4), chunk := BitVec.ofNat 32 (leAt bs 16 4)
    rsvd := decide (bitsAt bs 1 7 6 ≠ 0) || decide (bitsAt bs 2 15 14 ≠ 0) || !allZero ((bs.drop 20).take 12)
    body := bs.drop 32 }

/-! ## Port states (R335) -/

def psDisabled : Nat := 0
def psDetect : Nat := 1
def psTrain : Nat := 2
def psLinkUp : Nat := 3
def psActive : Nat := 4
def psFast : Nat := 5
def psNoVersion : Nat := 6
def psRoleMismatch : Nat := 7
def psTest : Nat := 8
def psFenced : Nat := 9

def State.port (s : State) (p : Nat) : Port := Smap.get Port.down s.ports p
def State.setPort (s : State) (p : Nat) (v : Port) : State := { s with ports := Smap.set Port.down s.ports p v }
def State.portState (s : State) (p : Nat) : Nat := s.rfield .lnkPort p Reg.LNK_STATUS 3 0
def State.setPortState (s : State) (p v : Nat) : State := s.rset .lnkPort p Reg.LNK_STATUS 3 0 v
def State.portRole (s : State) (p : Nat) : Nat := s.rfield .lnkPort p Reg.LNK_ROLE 3 0
def State.portJob (s : State) (p : Nat) : Nat := s.rfield .lnkPort p Reg.LNK_ROLE 63 48
def State.expectRank (s : State) (p : Nat) : Nat := s.rfield .lnkPort p Reg.LNK_ROLE 31 16
def State.topoMatch (s : State) (p : Nat) : Bool := s.rflag .lnkPort p Reg.LNK_PARTNER 0

/-- Messages of the port's role flow: ACTIVE, or ACTIVE but for a lane swap, and the partner matches LNK_ROLE. -/
def State.portUsable (s : State) (p : Nat) : Bool :=
  (decide (s.portState p = psActive) || decide (s.portState p = psFast)) && s.topoMatch p

/-- Whether a type can be sent on a port: UNAVAILABLE when messages do not flow, VERSION when the partner did not set it in
its message set (R350). -/
def State.canSend (s : State) (p t : Nat) : Status :=
  if ¬ s.portUsable p ∨ (s.port p).rebind then .unavailable
  else if ¬ (s.port p).msgset.testBit t then .version
  else .ok

/-! ## Flits and pair headers (R338, R339) -/

/-- A flit with its CRC-32. -/
def flitBytes (kind cls : Nat) (last : Bool) (fill : Nat) (body : List Byte) : FlitBytes :=
  let b := leBytes 1 (kind + 4 * cls + 16 * b2n last) ++ leBytes 1 fill ++ padTo 250 body
  b ++ leBytes 4 (crc32 b).toNat

/-- A NULL flit: all zero apart from its CRC. -/
def nullFlit : FlitBytes := flitBytes 0 0 false 0 []

/-- Flit `i` of a message. -/
def flitOf (m : Msg) (i : Nat) : FlitBytes :=
  let body := ((msgBytes m).drop (250 * i)).take 250
  flitBytes (if i = 0 then 1 else 2) (msgClass m.type.toNat) (decide (i + 1 = msgFlits m)) (body.length - 1) body

/-- XOR of the nine 4-bit groups of bits [35:0] of a pair header. -/
def headerCheck (v : Nat) : Nat := ((List.range 9).map fun i => bitsOf v (4 * i + 3) (4 * i)).foldl (· ^^^ ·) 0

/-- A pair header. -/
def headerOf (seq ack : Nat) (nak retrain : Bool) (cls n : Nat) : BitVec 40 :=
  let v := seq % 4096 + 2 ^ 12 * (ack % 4096) + 2 ^ 24 * b2n nak + 2 ^ 25 * b2n retrain + 2 ^ 26 * (cls % 4) + 2 ^ 28 * (n % 256)
  BitVec.ofNat 40 (v + 2 ^ 36 * headerCheck v)

/-- The levels that pair `header`, `flits` puts on transmit lane `l` of a port: its logical lane by the exclusion mask (R330), and the
precoder where it is on, from the index it sent last. -/
def State.laneOut (s : State) (p : Nat) (header : BitVec 40) (flits : List FlitBytes) (l last : Nat) : List Int :=
  match (below 34 fun k => !flag (s.peek .lnkPort p Reg.LNK_LANES_TX) k).findIdx? fun k => decide (k = l) with
  | some k => if k < 32 then laneLevels header flits k (if (s.port p).precode.testBit l then some last else none) else []
  | none => []

/-- Send one pair: the flits given and NULL flits after them, under a header that acknowledges what has come, asks for a replay or a
fast retrain where one is due, and returns `n` credits of a class (R336, R338, R341). -/
def State.sendPair (s : State) (p seq cls n : Nat) (flits : List FlitBytes) : State :=
  let x := s.port p
  s.send (.pair p (headerOf seq (x.rxSeq + 4095) x.naking (decide (s.portState p = psFast)) cls n)
    (flits ++ List.replicate (5 - flits.length) nullFlit))

/-- Send flits, five to a pair, with sequence numbers from `seq`. -/
def State.sendPairs (s : State) (p seq : Nat) (flits : List FlitBytes) : State :=
  (chunksOf 5 flits).zipIdx.foldl (fun s c => s.sendPair p (seq + 5 * c.2) 0 0 c.1) s

/-! ## Sending -/

/-- The message of class `c` whose flit goes next, of those that may go. -/
def nextOf (goes : TxMsg → Bool) (x : Port) (c : Nat) : Option Nat := x.txq.findIdx? fun t => goes t && decide (t.cls = c)

/-- A flit of class `c` can be sent: one waits and has a credit. -/
def canPlace (goes : TxMsg → Bool) (x : Port) (c : Nat) : Bool := (nextOf goes x c).isSome && decide (0 < nth 0 x.credits c)

/-- The class of the next flit: CTL first, but at most one flit in 16 while other classes wait; these take turns (R340). -/
def nextClass (goes : TxMsg → Bool) (x : Port) : Option Nat :=
  let ctl := canPlace goes x 0
  let other := ((List.range 3).map fun k => (x.turn + k) % 3 + 1).find? (canPlace goes x)
  if ctl ∧ (other.isNone ∨ 15 ≤ x.ctlSince) then some 0 else match other with
    | some c => some c
    | none => none

/-- Place one flit of class `c`: it takes a credit and a sequence number and enters the replay buffer. The flit, and the message if
it was the last one. -/
def placeOne (goes : TxMsg → Bool) (x : Port) (c : Nat) : Option (TxFlit × Option Msg × Port) :=
  (nextOf goes x c).bind fun k => x.txq[k]?.map fun t =>
    let f : TxFlit := { cls := c, job := t.msg.job, bytes := flitOf t.msg (msgFlits t.msg - t.left) }
    let x := { x with
      credits := modNth x.credits c (· - 1), txSeq := (x.txSeq + 1) % 4096, unacked := x.unacked ++ [f]
      ctlSince := if c = 0 then 0 else min 15 (x.ctlSince + 1), turn := if c = 0 then x.turn else c % 3
      txq := if t.left ≤ 1 then x.txq.eraseIdx k else x.txq.set k { t with left := t.left - 1 } }
    (f, if t.left ≤ 1 then some t.msg else none, x)

/-- Place what credits and the replay buffer allow, at most `fuel` flits. -/
def placeFlits (goes : TxMsg → Bool) : Nat → Port → List TxFlit × List Msg × Port
  | 0, x => ([], [], x)
  | fuel + 1, x =>
    if 1024 ≤ x.unacked.length then ([], [], x)
    else match (nextClass goes x).bind (placeOne goes x) with
      | none => ([], [], x)
      | some (f, m, y) =>
        let r := placeFlits goes fuel y
        (f :: r.1, m.toList ++ r.2.1, r.2.2)

/-- The types that go in ACTIVE whatever the partner (R353). -/
def baseTypes : List Nat := [mHello, mCpl, mJfence, mJfenceDone]

/-- A queued message may go: HELLO in LINK_UP and after it; the others in ACTIVE, those of the role only to the partner that LNK_ROLE
names, and none that is new while the binding changes (R335, R349, R353, R357). A message begun is ended. -/
def State.mayGo (s : State) (p : Nat) (t : TxMsg) : Bool :=
  let type := t.msg.type.toNat
  let x := s.port p
  decide (type = mHello) ||
    (decide (s.portState p = psActive) &&
      (decide (t.left < msgFlits t.msg) || (!x.rebind && (s.topoMatch p || baseTypes.contains type))))

/-- Messages of a type that the partner has not set in its message set are not sent (R350). -/
def Port.unsupported (x : Port) (t : TxMsg) : Bool :=
  !(decide (t.msg.type.toNat = mHello) || x.msgset.testBit t.msg.type.toNat || decide (t.left < msgFlits t.msg))

/-- Send what credits and the replay buffer allow. During a lane swap nothing goes. -/
def State.pump (s : State) (p : Nat) : State :=
  let st := s.portState p
  if [psLinkUp, psActive, psNoVersion, psRoleMismatch].contains st then
    let x := s.port p
    let x := if st = psActive then { x with txq := x.txq.filter fun t => !x.unsupported t } else x
    let r := placeFlits (s.mayGo p) (x.txq.foldl (fun a t => a + t.left) 0) x
    let s := ((s.setPort p r.2.2).bump .lnkPort p Reg.LNK_FLITS_TX r.1.length).sendPairs p x.txSeq (r.1.map (·.bytes))
    { s with out := s.out ++ r.2.1.map (Out.port p) }
  else s

/-- Flits of this module wait for credit: a message may go whose class has none left (R340). -/
def State.creditWaits (s : State) (p : Nat) : Bool :=
  [psLinkUp, psActive, psNoVersion, psRoleMismatch].contains (s.portState p) &&
    (s.port p).txq.any fun t => s.mayGo p t && decide (nth 0 (s.port p).credits t.cls = 0)

/-- Queue a message on a port. -/
def State.post (s : State) (p : Nat) (m : Msg) : State :=
  let x := s.port p
  (s.setPort p { x with txq := x.txq ++ [{ cls := msgClass m.type.toNat, msg := m, left := msgFlits m }] }).pump p

/-- A message of this module: its job and rank from the port's binding. -/
def State.newMsg (s : State) (p type : Nat) (body : List Byte) : Msg :=
  { type := BitVec.ofNat 8 type, status := 0, req := false, resp := false, tag := 0, job := BitVec.ofNat 16 (s.portJob p)
    group := 0, epoch := 0, src := BitVec.ofNat 16 s.blend.rank, dst := BitVec.ofNat 16 (if s.portRole p = 2 then 0 else s.expectRank p)
    length := BitVec.ofNat 32 body.length, chunk := 0, rsvd := false, body := body }

/-- A reply to a message, under its tag. -/
def State.replyMsg (s : State) (p : Nat) (m : Msg) (type : Nat) (st : Status) (body : List Byte) : Msg :=
  { s.newMsg p type body with resp := true, tag := m.tag, status := BitVec.ofNat 4 st.code, job := m.job }

/-- Answer a request with a CPL; a message that asks for no reply gets none (R349). -/
def State.cplTo (s : State) (p : Nat) (m : Msg) (st : Status) : State :=
  if m.req then s.post p (s.replyMsg p m mCpl st []) else s

/-! ## Tags (R15, R347) -/

/-- Take a free tag of the port, if there is one. -/
def State.takeTag (s : State) (p : Nat) (u : TagUse) : Option Nat × State :=
  let x := s.port p
  let used (i : Nat) : Bool := (x.tags.any fun t => decide (t.1 = 1024 * p + i)) || x.heldTags.any fun t => decide (t.1 = 1024 * p + i)
  match (List.range 1024).find? fun k => !used ((x.nextTag + k) % 1024) with
  | none => (none, s.setPort p { x with tagWait := true })
  | some k =>
    let i := (x.nextTag + k) % 1024
    (some (1024 * p + i), s.setPort p { x with tags := x.tags ++ [(1024 * p + i, u)], nextTag := (i + 1) % 1024 })

/-- Who waits for a reply under a tag. -/
def State.tagUse (s : State) (p tag : Nat) : Option TagUse := ((s.port p).tags.find? fun t => decide (t.1 = tag)).map (·.2)

/-- The mark of a copy whose BCOPY waits for a tag: one more than any tag, plus 1. -/
def tagWaiting : Nat := 16385

/-- Tags have come free: what waits for one goes (R347). A JFENCE or BCOPY that waited takes one here; a formation, a chunk, a manifest
or a WPUB asks again by itself. -/
def State.grantTag (s : State) (p : Nat) : State :=
  let x := s.port p
  let s := s.setPort p { x with tagWait := false }
  match x.tagq with
  | [] => s
  | (u, m) :: rest =>
    let r := s.takeTag p u
    match r.1 with
    | none => r.2
    | some t =>
      let s := r.2.setPort p { r.2.port p with tagq := rest, jfence := if u = .jfence then some t else (r.2.port p).jfence }
      let mark (b : BlockSend) : BlockSend := if u = .bcopy ∧ b.port = p ∧ b.tag = tagWaiting then { b with tag := t + 1 } else b
      let s : State := { s with ckp := { s.ckp with send := s.ckp.send.map mark, hand := s.ckp.hand.map mark } }
      s.post p { m with tag := BitVec.ofNat 14 t }

/-- The tag's reply has been accepted. -/
def State.freeTag (s : State) (p tag : Nat) : State :=
  let x := s.port p
  (s.setPort p { x with tags := x.tags.filter fun t => !decide (t.1 = tag) }).grantTag p

/-- The requester has declared TIMEOUT: the tag is held out of use for 10 ms (R15). -/
def State.holdTag (s : State) (p tag : Nat) : State :=
  let x := s.port p
  s.setPort p { x with
    tags := x.tags.filter fun t => !decide (t.1 = tag)
    heldTags := x.heldTags ++ x.tags.filter fun t => decide (t.1 = tag) }

/-- A reply whose tag is not outstanding is discarded and counted (R347). -/
def State.lateReply (s : State) (p : Nat) (m : Msg) : State :=
  let t := m.type.toNat
  let held := (s.port p).heldTags.find? fun h => decide (h.1 = m.tag.toNat)
  let inf : Bool := match held with | some h => decide (h.2 = .infuser) | none => decide (t = mWdata) || decide (t = mWack)
  if inf then (s.bump .infPort p Reg.INF_LATE_REPLIES 1).raise .infPort p Reg.INF_EVENT 8
  else s.bump .lnkPort p Reg.LNK_LATE_REPLIES 1

/-! ## Acknowledgement and credit (R340, R341) -/

/-- Flits up to sequence number `a` are acknowledged. `none`: `a` was never sent (R357). -/
def Port.ackTo (x : Port) (a : Nat) : Option Port :=
  let k := (a + 4096 - x.acked) % 4096
  if x.unacked.length < k then none
  else if k = 0 then some x
  else some { x with unacked := x.unacked.drop k, acked := a, replays := 0, nakSeen := false }

/-- Credit returned for a class. `none`: more than the class's buffer holds (R357). -/
def Port.credit (x : Port) (c n : Nat) : Option Port :=
  let v := nth 0 x.credits c + n
  if classBuffer c < v then none else some { x with credits := setNth x.credits c v }

/-- The link layer as LINK_UP leaves it: sequence numbers from 0 and the whole buffer of every class granted. Messages not
placed in flits wait on. -/
def Port.fresh (x : Port) : Port :=
  { Port.down with
    credits := [64, 128, 512, 1024], txq := x.txq, tags := x.tags, tagq := x.tagq, tagWait := x.tagWait, heldTags := x.heldTags
    nextTag := x.nextTag, precode := x.precode
    msgset := x.msgset, trainFails := x.trainFails, jfence := x.jfence, jfAnswer := x.jfAnswer
    rebind := x.rebind, sipNaks := x.sipNaks, sipSent := x.sipSent, sipSlot := x.sipSlot, sipUpAt := x.sipUpAt
    sipNakWait := x.sipNakWait, sipPartner := x.sipPartner }

/-- Start a full retrain: the replay buffer is discarded, with the message partly placed in flits (R334, R342). -/
def State.fullRetrain (s : State) (p : Nat) : State :=
  let was := s.portState p
  let x := s.port p
  let s := s.setPort p { x.fresh with
    credits := [0, 0, 0, 0], txq := x.txq.filter fun t => decide (t.left = msgFlits t.msg) }
  let s := ((s.setPortState p psTrain).bump .lnkPort p Reg.LNK_RETRAINS 1).raise .lnkPort p Reg.LNK_EVENT 2
  let s := s.rbit .lnkPort p Reg.LNK_STATUS 9 false
  if was = psActive ∨ was = psFast then s.raise .lnkPort p Reg.LNK_EVENT 1 else s

/-! ## Lanes (R336, R337) -/

/-- Lanes of a direction not excluded: 34 lanes less the excluded ones. -/
def lanesLeft (w : Word) : Nat := 34 - popcount 34 (fld w 33 0)

/-- Exclude lanes of a direction and recompute its spares. -/
def State.excludeLanes (s : State) (p o mask : Nat) : State :=
  let w := s.peek .lnkPort p o
  let m := fld w 33 0 ||| mask
  let s := s.rset .lnkPort p o 33 0 m
  s.rset .lnkPort p o 35 34 (34 - popcount 34 m - 32)

/-- A direction without a usable spare puts port and module into DEGRADED (R337, R499). -/
def State.judgeLanes (s : State) (p : Nat) : State :=
  let rx := lanesLeft (s.peek .lnkPort p Reg.LNK_LANES_RX)
  let tx := lanesLeft (s.peek .lnkPort p Reg.LNK_LANES_TX)
  if rx = 32 ∨ tx = 32 then
    ((s.rbit .lnkPort p Reg.LNK_STATUS 10 true).raise .lnkPort p Reg.LNK_EVENT 4).degrade 2
  else s.rbit .lnkPort p Reg.LNK_STATUS 10 false

/-! ## HELLO (R351) -/

/-- The message set of a PCW1-A. -/
def ownMsgset : Nat := (msgTypes.map fun t => 2 ^ t).foldl (· ||| ·) 0

/-- Send HELLO on a port. -/
def State.sendHello (s : State) (p : Nat) : State :=
  let job := s.portJob p
  let body := leBytes 1 5 ++ leBytes 1 (s.portRole p + 16 * p) ++
    leBytes 2 (if job = 0 then 0 else s.rfield .lnkPort p Reg.LNK_ROLE 47 32) ++ leBytes 2 job ++ zeros 2 ++
    leBytes 32 ownMsgset ++ zeros 8
  s.post p { s.newMsg p mHello body with job := 0 }

/-- A queued message fits the port's role and binding. -/
def State.fits (s : State) (p : Nat) (t : TxMsg) : Bool :=
  roleAllows (s.portRole p) t.msg.type.toNat && (decide (t.msg.job = 0) || decide (t.msg.job.toNat = s.portJob p))

/-- A port whose binding or role changed sends HELLO again once its tags are free (R357). Messages queued under the old one are
dropped where they do not fit the new one (DESIGN CHOICE, log entry 102). -/
def State.rebindOne (s : State) (p : Nat) : State :=
  let x := s.port p
  let st := s.portState p
  if ¬ x.rebind ∨ ¬ x.tags.isEmpty ∨ st = psFast then s
  else
    let s := s.setPort p { x with rebind := false, txq := x.txq.filter fun t => s.fits p t || decide (t.left < msgFlits t.msg) }
    if [psLinkUp, psActive, psNoVersion, psRoleMismatch].contains st then
      let s := if st = psActive then s.raise .lnkPort p Reg.LNK_EVENT 1 else s
      (s.setPortState p psLinkUp).sendHello p
    else s

/-- Every port that waits to send HELLO again. -/
def State.rebindAll (s : State) : State := s.ports.foldl (fun s e => s.rebindOne e.1) s

end Sys2Proof.Machine
end

