-- ==== Sys2Proof/Machine/Routes.lean ====
section
/-! DEFINITION. The ROUTES payload of one die (R437): route modes and tree entries. -/

namespace Sys2Proof.Machine

def routeDie (p : List Byte) : Nat := bitsAt p 0 5 0
def routeMode (p : List Byte) (d : Nat) : Nat := bitsOf (leAt p 8 16) (2 * d + 1) (2 * d)
def routeTrees (p : List Byte) : Nat := leAt p 0x18 8

/-- The entry of tree `t`, if it passes through the router. -/
def routeEntry (p : List Byte) (t : Nat) : Option Nat :=
  if (routeTrees p).testBit t then some (leAt p (0x20 + 8 * popcount t (routeTrees p)) 8) else none

/-- A ROUTES payload with every mode XY and no tree. -/
def plainRoutes (die : Nat) : List Byte := leBytes 32 die

/-- The payload in force for a die. -/
def routesOf (rs : List (Nat × List Byte)) (die : Nat) : List Byte :=
  ((rs.find? fun r => decide (r.1 = die)).map (·.2)).getD (plainRoutes die)

end Sys2Proof.Machine
end

