-- ==== Sys2Proof/Machine/Clock.lean ====
section
/-! DEFINITION. Time: what one cycle of the 156.25 MHz reference clock does while no command waits (R583), and the counters
that count nanoseconds. -/

namespace Sys2Proof.Machine

/-- The Infuser of a port. -/
def State.inf (s : State) (p : Nat) : Inf := Smap.get Inf.idle s.wts.infs p

/-- A WREQ waits there for a version decision (R269). -/
def State.stageWaits (s : State) (p : Nat) : Bool := s.wts.waitFrom.isSome && !(s.inf p).waiting.isEmpty

/-- The die that port `p` (0 to 5) of die `d` leads to (R104). -/
def meshNext (d p : Nat) : Option Nat :=
  let r := d / 8
  let c := d % 8
  match p with
  | 0 => if 0 < r then some (d - 8) else none
  | 1 => if c < 7 then some (d + 1) else none
  | 2 => if r < 7 then some (d + 8) else none
  | 3 => if 0 < c then some (d - 1) else none
  | 4 => some (if c < 4 then d + 4 else d - 4)
  | 5 => some (if r < 4 then d + 32 else d - 32)
  | _ => none

/-- A router port is fenced (R112). -/
def State.linkFenced (s : State) (d p : Nat) : Bool := s.rflag .topDie d Reg.TOP_RTR_PORTS p

/-- The number of a leaf: a core's index, or 16384 and the die of a memory controller. -/
def memLeaf (d : Nat) : Nat := 16384 + d

/-- The die of a leaf. -/
def leafDie (x : Nat) : Nat := if x < 16384 then coreDie x else x - 16384

/-- The leaves of a tree from a die on, each with whether the multicast reaches it, and the routers at which it is dropped, at most
`fuel` routers deep. A router whose entry is not valid passes nothing on, and no flit crosses a fenced link; the leaves below are
those that the loaded Blend names (R109, R112, R122). -/
def State.treeLeaves (s : State) (tree : Nat) : Nat → Bool → Nat → List (Nat × Bool) × List Nat
  | 0, _, _ => ([], [])
  | fuel + 1, reached, d =>
    let w := s.peek .topDie d (Reg.TOP_RTR_MCAST + 8 * tree)
    let live := reached && flag w 63
    let e := if live then w.toNat else (routeEntry (routesOf s.blend.routes d) tree).getD 0
    let own := ((below 48 e.testBit).map fun b => coreIdx (4 * d + b / 12) (b % 12)) ++ (if e.testBit 55 then [memLeaf d] else [])
    let subs := (below 6 fun p => e.testBit (49 + p)).map fun p => match meshNext d p with
      | some n => s.treeLeaves tree fuel (live && !s.linkFenced d p) n
      | none => ([], [])
    (own.map (fun x => (x, live)) ++ subs.flatMap (·.1), (if reached && !flag w 63 then [d] else []) ++ subs.flatMap (·.2))

/-- The leaf cores of a tree rooted at the die of a port. -/
def State.treeCores (s : State) (tree p : Nat) : List Nat :=
  ((s.treeLeaves tree 64 true (portDie p)).1.map (·.1)).filter fun x => decide (x < 16384)

/-- A leaf core receives: it is in service. -/
def State.receives (s : State) (i : Nat) : Bool := isCore i && !(s.core i).fenced && (s.core i).powered

/-- Every receiving core of the WREQ being served has released the slot that its next chunk takes (R260). -/
def State.ringRoom (s : State) (p : Nat) (q : InfReq) : Bool :=
  ((s.treeCores q.strm.tree p).filter s.receives).all fun i => decide (q.done < Smap.get 0 q.released i + q.strm.ringSlots)

/-- A verified chunk of the WREQ being served waits for ring slots: the next in order. -/
def State.ringWaits (s : State) (p : Nat) : Bool :=
  match (s.inf p).reqs with
  | [] => false
  | q :: _ => !s.ringRoom p q && (s.inf p).chunks.any fun c =>
      decide (c.core = q.core ∧ c.seq = q.seq ∧ c.what = .chunk (q.strm.chunkFirst + q.done)) && c.content.isSome

/-- A request waits for a free tag of the port (R347). -/
def State.tagWaits (s : State) (p : Nat) : Bool := (s.port p).tagWait || !(s.port p).tagq.isEmpty

/-- An input waits for a context: one from a port, or a chunk of the module itself (R301). -/
def Sam.waiting (x : Sam) : Bool := !x.waits.isEmpty || (x.ctxFull && decide (4096 ≤ x.ctxs.length))

/-- A GS1 chunk contributed in the step waits for its error memory (R307). -/
def State.gs1Open (s : State) : Bool := s.coll.sams.any fun x => x.retained.any fun r => decide (r.format = 0xB)

/-- Every condition of R205 for the boundary that closes the step but the exchange's. A COPYH names no slice: as many must have
completed as slices the module owns and contributed to (DEDUCED, log entry 40). -/
def State.stepOver (s : State) : Bool :=
  decide (s.job.st = .running) && (s.programCores.all fun i => decide ((s.core i).st = .ended)) &&
    decide (s.coll.owned.length ≤ (s.job.sliceHashes.filter fun h => !h.isEmpty).length) && s.wts.pubs.isEmpty && !s.gs1Open

/-- The exchange of the step before the one at hand has entered the governor log. -/
def State.exchangeIn (s : State) : Bool := decide (s.job.step ≤ s.job.entered + 1)

/-- A write waits under copy-before-overwrite (R513): an instruction's issue, or the error memory of a GS1 chunk. -/
def State.cboWaits (s : State) : Bool :=
  (s.cores.any fun c => decide (c.2.waits = .genArea)) || s.coll.sams.any fun x => x.retained.any (·.final)

/-- The beats of a die in the `n` nanoseconds that end now, at the rate that KTL_DIE shows (R557, R572). -/
def State.beatsIn (s : State) (d n : Nat) : Nat :=
  let rate := s.rfield .ktlMod 0 (Reg.KTL_DIE + 8 * d) 63 48
  rate * s.now / 1000 - rate * (s.now - n) / 1000

/-- The word at a core's program counter is for a queue that has no room (R126). -/
def State.issueStalled (s : State) (i : Nat) : Bool :=
  s.canIssue i && match (Op.ofCode (iOpcode (s.core i).word)).bind Op.queue with
  | some q => s.queueFull i q
  | none => false

/-- The counters of beats of one core (R85, R115, R175). Beats that a bank or operands are waited for do not show (log entry 79). -/
def State.coreBeats (s : State) (n i : Nat) : State :=
  let b := s.beatsIn (coreDie i) n
  let on (c : Bool) (k : RBlk) (o : Nat) (s : State) : State := if c then s.bump k i o b else s
  let s := on (!decide ((s.core i).waits = .none)) .seqCore Reg.SEQ_WAIT_BEATS s
  let s := on (s.issueStalled i) .seqCore Reg.SEQ_ISSUE_STALL s
  let s := on (s.headOf i 1).isSome .vecCore Reg.VEC_BUSY_BEATS s
  on (match s.headOf i 0 with | some e => decide (e.status = .ok) && passOp e.word | none => false) .engCore Reg.ENG_BUSY_BEATS s

/-- A wave waits for the Kettle: a cluster that would be tested has no core rail to come up (R472). -/
def State.wavesHeld (s : State) : Bool :=
  s.top.waves.isEmpty && (List.range 256).any fun c =>
    let d := s.die (c / 4)
    let raised := decide (s.topState = 1) || match s.regionOf c with
      | some r => (s.region r).resetting
      | none => false
    raised && !(s.cluster c).ready && !d.fenced && decide (3 ≤ d.phase) && (d.tripped || s.rflag .ktlMod 0 Reg.KTL_STATUS 12)

/-- `n` nanoseconds pass: every counter of time that runs now counts them. -/
def State.elapse (s : State) (n : Nat) : State :=
  let on (c : Bool) (b : RBlk) (i o : Nat) (s : State) : State := if c then s.bump b i o n else s
  let s := on (!s.rflag .timMod 0 Reg.TIM_STATUS 0) .timMod 0 Reg.TIM_UNLOCK_TIME s
  let s := on (s.rflag .ktlMod 0 Reg.KTL_STATUS 11) .ktlMod 0 Reg.KTL_CAP_TIME s
  let s := on (s.dies.any fun d => d.2.throttled) .ktlMod 0 Reg.KTL_THROTTLE_TIME s
  let s := on (s.rflag .ktlMod 0 Reg.KTL_STATUS 0 && !s.rflag .ktlMod 0 Reg.KTL_STATUS 9) .ktlMod 0 Reg.KTL_FALLBACK_TIME s
  let s := on (decide (s.topState = stWarm)) .ktlMod 0 Reg.KTL_WARM_TIME s
  let s := on (s.stepOver && !s.exchangeIn) .govMod 0 Reg.GOV_BOUNDARY_WAIT s
  let s := on s.cboWaits .ckpMod 0 Reg.CKP_CBO_WAIT s
  let s := s.wts.infs.foldl (fun s e =>
    on (s.ringWaits e.1) .infPort e.1 Reg.INF_RING_WAIT
      (if s.stageWaits e.1 then s.add .infPort e.1 Reg.INF_STAGE_WAIT n else s)) s
  let s := s.ports.foldl (fun s e => on (s.creditWaits e.1) .lnkPort e.1 Reg.LNK_CREDIT_WAIT s) s
  let s := (List.range 16).foldl (fun s p => on (s.tagWaits p) .lnkPort p Reg.LNK_TAG_WAIT s) s
  let s := s.coll.sams.zipIdx.foldl (fun s x =>
    on x.1.full .samPort x.2 Reg.SAM_RETAIN_WAIT (on x.1.waiting .samPort x.2 Reg.SAM_CTX_WAIT s)) s
  let s := (s.cores.map (·.1)).foldl (fun s i => s.coreBeats n i) s
  let s := s.clusters.foldl (fun s e =>
    if e.2.barOpen then s.add .seqCluster e.1 Reg.SEQ_CL_BARRIER_BEATS (s.beatsIn (e.1 / 4) n) else s) s
  let s := on s.wavesHeld .topMod 0 Reg.TOP_BU_PAUSE s
  let scrub := s.rflag .scrMod 0 Reg.SCR_CTRL 32
  { s with stackSt := s.stackSt.map fun e => (e.1, if e.2.ready && scrub then { e.2 with lapNs := e.2.lapNs + n } else e.2) }

/-- One cycle of the reference clock: 6.4 ns with the rate trim in force, in units of 10⁻⁷ ns; without the reference clock,
a free value within 50 ppm of it (R604). -/
def State.cycleUnits (s : State) : Nat :=
  let trim := toSigned 8 (s.rfield .timMod 0 Reg.TIM_STATUS 31 24)
  let base := ((64000000 : Int) + 128 * trim).toNat
  if s.tim.refclk then base else base + Config.freeValue s.freeIx % 6401 - 3200

/-- What the block does with no command waiting: the timebase runs once the service rail is good. DESIGN CHOICE, log entry 2. -/
def State.tick (s : State) : State :=
  if ¬ s.tim.started then s
  else
    let u := s.tim.frac + s.cycleUnits
    let n := u / 10000000
    let s := if s.tim.refclk then s else s.useFree 1
    { s with tim := { s.tim with ns := (s.tim.ns + n) % 2 ^ 64, frac := u % 10000000 } }.elapse n

end Sys2Proof.Machine
end

