-- ==== Sys2Proof/Machine/AreaRuns.lean ====
section
/-! DEFINITION. The areas of the memory layout (R442) as the module itself reads and writes them. -/

namespace Sys2Proof.Machine

/-! ## Areas of one kind, their extents joined -/

def aGen0 : Nat := 0x01
def aBuddy : Nat := 0x03
def aInput : Nat := 0x05
def aRing : Nat := 0x06
def aLog : Nat := 0x07
def aManifest : Nat := 0x08
def aUrnLog : Nat := 0x09
def aCache : Nat := 0x0A
def aRetain : Nat := 0x0B
def aParams : Nat := 0x0C
def aErrmem : Nat := 0x0D
def aStore : Nat := 0x0E

/-- The kind of generation area `g`. -/
def genKind (g : Nat) : Nat := aGen0 + g % 2

/-- The runs of module addresses that `n` bytes at offset `off` of an area kind take. -/
def areaRuns : List Area → Nat → Nat → Nat → List (Nat × Nat)
  | [], _, _, _ => []
  | x :: xs, kind, off, n =>
    if n = 0 then []
    else if x.kind ≠ kind then areaRuns xs kind off n
    else if x.size ≤ off then areaRuns xs kind (off - x.size) n
    else (x.base + off, min n (x.size - off)) :: areaRuns xs kind 0 (n - (x.size - off))

/-- Read `n` bytes at an offset of an area. -/
def State.readArea (s : State) (kind off n : Nat) : Status × List Byte × State :=
  (areaRuns s.blend.areas kind off n).foldl (fun (acc : Status × List Byte × State) r =>
    let x := acc.2.2.memRead r.1 r.2
    (acc.1.join x.1, acc.2.1 ++ x.2.1, x.2.2)) (Status.ok, [], s)

/-- Write bytes into the runs given. -/
def State.putRuns (s : State) : List (Nat × Nat) → List Byte → Status × State
  | [], _ => (.ok, s)
  | r :: rs, bs =>
    let x := s.memWrite r.1 (bs.take r.2)
    let y := x.2.putRuns rs (bs.drop r.2)
    (x.1.join y.1, y.2)

/-- Write bytes at an offset of an area. -/
def State.writeArea (s : State) (kind off : Nat) (bs : List Byte) : Status × State :=
  s.putRuns (areaRuns s.blend.areas kind off bs.length) bs

/-- Write zeros over a run of whole granules of one stack: the first by the ordinary store, so that an armed flip meets it. -/
def State.zeroRun (s : State) (a n : Nat) : State :=
  if n = 0 ∨ ¬ (s.stack (stackOf a)).ready then s
  else
    let s := s.storeGranule a (zeros 64)
    let lo := a + 64
    let hi := a + n
    let s := { s with
      mem := s.mem.filter fun e => !(decide (lo ≤ e.1) && decide (e.1 < hi))
      memErr := s.memErr.filter fun e => !(decide (72 * (lo / 64) ≤ e.1) && decide (e.1 < 72 * (hi / 64))) }
    s.bump .memDie (stackOf a) Reg.MEM_WRITES (n / 64 - 1)

/-- Write zeros at an offset of an area. -/
def State.zeroArea (s : State) (kind off n : Nat) : State :=
  (areaRuns s.blend.areas kind off n).foldl (fun s r => s.zeroRun r.1 r.2) s

end Sys2Proof.Machine
end

