-- ==== Sys2Proof/Machine/SparseChunk.lean ====
section
/-! DEFINITION. Sparse chunks (R217 to R222): the block record, the head, segment and index tables, and what the Strainer
validates before the first pass. Bytes are read through a function, so that the check runs on a tile store. -/

namespace Sys2Proof.Machine

/-- Bytes of one block record (R217). -/
def blockStride (f : Fmt) : Nat :=
  match f with
  | .bf16 | .fp16 | .fp32 => 2048
  | .e3m2 | .e2m3 => 832
  | .e2m1 => 576
  | _ => 1088

/-- Offset of a block's elements in its record, and bytes per element row. -/
def blockElems (f : Fmt) : Nat := if f.isMx then 64 else 0
def blockRowBytes (f : Fmt) : Nat := 4 * f.bits

/-- Most blocks of a chunk (R221). -/
def chunkCapacity (f : Fmt) : Nat :=
  match f with
  | .bf16 | .fp16 | .fp32 => 31
  | .e3m2 | .e2m3 => 77
  | .e2m1 => 112
  | _ => 59

/-- `n` bytes from address `a`. -/
def bytesAt (rd : Nat → Byte) (a n : Nat) : List Byte := (List.range n).map fun i => rd (a + i)

/-- `n` bytes from address `a` as a number. -/
def numAt (rd : Nat → Byte) (a n : Nat) : Nat := ofLe (bytesAt rd a n)

/-- The head of a sparse chunk (R218). -/
structure SHead where
  magic : Nat
  version : Nat
  form : Nat
  fmt : Nat
  layer : Nat
  nseg : Nat
  nblk : Nat
  blkOff : Nat
  rowsBlk : Nat
  colsBlk : Nat
  layerBlocks : Nat
  chunkIndex : Nat
  firstOrd : Nat
  rsvd : Bool
deriving DecidableEq, Repr

def sparseHead (rd : Nat → Byte) (a : Nat) : SHead :=
  let n (o k : Nat) := numAt rd (a + o) k
  { magic := n 0 4, version := n 4 1, form := n 5 1 % 2, fmt := n 6 1 % 16, layer := n 8 2, nseg := n 0xA 2, nblk := n 0xC 2
    blkOff := n 0xE 2, rowsBlk := n 0x10 4, colsBlk := n 0x14 4, layerBlocks := n 0x18 4, chunkIndex := n 0x1C 4
    firstOrd := n 0x20 4
    rsvd := decide (n 5 1 / 2 ≠ 0) || decide (n 6 1 / 16 ≠ 0) || decide (n 7 1 ≠ 0) || decide (n 0x24 28 ≠ 0) }

/-- A segment: consecutive blocks that share one line (R219). -/
structure Seg where
  line : Nat
  first : Nat
  count : Nat
  rsvd : Bool
deriving DecidableEq, Repr

/-- An index entry: the block's other index and its ordinal (R220). -/
structure Idx where
  cross : Nat
  ordinal : Nat
deriving DecidableEq, Repr

def sparseSegs (rd : Nat → Byte) (a nseg : Nat) : List Seg :=
  (List.range nseg).map fun i =>
    let p := a + 0x40 + 8 * i
    { line := numAt rd p 4, first := numAt rd (p + 4) 2, count := numAt rd (p + 6) 1, rsvd := decide (rd (p + 7) ≠ 0) }

def sparseIdx (rd : Nat → Byte) (a nseg nblk : Nat) : List Idx :=
  (List.range nblk).map fun i =>
    let p := a + 0x40 + 8 * nseg + 8 * i
    { cross := numAt rd p 4, ordinal := numAt rd (p + 4) 4 }

/-- The blocks of a segment. -/
def segBlocks (idx : List Idx) (s : Seg) : List Idx := (idx.drop s.first).take s.count

/-- The head stands: magic, version, rsvd fields and blk_off (R218, R247). -/
def headOk (h : SHead) : Bool :=
  decide (h.magic = 0x4B504C46) && decide (h.version = 1) && !h.rsvd &&
  decide (h.blkOff = alignUp (0x40 + 8 * h.nseg + 8 * h.nblk) 64)

/-- The counts stand: segments and blocks within what R218 and R221 allow in `f`. -/
def countsOk (h : SHead) (f : Fmt) : Bool :=
  decide (1 ≤ h.nseg ∧ h.nseg ≤ h.nblk) && decide (h.nblk ≤ chunkCapacity f) && decide (h.blkOff + h.nblk * blockStride f ≤ 65536)

/-- The head matches its descriptor, whose format is one of 0x1 to 0x8, and the chunk lies in the core's own store (R218, R222). -/
def headMatches (own : Nat → Nat → Bool) (d : Sparse) (h : SHead) : Bool :=
  decide (h.form = b2n d.colForm) && decide (h.fmt = d.fmt.code) && decide (h.layer = d.layer) &&
  decide (h.rowsBlk * 32 = d.rows) && decide (h.colsBlk * 32 = d.cols) && decide (h.layerBlocks = d.nblocks) &&
  decide (1 ≤ h.rowsBlk ∧ h.rowsBlk ≤ 65536) && decide (1 ≤ h.colsBlk ∧ h.colsBlk ≤ 65536) &&
  decide (d.base = d.metaBase + h.blkOff) && decide (d.metaBase % 64 = 0) && own d.metaBase 65536

/-- The first segment at fault: coverage, order, count, or line range (R222). -/
def segFault (lines nblk : Nat) : Nat → Nat → Option Nat → List Seg → Option Nat
  | i, next, _, [] => if next = nblk then none else some (i - 1)
  | i, next, prev, s :: t =>
    if s.rsvd || decide (s.first ≠ next) || decide (s.count = 0) || decide (s.count > 128) || decide (s.line ≥ lines) ||
       (match prev with | some p => decide (s.line ≤ p) | none => false) then some i
    else segFault lines nblk (i + 1) (next + s.count) (some s.line) t

/-- The cross indices of a segment rise strictly and lie below `lim`; the first entry at fault. -/
def crossFault (lim : Nat) : Nat → Option Nat → List Idx → Option Nat
  | _, _, [] => none
  | i, prev, x :: t =>
    if decide (x.cross ≥ lim) || (match prev with | some p => decide (x.cross ≤ p) | none => false) then some i
    else crossFault lim (i + 1) (some x.cross) t

/-- The outcome of validation: what STR_META_ERR records (reason, entry), and the tables. -/
structure Validated where
  head : SHead
  segs : List Seg
  idx : List Idx
  reason : Nat
  entry : Nat
deriving DecidableEq, Repr

/-- Validation of the chunk a SPARSE names (R222). A count out of range is a fault of the segments (DEDUCED, log entry 92). `own` says a range lies in the core's populated store; `place` says
that a line and a cross fall inside the instruction's operands and destination. -/
def validateChunk (rd : Nat → Byte) (own : Nat → Nat → Bool) (place : Nat → Nat → Bool) (d : Sparse) : Validated :=
  let h := sparseHead rd d.metaBase
  if !headOk h then { head := h, segs := [], idx := [], reason := 1, entry := 0 }
  else if !headMatches own d h then { head := h, segs := [], idx := [], reason := 2, entry := 0 }
  else if !countsOk h d.fmt then { head := h, segs := [], idx := [], reason := 3, entry := 0 }
  else
    let segs := sparseSegs rd d.metaBase h.nseg
    let idx := sparseIdx rd d.metaBase h.nseg h.nblk
    let lines := if d.colForm then h.colsBlk else h.rowsBlk
    let others := if d.colForm then h.rowsBlk else h.colsBlk
    match segFault lines h.nblk 0 0 none segs with
    | some i => { head := h, segs := segs, idx := idx, reason := 3, entry := i }
    | none =>
      let crosses := segs.filterMap fun s => crossFault others s.first none (segBlocks idx s)
      let ords := if d.colForm then [] else below h.nblk fun i => decide ((nth ⟨0, 0⟩ idx i).ordinal ≠ h.firstOrd + i)
      match crosses ++ ords with
      | i :: _ => { head := h, segs := segs, idx := idx, reason := 4, entry := i }
      | [] =>
        let bad := (segs.map fun s => (below s.count fun j =>
          !place s.line (nth ⟨0, 0⟩ idx (s.first + j)).cross).map (s.first + ·)).flatten
        { head := h, segs := segs, idx := idx, reason := if bad.isEmpty then 0 else 5, entry := bad.headD 0 }

/-- Element (r, c) of block `i` of a chunk, decoded with its scale (R217). -/
def blockElem (rd : Nat → Byte) (d : Sparse) (i r c : Nat) : FVal :=
  let b := d.base + i * blockStride d.fmt
  let bit := c * d.fmt.bits
  let a := b + blockElems d.fmt + r * blockRowBytes d.fmt + bit / 8
  let w := bitsOf (numAt rd a 4) (bit % 8 + d.fmt.bits - 1) (bit % 8)
  if d.fmt.isMx then (decodeBlock d.fmt (rd (b + r)).toNat [w]).headD fzero else decodeElem d.fmt w

end Sys2Proof.Machine
end

