-- ==== Sys2Proof/Machine/TensorRead.lean ====
section
/-! DEFINITION. What is read of a tile store: the elements of a tensor with their scales (R66, R136), the chunk a sparse instruction
names (R222), and where an SMMP stands (R240). -/

namespace Sys2Proof.Machine

/-- The bits of element (r, c). -/
def State.elemBits (s : State) (t : Tensor) (r c : Nat) : Nat :=
  let o := t.bitOff r c
  bitsOf (ofLe (getBytes s.mem (t.base + o / 8) 5)) (o % 8 + t.fmt.bits - 1) (o % 8)

/-- The value of element (r, c), its scale applied; beyond the shape it is zero (R75, R136). -/
def State.elem (s : State) (t : Tensor) (r c : Nat) : FVal :=
  if t.rows ≤ r ∨ t.cols ≤ c then fzero
  else
    let w := s.elemBits t r c
    if t.fmt.isMx then (decodeBlock t.fmt (s.byteAt (t.scaleAddr r c)).toNat [w]).headD fzero else decodeElem t.fmt w

/-- The tensor lies in the populated tile-store window of core `i` (R140). -/
def Tensor.own (i : Nat) (t : Tensor) : Bool :=
  ownRange i t.base t.extent && (!t.fmt.isMx || ownRange i t.scaleBase t.scaleCount)

/-- The tensor of operand `k` of an issued instruction. -/
def State.tensorAt (s : State) (d : List (BitVec 256)) (k : Nat) : Option Tensor := parseTensor s.govFormat (nth 0 d k)

def State.sparseAt (s : State) (d : List (BitVec 256)) (k : Nat) : Option Sparse := parseSparse s.govFormat (nth 0 d k)

/-- Passes of `kpass` that cover K. -/
def passesOf (k kpass : Nat) : Nat := (k + kpass - 1) / kpass

/-- Row tiles of a tensor. -/
def rowTiles (t : Tensor) : Nat := (t.rows + 31) / 32

/-- Origins of SMM, SMMT and SDWRS: k0 and n0 (R225, R227). -/
def originK (w : BitVec 128) : Nat := iImm w % 65536
def originN (w : BitVec 128) : Nat := iImm w / 65536

/-! ## Validation of a sparse chunk -/

/-- Where a line and a cross of the instruction's chunk must fall (R225, R227): inside dst, and inside the dense operand. -/
def sparsePlace (s : State) (w : BitVec 128) (d : List (BitVec 256)) (line cross : Nat) : Bool :=
  let inside (x o : Nat) (cols : Nat) : Bool := decide (o ≤ x) && decide (32 * (x - o) < cols)
  let colsOf (k : Nat) : Nat := match s.tensorAt d k with | some t => t.cols | none => 0
  match iOpcode w with
  | 0x28 => inside line (originN w) (colsOf 0) && inside cross (originK w) (colsOf 1)
  | 0x29 => inside line (originK w) (colsOf 0) && inside cross (originN w) (colsOf 1)
  | 0x2A =>
    let col := match s.sparseAt d 3 with | some p => p.colForm | none => false
    let n := if col then cross else line
    let k := if col then line else cross
    inside n (originN w) (colsOf 2) && inside k (originK w) (colsOf 1)
  | _ => inside line 0 (colsOf 0) && inside cross 0 (colsOf 1)

/-- The index of the descriptor that names an instruction's chunk. -/
def sparseOperand (w : BitVec 128) : Nat := if iOpcode w = 0x2A then 3 else 2

/-- Validation of the chunk an instruction names (R222); none for an instruction without one. -/
def State.validated (s : State) (i : Nat) (w : BitVec 128) (d : List (BitVec 256)) : Option Validated :=
  (s.sparseAt d (sparseOperand w)).map fun p => validateChunk s.byteAt (fun a n => ownRange i a n) (sparsePlace s w d) p

/-- A sparse instruction names its chunk by a SPARSE entry; SMMP may name a dense TENSOR instead. -/
def usesChunk (s : State) (w : BitVec 128) (d : List (BitVec 256)) : Bool :=
  match iOpcode w with
  | 0x28 => true
  | 0x29 => true
  | 0x2A => true
  | 0x2D => (s.tensorAt d 2).isNone
  | _ => false

/-- The bit of tile (m, b) of a mask (R239). -/
def State.maskBit2 (s : State) (t : Tensor) (m b : Nat) : Bool := (s.elemBits t m (b / 32)).testBit (b % 32)

/-- The instruction at the head has not begun. -/
def QEntry.fresh (e : QEntry) : Bool := decide (e.item = 0) && decide (e.aux = 0) && e.acc.isEmpty && !e.replaying

/-- Where an SMMP stands (R240): its tile, whether the mask has it active, and the passes of its full computation. -/
structure SmmpAt where
  m : Nat
  n : Nat
  active : Bool
  passes : Nat
deriving DecidableEq, Repr

/-- The pass at hand is a shadow pass. -/
def SmmpAt.shadow (x : SmmpAt) (e : QEntry) : Bool := !x.active && decide (e.aux = 0)

/-- The pass of the full computation at hand. -/
def SmmpAt.pass (x : SmmpAt) (e : QEntry) : Nat := if x.active then e.aux else e.aux - 1

def State.smmpAt (s : State) (i : Nat) (e : QEntry) : Option SmmpAt :=
  match s.tensorAt e.d 0, s.tensorAt e.d 1, s.tensorAt e.d 3 with
  | some dst, some x, some msk =>
    let nt := (dst.cols + 31) / 32
    match s.tensorAt e.d 2 with
    | some b =>
      let m := e.item / nt
      let n := e.item % nt
      some { m := m, n := n, active := s.maskBit2 msk m n, passes := passesOf b.rows 4096 }
    | none =>
      let line : Nat := match s.validated i e.word e.d with
        | some v => match v.segs[e.item / rowTiles x]? with | some g => g.line | none => 0
        | none => 0
      let m := e.item % rowTiles x
      some { m := m, n := line, active := s.maskBit2 msk m line, passes := 1 }
  | _, _, _ => none

end Sys2Proof.Machine
end

