-- ==== Sys2Proof/Machine/RegView.lean ====
section
/-! DEFINITION. What a register read returns: the value held at the register, or, for a register that shows state held
elsewhere, the value formed from that state. -/

namespace Sys2Proof.Machine

/-! ## Sequencers, engines, vector units, Strainers -/

/-- The state code of SEQ_STATUS (R176). -/
def Core.stCode (c : Core) : Nat :=
  if c.fenced then 8
  else match c.st with
    | .idle => 0 | .ready => 1 | .running => 2 | .waiting => 3 | .ended => 4 | .draining => 5 | .drained => 6
    | .exception => 7

/-- SEQ_STATUS (R176). -/
def seqStatus (c : Core) : Word :=
  let t := match c.waits with | .token t => t | _ => 0
  mkWord [(c.pc, 16), (b2n !(nth [] c.queues 0).isEmpty, 8), (b2n !(nth [] c.queues 1).isEmpty, 9),
    (b2n !(nth [] c.queues 2).isEmpty, 10), (b2n !(nth [] c.queues 3).isEmpty, 11), (t, 4), (c.stCode, 0)]

/-- The core's region is draining. -/
def State.coreDraining (s : State) (i : Nat) : Bool :=
  match s.coreRegion i with
  | some r => (s.region r).draining
  | none => false

/-- An opcode is one of the sparse instructions. -/
def isSparseOp (w : BitVec 128) : Bool := decide (0x28 ≤ iOpcode w) && decide (iOpcode w ≤ 0x2D)

/-- The instruction at the head of a queue of core `i`, where its issue status lets it run. -/
def State.running (s : State) (i q : Nat) : Option QEntry := (s.headOf i q).filter fun e => decide (e.status = .ok)

/-- ENG_STATUS (R89). A bank is held by the pass at hand until its result is released, the other by the pass held or awaited behind a
replay; waits of beats do not show (log entry 79). -/
def engStatus (s : State) (i : Nat) : Word :=
  let c := s.core i
  let h := (s.running i 0).filter fun e => passOp e.word
  let on (f : QEntry → Bool) : Nat := match h with | some e => b2n (f e) | none => 0
  mkWord [(b2n c.fenced, 7), (on (·.replaying), 6), (on (fun _ => true) + on fun e => decide (e.ahead ≠ .none), 4),
    (on fun e => !e.acc.isEmpty && !e.offered && !urnBound e.word, 3), (b2n (s.coreDraining i), 1), (on fun _ => true, 0)]

/-- VEC_STATUS (R117). -/
def vecStatus (s : State) (i : Nat) : Word :=
  let c := s.core i
  let rep := match s.headOf i 1 with | some e => e.replaying | none => false
  let wgb := match s.running i 0 with | some e => decide (iOpcode e.word = 0x21 ∨ iOpcode e.word = 0x23) | none => false
  mkWord [(b2n c.fenced, 5), (b2n rep, 4), (b2n wgb, 3), (b2n (s.coreDraining i), 1), (b2n (s.headOf i 1).isSome, 0)]

/-- STR_STATUS (R245): a chunk is being validated before its instruction's first pass, and gathered from afterwards. -/
def strStatus (s : State) (i : Nat) : Word :=
  let c := s.core i
  let h := (s.headOf i 0).filter fun e => isSparseOp e.word
  let on (f : QEntry → Bool) : Nat := match h with | some e => b2n (decide (e.status = .ok) && f e) | none => 0
  let shadow (e : QEntry) : Bool := decide (iOpcode e.word = 0x2D) && (match s.smmpAt i e with | some x => !x.active | none => false)
  mkWord [(b2n c.fenced, 5), (on shadow, 4), (on fun e => urnBound e.word && decide (e.aux = 2 ∨ e.aux = 3), 3),
    (on fun e => usesChunk s e.word e.d && decide (iOpcode e.word ≠ 0x2A) && !e.fresh, 2),
    (on fun e => usesChunk s e.word e.d && e.fresh, 1), (b2n h.isSome, 0)]

/-- Any core satisfies `p`. -/
def State.anyCore (s : State) (p : Core → Bool) : Bool := s.cores.any fun e => p e.2

/-- Cores that satisfy `p`. -/
def State.countCores (s : State) (p : Core → Bool) : Nat := (s.cores.filter fun e => p e.2).length

/-- SEQ_SUMMARY (R176). -/
def seqSummary (s : State) : Word :=
  mkWord [(s.countCores fun c => !c.fenced && (decide (c.st = .running) || decide (c.st = .waiting)), 0),
    (s.countCores fun c => !c.fenced && decide (c.st = .ended), 12),
    (s.countCores fun c => !c.fenced && decide (c.st = .drained), 24),
    (s.countCores fun c => !c.fenced && decide (c.st = .exception), 36)]

/-! ## TOP (R476 to R481) -/

/-- A cluster has fewer than eleven active cores (R464). -/
def State.shortCluster (s : State) (c : Nat) : Bool := decide ((s.clusterCores c).length < 11)

/-- TOP_SUMMARY (R479). -/
def topSummary (s : State) : Word :=
  let sum (f : Nat → Nat) : Nat := ((List.range 256).map f).foldl (· + ·) 0
  mkWord [(sum fun c => (s.clusterCores c).length, 52), (s.spares, 40),
    (sum fun c => popcount 12 (Smap.get 0 s.fuse.bad c), 28), (s.flash.failures.length, 16),
    (sum fun c => b2n (xbarBorrowed (s.xbar c)), 8), (sum (fun c => b2n (s.shortCluster c)) % 256, 0)]

/-- TOP_CLUSTER[c] (R480). -/
def topCluster (s : State) (c : Nat) : Word :=
  let mask (p : Nat → Bool) : Nat := (below 12 p).foldl (fun a k => a + 2 ^ k) 0
  mkWord [(b2n (s.fuse.noSpare.contains c), 45), (b2n (s.shortCluster c), 44),
    (mask fun k => s.flash.failures.contains (coreIdx c k), 32), (mask fun k => (s.core (coreIdx c k)).passedTest, 16),
    (Smap.get 0 s.fuse.bad c % 4096, 0)]

/-- TOP_DIE_STATUS (R481). -/
def topDieStatus (s : State) (d : Nat) : Word :=
  let x := s.die d
  mkWord ((List.range 4).map (fun k => (b2n (s.cluster (4 * d + k)).ready, 20 + k)) ++
    [(b2n x.edgeReady, 17), (b2n (s.stack d).ready, 16), (b2n x.routerOk, 15), (dieRing d, 10), (x.rails % 16, 4),
     (if x.fenced then 5 else x.phase, 0)])

/-! ## Governor, Urn, Infuser, Samovar, Sip, link, memory -/

/-- URN_STATUS (R250). -/
def urnStatus (s : State) (c : Nat) : Word :=
  let u := (s.cluster c).urn
  let merging := (s.clusterCores c).any fun i => match (nth [] (s.core i).queues 0).head? with
    | some e => decide (iOpcode e.word = 0x2B)
    | none => false
  mkWord [(b2n u.failed, 52), (b2n u.fenced, 51), (b2n merging, 50), (b2n u.isOpen, 48), (u.logUsed % 2 ^ 32, 16),
    (u.entries.length, 0)]

/-- INF_STATUS of one Infuser (R279). -/
def infStatus (s : State) (p : Nat) : Word :=
  let x := s.inf p
  let out := (x.chunks.filter fun c => c.tag.isSome).length
  mkWord [(x.chunks.length + x.pushes.length, 48), (out, 32), (x.reqs.length, 16),
    (b2n (s.rflag .infPort p Reg.INF_PASSON 63), 3), (b2n (s.stageWaits p), 2), (b2n (s.ringWaits p), 1),
    (b2n !x.reqs.isEmpty, 0)]

/-- The module-level INF_STATUS (R279). -/
def infSummary (s : State) : Word :=
  mkWord [(b2n (s.wts.man.any (·.forActive)), 5),
    (b2n ((List.range 16).any s.stageWaits), 4), (b2n s.wts.between, 3), (b2n s.wts.prior.isSome, 2),
    (b2n s.wts.active.isSome, 1), (b2n (s.wts.infs.any fun e => !e.2.reqs.isEmpty), 0)]

def State.sam (s : State) (p : Nat) : Sam := nth Sam.idle s.coll.sams p

/-- SAM_STATUS (R319). -/
def samStatus (x : Sam) : Word :=
  mkWord [(x.retained.length, 24), (b2n (x.ctxs.any fun c => decide (0 < c.attempt) && !c.held), 18),
    (b2n x.waiting, 17), (b2n !x.ctxs.isEmpty, 16),
    (x.ctxs.length, 0)]

/-- The code of a group state (R286). -/
def GrpSt.code : GrpSt → Nat
  | .none => 0 | .forming => 1 | .formed => 2 | .failed => 3

/-- SAM_GROUP[g] (R321). -/
def samGroup (s : State) (g : Nat) : Word :=
  match Smap.get? s.coll.groups g with
  | none => 0
  | some x =>
    let me := (x.cfg.members.findIdx? fun m => decide (m.rank = s.blend.rank)).getD 0
    mkWord [(x.st.code, 62), (x.epoch, 48), (x.cfg.members.length - 1, 32), (me, 16), (x.cfg.job, 0)]

/-- SIP_GROUP[g] (R328). -/
def sipGroupWord (s : State) (g : Nat) : Word :=
  match Smap.get? s.coll.sips g with
  | none => 0
  | some x =>
    mkWord [(x.st.code, 62), (x.epoch, 48), (x.cfg.upPort % 16, 44), (b2n x.cfg.root, 43), (x.cfg.downMask % 65536, 24),
      (x.cfg.modules - 1, 0)]

/-- The Sip port of the unit that serves a group: its up port (R313); the field is 0 at the root (DEDUCED, log entry 38). -/
def SipGroupCfg.unit (c : SipGroupCfg) : Nat := c.upPort

/-- Combines open at the unit of a port. -/
def State.sipOpen (s : State) (p : Nat) : Nat :=
  (s.coll.combines.filter fun c => match Smap.get? s.coll.sips c.group with
    | some g => decide (g.cfg.unit = p)
    | none => false).length

/-- LNK_STATUS of one port: the fields held, and the tags outstanding (R365). -/
def lnkStatus (s : State) (p : Nat) : Word :=
  let x := s.port p
  setFld (setFld (s.peek .lnkPort p Reg.LNK_STATUS) 42 32 x.tags.length) 8 8 (b2n x.jfence.isSome)

/-- The module-level LNK_STATUS (R365). -/
def lnkSummary (s : State) : Word :=
  let n (f : Nat → Bool) : Nat := (below 16 f).length
  mkWord [(n fun p => decide (s.portState p = 4), 0), (n fun p => s.rflag .lnkPort p Reg.LNK_STATUS 10, 5),
    (n fun p => decide (s.portState p = 9), 10)]

/-- MEM_STATUS (R395). -/
def memStatus (s : State) (n : Nat) : Word :=
  let x := s.stack n
  let used := (s.flash.soft.filter fun r => decide (r.stack = n) && r.applied).length
  mkWord [(used, 24), ((x.cands.filter (·.marked)).length, 16), (x.erased.getD 0, 8), (b2n x.erased.isSome, 7),
    (b2n (s.rflag .memDie n Reg.MEM_FLIP_MASK 63), 1), (b2n x.ready, 0)]

/-- MEM_ROW_CAND[k] (R399). -/
def rowCandWord (x : RowCand) : Word :=
  mkWord [(1, 63), (b2n x.marked, 62), (x.count, 32), (x.row, 21), (x.bank, 11), (x.channel, 0)]

/-- SCR_STATUS (R402). -/
def scrStatus (x : Stack) : Word :=
  mkWord [(b2n x.lapSlow, 63), (b2n x.scrubCrit, 62), (x.scrubPos, 0)]

/-! ## Host interface -/

/-- HIF_STATUS (R423). -/
def hifStatus (h : HostIf) : Word :=
  mkWord [(h.acked % 2 ^ 32, 32), (h.buf.length, 10), (b2n h.linkUp, 1), (b2n h.ready, 0)]

/-- HIF_CMDQ[q] (R425): last tag, status and code, the running command's tag, and the entries held. -/
def cmdqWord (q : CmdQ) : Word :=
  let held := q.waiting.length + b2n q.running.isSome
  let tag := match q.running with | some c => c.tag | none => 0
  mkWord [(q.lastTag, 44), (q.lastStatus.code, 40), (q.lastCode, 32), (tag, 12), (held, 0)]

/-- SEC_STATUS (R551). -/
def secStatus (s : State) (held : Word) : Word :=
  mkWord [(s.fuse.epoch, 16), (s.sec.slot, 8),
    (b2n (s.record.slots.any fun r => !r.signed && decide (r.tries < 2)) ||| b2n s.sec.ckpDue ||| b2n (!s.sec.attests.isEmpty), 2),
    (b2n s.fuse.owner.isSome, 1), (fld held 0 0, 0)]

/-- Word `k` of the bytes of a certificate or hash. -/
def wordOf (bs : List Byte) (k : Nat) : Word := BitVec.ofNat 64 (leAt bs (8 * k) 8)

/-! ## The view -/

/-- CTRL registers of an instance block show the module-level register at the same offset. -/
def mirrors (b : RBlk) (o : Nat) : Bool :=
  match b with
  | .seqCore => decide (o = Reg.SEQ_CTRL)
  | .engCore => decide (o = Reg.ENG_CTRL ∨ o = Reg.ENG_TAU)
  | .infPort => decide (o = Reg.INF_CTRL)
  | .samPort => decide (o = Reg.SAM_CTRL)
  | .sipPort => decide (o = Reg.SIP_CTRL)
  | .lnkPort => decide (o = Reg.LNK_CTRL)
  | .memDie => decide (o = Reg.MEM_CTRL)
  | .scrDie => decide (o = Reg.SCR_CTRL)
  | _ => false

/-- The EVENT register whose module-level form is the OR of its instances (R35). -/
def eventOffset (b : RBlk) : Option (RBlk × Nat) :=
  match b with
  | .seqMod => some (.seqCore, Reg.SEQ_EVENT)
  | .engMod => some (.engCore, Reg.ENG_EVENT)
  | .vecMod => some (.vecCore, Reg.VEC_EVENT)
  | .strMod => some (.strCore, Reg.STR_EVENT)
  | .urnMod => some (.urnCluster, Reg.URN_EVENT)
  | .memMod => some (.memDie, Reg.MEM_EVENT)
  | .scrMod => some (.scrDie, Reg.SCR_EVENT)
  | .lnkMod => some (.lnkPort, Reg.LNK_EVENT)
  | .samMod => some (.samPort, Reg.SAM_EVENT)
  | .infMod => some (.infPort, Reg.INF_EVENT)
  | .sipMod => some (.sipPort, Reg.SIP_EVENT)
  | _ => none

/-- The identification register of an instance or module-level block, with the fields that name it. -/
def idWord (s : State) (b : RBlk) (i o : Nat) : Word :=
  let w := s.peek b i o
  match b with
  | .seqCore | .engCore | .vecCore | .strCore => setFld w 45 32 i
  | .infPort | .samPort | .sipPort | .lnkPort => setFld w 39 36 i
  | .infMod | .samMod | .sipMod | .lnkMod => setFld w 40 40 1
  | .memDie => setFld w 37 32 i
  | _ => w

/-- The part of `State.view` that shows no mirror and no OR of events. -/
def State.viewRest (s : State) (b : RBlk) (i o : Nat) (idx : Nat → Nat → Nat) (held : Word) : Word :=
  match b with
  | .hifMod =>
    if o = Reg.HIF_STATUS then hifStatus s.host
    else if Reg.HIF_CMDQ ≤ o ∧ o < Reg.HIF_CMDQ + 128 then cmdqWord (nth CmdQ.blank s.host.queues (idx Reg.HIF_CMDQ 8))
    else held
  | .topMod =>
    if o = Reg.TOP_SUMMARY then topSummary s
    else if Reg.TOP_CLUSTER ≤ o ∧ o < Reg.TOP_CLUSTER + 2048 then topCluster s (idx Reg.TOP_CLUSTER 8)
    else if Reg.TOP_LANE_FUSE_RX ≤ o ∧ o < Reg.TOP_LANE_FUSE_RX + 256 then
      let p := (o - Reg.TOP_LANE_FUSE_RX) / 16
      BitVec.ofNat 64 (Smap.get 0 (if o % 16 = 0 then s.fuse.laneRx else s.fuse.laneTx) p % 2 ^ 34)
    else held
  | .topDie => if o = Reg.TOP_DIE_STATUS then topDieStatus s i else held
  | .seqMod => if o = Reg.SEQ_SUMMARY then seqSummary s else held
  | .seqCore =>
    let c := s.core i
    if o = Reg.SEQ_ID then idWord s b i o
    else if o = Reg.SEQ_STATUS then seqStatus c
    else if o = Reg.SEQ_ENTRY then
      (if c.hasProg then mkWord [(b2n c.evaluation, 48), (c.prog.length - 1, 32), (c.entry, 0)] else 0)
    else if Reg.SEQ_TOKEN ≤ o ∧ o < Reg.SEQ_TOKEN + 128 then BitVec.ofNat 64 (nth 0 c.tok (idx Reg.SEQ_TOKEN 8))
    else if Reg.SEQ_LC ≤ o ∧ o < Reg.SEQ_LC + 32 then BitVec.ofNat 64 (nth 0 c.lc (idx Reg.SEQ_LC 8))
    else if Reg.SEQ_DESC ≤ o then
      let k := idx Reg.SEQ_DESC 8
      BitVec.ofNat 64 (fld (c.entryOf (k / 4)) (64 * (k % 4) + 63) (64 * (k % 4)))
    else held
  | .seqCluster =>
    let c := s.cluster i
    if o = Reg.SEQ_CL_STATUS then
      mkWord [(c.barArrived % 8192, 48), (c.barId, 32), (b2n c.barOpen, 28), (c.endedMask % 8192, 0)]
    else if o = Reg.SEQ_CL_BATCH then BitVec.ofNat 64 c.batchNo
    else held
  | .engMod => if o = Reg.ENG_STATUS then BitVec.ofNat 64 (b2n (s.anyCore fun c => !(nth [] c.queues 0).isEmpty)) else held
  | .engCore =>
    if o = Reg.ENG_ID then idWord s b i o
    else if o = Reg.ENG_STATUS then engStatus s i
    else if o = Reg.ENG_SR_COUNTER then BitVec.ofNat 64 (s.core i).srCounter
    else held
  | .vecMod => if o = Reg.VEC_STATUS then BitVec.ofNat 64 (b2n (s.anyCore fun c => !(nth [] c.queues 1).isEmpty)) else held
  | .vecCore =>
    if o = Reg.VEC_ID then idWord s b i o else if o = Reg.VEC_STATUS then vecStatus s i else held
  | .strMod =>
    if o = Reg.STR_STATUS then BitVec.ofNat 64 (b2n (s.anyCore fun c => match (nth [] c.queues 0).head? with
      | some e => isSparseOp e.word
      | none => false))
    else held
  | .strCore =>
    if o = Reg.STR_ID then idWord s b i o else if o = Reg.STR_STATUS then strStatus s i else held
  | .urnCluster =>
    let u := (s.cluster i).urn
    if o = Reg.URN_STATUS then urnStatus s i
    else if o = Reg.URN_SESSION then (if u.isOpen then mkWord [(u.layer, 48), (u.width % 2 ^ 20, 0)] else 0)
    else if o = Reg.URN_NEXT_ROW then BitVec.ofNat 64 (u.nextRow % 2 ^ 30)
    else held
  | .urnMod =>
    if o = Reg.URN_SUMMARY then
      let n (f : Urn → Bool) : Nat := (s.clusters.filter fun e => f e.2.urn).length
      mkWord [(n (·.isOpen), 0)]
    else held
  | .govMod => held
  | .govCluster =>
    if o = Reg.GOV_CL_STATUS then BitVec.ofNat 64 (s.cluster i).gov.length
    else if Reg.GOV_CL_LAYER ≤ o then
      let c := s.layerChoice (idx Reg.GOV_CL_LAYER 8)
      mkWord [(c.1, 0), (c.2, 8)]
    else held
  | .infPort => if o = Reg.INF_ID then idWord s b i o else if o = Reg.INF_STATUS then infStatus s i else held
  | .infMod =>
    if o = Reg.INF_ID then idWord s b i o
    else if o = Reg.INF_SUMMARY then infSummary s
    else if o = Reg.INF_STAGE_WAIT then ((List.range 16).map fun p => s.peek .infPort p o).foldl (fun a b => if a < b then b else a) 0
    else if o = Reg.INF_VERSION then mkWord [(s.wts.prior.getD 0, 32), (s.wts.active.getD 0, 0)]
    else if Reg.INF_ACTIVE_ROOT ≤ o ∧ o < Reg.INF_ACTIVE_ROOT + 32 then wordOf s.wts.activeRoot (idx Reg.INF_ACTIVE_ROOT 8)
    else held
  | .samPort => if o = Reg.SAM_ID then idWord s b i o else if o = Reg.SAM_STATUS then samStatus (s.sam i) else held
  | .samMod =>
    if o = Reg.SAM_ID then idWord s b i o
    else if o = Reg.SAM_STATUS then
      let sum := (s.coll.sams.map fun x => x.retained.length).foldl (· + ·) 0
      let big := (s.coll.sams.map fun x => x.ctxs.length).foldl max 0
      mkWord [(sum, 24), (b2n (s.coll.sams.any fun x => x.ctxs.any fun c => decide (0 < c.attempt) && !c.held), 18),
        (b2n (s.coll.sams.any fun x => !x.waits.isEmpty), 17), (b2n (0 < big), 16), (big, 0)]
    else if Reg.SAM_GROUP ≤ o ∧ o < Reg.SAM_GROUP + 2048 then samGroup s (idx Reg.SAM_GROUP 8)
    else if Reg.SAM_SIPGROUP_STATE ≤ o ∧ o < Reg.SAM_SIPGROUP_STATE + 2048 then
      sipGroupWord s (idx Reg.SAM_SIPGROUP_STATE 8) &&& 0xC0FF000000000000
    else held
  | .sipPort =>
    if o = Reg.SIP_ID then idWord s b i o
    else if o = Reg.SIP_STATUS then mkWord [(b2n (0 < s.sipOpen i), 16), (s.sipOpen i, 0)]
    else held
  | .sipMod =>
    if o = Reg.SIP_ID then idWord s b i o
    else if o = Reg.SIP_STATUS then
      ((List.range 16).map fun u => mkWord [(b2n (0 < s.sipOpen u), 16), (s.sipOpen u, 0)]).foldl (· ||| ·) 0
    else if Reg.SIP_GROUP ≤ o ∧ o < Reg.SIP_GROUP + 2048 then sipGroupWord s (idx Reg.SIP_GROUP 8)
    else held
  | .lnkPort => if o = Reg.LNK_ID then idWord s b i o else if o = Reg.LNK_STATUS then lnkStatus s i else held
  | .lnkMod => if o = Reg.LNK_ID then idWord s b i o else if o = Reg.LNK_SUMMARY then lnkSummary s else held
  | .memDie =>
    if o = Reg.MEM_ID then idWord s b i o
    else if o = Reg.MEM_STATUS then memStatus s i
    else if Reg.MEM_ROW_CAND ≤ o ∧ o < Reg.MEM_ROW_CAND + 512 then
      match (s.stack i).cands[idx Reg.MEM_ROW_CAND 8]? with
      | some x => rowCandWord x
      | none => 0
    else if Reg.MEM_SOFT_REPAIR ≤ o ∧ o < Reg.MEM_SOFT_REPAIR + 512 then
      match (s.flash.soft.filter fun r => decide (r.stack = i))[idx Reg.MEM_SOFT_REPAIR 8]? with
      | some x => mkWord [(1, 63), (b2n x.applied, 62), (x.row, 21), (x.bank, 11), (x.channel, 0)]
      | none => 0
    else held
  | .memMod => if o = Reg.MEM_SUMMARY then mkWord [((s.stackSt.filter fun e => e.2.erased.isSome).length, 0)] else held
  | .scrDie => if o = Reg.SCR_STATUS then scrStatus (s.stack i) else held
  | .scrMod =>
    if o = Reg.SCR_SUMMARY then mkWord [((s.stackSt.filter fun e => e.2.lapSlow).length, 0)]
    else if o = Reg.SCR_LAP then mkWord [(((List.range 64).map fun n => s.rfield .scrDie n Reg.SCR_LAP 31 0).foldl max 0, 0)]
    else held
  | .secMod =>
    if o = Reg.SEC_STATUS then secStatus s held
    else if Reg.SEC_OWNER ≤ o ∧ o < Reg.SEC_OWNER + 32 then
      match s.fuse.owner with
      | some h => wordOf (leBytes 32 h.toNat) (idx Reg.SEC_OWNER 8)
      | none => held
    else if Reg.SEC_IDENTITY ≤ o ∧ o < Reg.SEC_IDENTITY + 32 then
      wordOf (hashBytes (shake256 Config.identityKey)) (idx Reg.SEC_IDENTITY 8)
    else if Reg.SEC_CERT_ID ≤ o ∧ o < Reg.SEC_CERT_ID + 5328 then wordOf Config.identityCert (idx Reg.SEC_CERT_ID 8)
    else if Reg.SEC_CERT_MFG ≤ o ∧ o < Reg.SEC_CERT_MFG + 5328 then wordOf Config.mfgCert (idx Reg.SEC_CERT_MFG 8)
    else held
  | .timMod => if o = Reg.TIM_NOW then BitVec.ofNat 64 s.tim.ns else held
  | .mgtMod =>
    if Reg.MGT_MANAGER ≤ o ∧ o < Reg.MGT_MANAGER + 16 then
      match s.mgt.manager with
      | some m => BitVec.ofNat 64 (fld m.addr (64 * idx Reg.MGT_MANAGER 8 + 63) (64 * idx Reg.MGT_MANAGER 8))
      | none => 0
    else held
  | _ => held


/-- The value held at a register, or the one last written to it that waits for the step boundary (R7, R17). -/
def State.shown (s : State) (b : RBlk) (i o : Nat) : Word := (Smap.get? s.pendRegs (blockBase b i + o)).getD (s.peek b i o)

/-- What a read of the register at offset `o` of block `b`, index `i`, returns. -/
def State.view (s : State) (b : RBlk) (i o : Nat) : Word :=
  let idx (base stride : Nat) : Nat := (o - base) / stride
  let held := s.shown b i o
  if mirrors b o then s.shown b.mod 0 o
  else match eventOffset b with
  | some (b', eo) => if o = eo then s.eventOr b' eo else s.viewRest b i o idx held
  | none => s.viewRest b i o idx held

end Sys2Proof.Machine
end

