-- ==== Sys2Proof/Machine/Bus.lean ====
section
/-! DEFINITION. The module address space (R33, R34): decoding an address, the reads every requester makes, the writes of
the DMA, and register accesses by access type (R7, R8, R613). -/

namespace Sys2Proof.Machine

/-- The outcome of a command that always completes. -/
abbrev Next := Host.Outcome State Fault Refusal

/-- The parts of the module address space. -/
inductive Space where
  | bonded
  | critical
  | tile (core : Nat)
  | urn (cluster : Nat)
  | reg (b : RBlk) (i o : Nat)
  | counter
  | unmapped
deriving DecidableEq, Repr

/-- The space that holds an address, by its first byte. -/
def spaceOf (a : Nat) : Space :=
  if a < 0x080000000000 then .bonded
  else if a < 0x080040000000 then .critical
  else if 0x100000000000 ≤ a ∧ a < 0x101000000000 then
    let i := (a - 0x100000000000) / 0x1000000
    if isCore i ∧ (a - 0x100000000000) % 0x1000000 < tileBytes then .tile i else .unmapped
  else if 0x180000000000 ≤ a ∧ a < 0x180040000000 then
    if (a - 0x180000000000) % 0x400000 < 0x3FC000 then .urn ((a - 0x180000000000) / 0x400000) else .unmapped
  else if 0x300000000000 ≤ a ∧ a < 0x300100000000 then .counter
  else match regSite a with
    | some (b, i, o) => .reg b i o
    | none => .unmapped

/-- A cluster whose region is being reset, or has tripped, as for a reset (R494). -/
def State.resettingCluster (s : State) (c : Nat) : Bool :=
  match s.regionOf c with
  | some r => (s.region r).resetting || (s.region r).tripped
  | none => false

/-- Whether the tile store or per-core registers of a core serve an access (R24, R34, R417, R418). -/
def State.coreGate (s : State) (i : Nat) : Status :=
  if s.resettingCluster (s.homeCluster i) then .targetReset
  else if (s.core i).fenced ∨ ¬ (s.core i).powered then .unavailable
  else .ok

/-- Whether a register block serves an access. -/
def State.blockGate (s : State) (b : RBlk) (i : Nat) : Status :=
  match b with
  | .seqCore | .engCore | .vecCore | .strCore => s.coreGate i
  | .urnCluster | .govCluster | .seqCluster | .topCluster =>
    if s.resettingCluster i then .targetReset else if ¬ (s.cluster i).ready then .unavailable else .ok
  | .topDie | .memDie | .scrDie => if (s.die i).phase = 0 then .unavailable else .ok
  | .lnkPort | .samPort | .infPort | .sipPort => if (s.die (portDie i)).edgeReady then .ok else .unavailable
  | _ => .ok

/-- Whether the Urn of a cluster serves an access; `busy`: it is in use (R13, R238). -/
def State.urnGate (s : State) (c : Nat) (busy : Bool) : Status :=
  if busy then .busy
  else if s.resettingCluster c then .targetReset
  else if ¬ (s.cluster c).ready then .unavailable
  else .ok

/-- A register read of `width` bytes (R613): fields that are write-only read 0 (R7). -/
def State.regRead (s : State) (b : RBlk) (i o width : Nat) : Status × Nat :=
  if (width ≠ 4 ∧ width ≠ 8) ∨ o % width ≠ 0 then (.malformed, 0)
  else match findReg b (o / 8 * 8) with
    | none => (.malformed, 0)
    | some r =>
      let gate := s.blockGate b i
      if gate ≠ .ok then (gate, 0)
      else
        let v := s.view b i (o / 8 * 8) &&& ~~~(r.maskOf fun a => decide (a = .wo))
        (.ok, if width = 8 then v.toNat else if o % 8 = 0 then fld v 31 0 else fld v 63 32)

/-- A register is a 64-bit read-only counter: one field over all bits, in a module-level block at offset 0x100 or above. -/
def isCounter (b : RBlk) (o : Nat) : Bool :=
  match findReg b o with
  | some r => decide (r.fields = [⟨63, 0, .ro, 0⟩]) && decide (r.count = 1) && decide (0x100 ≤ o)
  | none => false

/-- A read of counter space (R586): live image, snapshot image, snapshot header. -/
def State.counterRead (s : State) (a : Nat) : Status × Nat :=
  let d := a - 0x300000000000
  if d % 8 ≠ 0 then (.malformed, 0)
  else if 0xFFFF0000 ≤ d then
    if d < 0xFFFF0020 then (.ok, leAt s.snapHead (d - 0xFFFF0000) 8) else (.malformed, 0)
  else
    let live := decide (d < 0x80000000)
    let x := if live then d else d - 0x80000000
    match modBlocks[x / 0x100000]? with
    | none => (.malformed, 0)
    | some b =>
      let o := x % 0x100000
      if ¬ isCounter b o then (.malformed, 0)
      else if live then (.ok, (s.view b 0 o).toNat)
      else (.ok, (Smap.get 0 s.snap (modWin b.index + o)).toNat)

/-- Read `n` bytes in 8-byte pieces, each answered by `f`. -/
def pieces (f : Nat → Status × Nat) (a n : Nat) : Status × List Byte :=
  if a % 8 ≠ 0 ∨ n % 8 ≠ 0 then (.malformed, [])
  else
    let rs := (List.range (n / 8)).map fun k => f (a + 8 * k)
    let st := rs.foldl (fun st r => st.join r.1) Status.ok
    if st = .ok then (.ok, rs.flatMap fun r => leBytes 8 r.2) else (st, [])

/-- No word in error. -/
def StoreObs.clean : StoreObs := { corrected := [], double := false }

/-- Nothing in error. -/
def ItemObs.clean : ItemObs := { rd := StoreObs.clean, wr := StoreObs.clean, addFails := false, addFailsAgain := false }

/-- The 136 bytes of an entry; in the log its age is zero (R232, R236). -/
def UrnEntry.bytes (e : UrnEntry) (age : Nat) : List Byte :=
  leBytes 8 (e.row % 2 ^ 30 + e.line % 2 ^ 20 * 2 ^ 30 + age % 4096 * 2 ^ 50 + 2 ^ 63) ++ e.vals.flatMap fun v => leBytes 4 v.toNat

/-- A log record as an entry. -/
def urnRecord (bs : List Byte) : UrnEntry :=
  let k := leAt bs 0 8
  { row := bitsOf k 29 0, line := bitsOf k 49 30, age := 0
    vals := (List.range 32).map fun j => BitVec.ofNat 32 (leAt bs (8 + 4 * j) 4) }

/-- The byte at offset `o` of the Urn window of cluster `c`: of an entry in use, or of the storage of one that is not (R232). -/
def State.urnByte (s : State) (c o : Nat) : Byte :=
  match Smap.get? (s.cluster c).urn.entries (o / 136) with
  | some e => nth 0 (e.bytes e.age) (o % 136)
  | none => s.byteAt (0x180000000000 + c * 0x400000 + o)

/-- Read `n` bytes of the module address space at `a`, for the host, a DMA transfer or a descriptor load. Registers,
critical words and counters are read in naturally aligned words. `o`: what the words read of a tile store hold in error (R94). -/
def State.busRead (s : State) (a n : Nat) (o : StoreObs) : Status × List Byte × State :=
  if n = 0 then (.malformed, [], s)
  else match spaceOf a with
  | .bonded => s.memRead a n
  | .critical =>
    if a % 8 ≠ 0 ∨ n % 8 ≠ 0 ∨ critBase + 0x40000000 < a + n then (.malformed, [], s)
    else
      let r := (List.range (n / 8)).foldl (fun (acc : Status × List Byte × State) k =>
        let x := acc.2.2.critRead (a + 8 * k)
        (acc.1.join x.1, acc.2.1 ++ leBytes 8 x.2.1.toNat, x.2.2)) (Status.ok, [], s)
      (r.1, if r.1 = .ok then r.2.1 else [], r.2.2)
  | .tile i =>
    if ¬ ownRange i a n then (.malformed, [], s)
    else
      let gate := s.coreGate i
      if gate ≠ .ok then (gate, [], s)
      else
        let s := s.tsReads i (wordsIn a n) o.corrected o.double
        if o.double then (.dataErr, [], s.fenceCore i csStore) else (.ok, getBytes s.mem a n, s)
  | .urn c =>
    if 0x3FC000 < (a - 0x180000000000) % 0x400000 + n then (.malformed, [], s)
    else
      let gate := s.urnGate c (s.cluster c).urn.isOpen
      let at0 := (a - 0x180000000000) % 0x400000
      if gate ≠ .ok then (gate, [], s) else (.ok, (List.range n).map fun k => s.urnByte c (at0 + k), s)
  | .reg b i o =>
    if n = 4 ∨ n = 8 then
      let r := s.regRead b i o n
      (r.1, if r.1 = .ok then leBytes n r.2 else [], s)
    else
      let r := pieces (fun x => match regSite x with
        | some (b, i, o) => s.regRead b i o 8
        | none => (.malformed, 0)) a n
      (r.1, r.2, s)
  | .counter =>
    let r := pieces s.counterRead a n
    (r.1, r.2, s)
  | .unmapped => (.malformed, [], s)

/-- A sparse instruction of the cluster that holds this address in its Urn window is in an engine queue (R149). -/
def State.sparseBusy (s : State) (a : Nat) : Bool :=
  match spaceOf a with
  | .urn c => (s.clusterCores c).any fun i => (nth [] (s.core i).queues 0).any fun e => isSparseOp e.word
  | _ => false

/-- Bytes written to the Urn window of cluster `c` from offset `o`: an entry that comes to be valid is in use from then on (R232). -/
def State.urnWrite (s : State) (c o : Nat) (bs : List Byte) : State :=
  let base := 0x180000000000 + c * 0x400000
  let n := bs.length
  (List.range ((o + n + 135) / 136 - o / 136)).foldl (fun s k =>
    let e := o / 136 + k
    let new := (List.range 136).map fun j =>
      let p := 136 * e + j
      if o ≤ p ∧ p < o + n then nth 0 bs (p - o) else s.urnByte c p
    let x := s.cluster c
    let u := x.urn
    if (leAt new 0 8).testBit 63 then
      s.setCluster c { x with urn := { u with entries := Smap.put u.entries e { urnRecord new with age := bitsOf (leAt new 0 8) 61 50 } } }
    else
      let s : State := { s with mem := putBytes s.mem (base + 136 * e) new }
      s.setCluster c { x with urn := { u with entries := Smap.del u.entries e } }) s

/-- A write to a tile store that is narrower than a word or not aligned to one: the words it touches are read first (R94). -/
def narrowWrite (a n : Nat) : Bool := decide (a % 4 ≠ 0 ∨ n % 4 ≠ 0)

/-- Bytes that a DMA transfer writes (R149): critical words, registers and counter space refuse it. `o`: what the words that a narrow
write reads hold in error. -/
def State.dmaWrite (s : State) (a : Nat) (bs : List Byte) (o : StoreObs) : Status × State :=
  let n := bs.length
  match spaceOf a with
  | .bonded => s.memWrite a bs
  | .tile i =>
    if ¬ ownRange i a n then (.malformed, s)
    else
      let gate := s.coreGate i
      if gate ≠ .ok then (gate, s)
      else if ¬ narrowWrite a n then (.ok, s.tsWrite i a bs)
      else
        let s := s.tsReads i (wordsIn a n) o.corrected o.double
        if o.double then (.dataErr, s.fenceCore i csStore) else (.ok, s.tsWrite i a bs)
  | .urn c =>
    if 0x3FC000 < (a - 0x180000000000) % 0x400000 + n then (.malformed, s)
    else
      let gate := s.urnGate c (s.cluster c).urn.isOpen
      if gate ≠ .ok then (gate, s) else (.ok, s.urnWrite c ((a - 0x180000000000) % 0x400000) bs)
  | .critical | .counter => (.denied, s)
  | .reg .. => (.denied, s)
  | .unmapped => (.malformed, s)

/-! ## Register writes by access type -/

/-- A 32-bit write to a register with a write-only field, or with a field that spans both halves, is refused (R613).
Reserved bits are no field here (DEDUCED, log entry 9). -/
def halfSplit (r : RegDef) : Bool :=
  r.fields.any fun f => decide (f.acc = .wo) || (decide (f.lo < 32) && decide (32 ≤ f.hi))

/-- The register an access reaches, its value as a full word, and the mask of bits the access writes; or why it is refused
(R34, R613). -/
def regTarget (b : RBlk) (o width : Nat) (v : Word) : Status × RegDef × Nat × Word × Word :=
  let none' : RegDef := ⟨"", 0, 0, 8, []⟩
  if (width ≠ 4 ∧ width ≠ 8) ∨ o % width ≠ 0 then (.malformed, none', 0, 0, 0)
  else match findReg b (o / 8 * 8) with
    | none => (.malformed, none', 0, 0, 0)
    | some r =>
      if width = 8 then (.ok, r, o, v, BitVec.allOnes 64)
      else if halfSplit r then (.malformed, r, 0, 0, 0)
      else if o % 8 = 0 then (.ok, r, o, v &&& 0xFFFFFFFF, 0xFFFFFFFF)
      else (.ok, r, o / 8 * 8, v <<< 32, 0xFFFFFFFF00000000)

/-- The value of a register after a write of `v` under mask `m` (R7): RW and RWS fields take the written bits, RW1C bits
written 1 clear, RO and reserved bits stay. -/
def RegDef.written (r : RegDef) (old v m : Word) : Word :=
  let rw := r.maskOf (fun a => decide (a = .rw ∨ a = .rws ∨ a = .rwl)) &&& m
  let w1c := r.maskOf (fun a => decide (a = .rw1c)) &&& m
  ((old &&& ~~~rw) ||| (v &&& rw)) &&& ~~~(v &&& w1c)

end Sys2Proof.Machine
end

