-- ==== Sys2Proof/Machine/Mesh.lean ====
section
/-! DEFINITION. The wafer mesh (R104 to R114): its links, the routes of R107 with fenced links avoided, what a router does with a
flit it receives, and the hot-level report. -/

namespace Sys2Proof.Machine

/-- The port at the far end of a link. -/
def meshBack (p : Nat) : Nat := nth p [2, 3, 0, 1, 4, 5] p

/-- The port taken in one dimension: `x` now, `y` wanted, `lo` and `hi` the base ports toward smaller and larger values,
`ex` the express port, if the mode uses it (R107). -/
def axisPort (express : Bool) (x y lo hi ex : Nat) : Nat :=
  let far := if x < y then y - x else x - y
  let along := if x < 4 then decide (x < y) else decide (y < x)
  if express && decide (3 ≤ far) && along then ex else if x < y then hi else lo

/-- The hops of a route as (die, port), at most `fuel` of them: mode 0 XY, 1 YX, 2 EXPRESS. -/
def meshPath (mode dst : Nat) : Nat → Nat → List (Nat × Nat)
  | 0, _ => []
  | fuel + 1, d =>
    if d = dst then []
    else
      let row := axisPort (decide (mode = 2)) (d % 8) (dst % 8) 3 1 4
      let col := axisPort (decide (mode = 2)) (d / 8) (dst / 8) 0 2 5
      let p := if mode = 1 then (if d / 8 = dst / 8 then row else col) else (if d % 8 = dst % 8 then col else row)
      match meshNext d p with
      | none => []
      | some e => (d, p) :: meshPath mode dst fuel e

/-- No hop of the route is fenced. -/
def State.pathOpen (s : State) (mode src dst : Nat) : Bool :=
  (meshPath mode dst 16 src).all fun h => !s.linkFenced h.1 h.2

/-- Data of die `src` reaches die `dst`: on its configured route, or on a base route of either order (R107, R112). -/
def State.reaches (s : State) (src dst : Nat) : Bool :=
  let mode := s.rfield .topDie src (Reg.TOP_RTR_ROUTE + 8 * dst) 1 0
  s.pathOpen mode src dst || s.pathOpen 0 src dst || s.pathOpen 1 src dst

/-- Control messages of die `src` reach die `dst`. -/
def State.ctlReaches (s : State) (src dst : Nat) : Bool := s.pathOpen 0 src dst || s.pathOpen 1 src dst

/-- The die an address lies on; module-level registers and counters answer at the module controller's die, 7 (R35). -/
def spaceDie (a : Nat) : Nat :=
  match spaceOf a with
  | .bonded => stackOf a
  | .critical => critStack a
  | .tile i => coreDie i
  | .urn c => c / 4
  | .reg b i _ => siteDie b i
  | _ => 7

/-- Every die still reaches every other in one of the two orders. -/
def State.meshWhole (s : State) : Bool :=
  (List.range 64).all fun a => (List.range 64).all fun b => s.ctlReaches a b

/-- A link is fenced in both directions (R112), and the failure is assigned (R484). -/
def State.fenceLink (s : State) (d p : Nat) : State :=
  let s := s.rbit .topDie d Reg.TOP_RTR_PORTS p true
  let s := match meshNext d p with
    | some e => s.rbit .topDie e Reg.TOP_RTR_PORTS (meshBack p) true
    | none => s
  if s.meshWhole then s.faultLog csMesh lvNone .ok d
  else (s.failHealth 6).stepFail csMesh lvOperator .unavailable d

/-! ## Flits -/

/-- The header of a mesh flit (R106). -/
structure FlitHead where
  dest : Nat
  cls : Nat              -- 0 control, 1 data on VC0, 2 data on VC1
  port : Nat
  addr48 : Bool
  mcast : Bool
  tree : Nat
  count : Nat
  src : Nat
  xfer : Nat
  addr : Nat
  crc : Nat
deriving DecidableEq, Repr

/-- The header in a flit's first 16 bytes. -/
def flitHead (f : MeshFlit) : FlitHead :=
  { dest := leAt f 0 1 % 64, cls := leAt f 0 1 / 64, port := leAt f 1 1 % 16, mcast := (leAt f 1 1).testBit 4
    addr48 := (leAt f 1 1).testBit 5, tree := leAt f 2 1 % 64, count := leAt f 3 1, src := leAt f 4 2 % 16384, xfer := leAt f 6 2
    addr := leAt f 8 6, crc := leAt f 14 2 }

/-- Whose transfer a flit belongs to: its source core, or, for a multicast, its tree (DESIGN CHOICE, log entry 91). -/
def FlitHead.source (h : FlitHead) : Nat := if h.mcast then treeSource h.dest h.tree else h.src

/-- A flit's CRC-16 holds (R106). -/
def flitOk (f : MeshFlit) : Bool := decide ((crc16 (f.take 14 ++ (f.drop 16).take 64)).toNat = (flitHead f).crc)

/-- The port on which a router sends a flit that is not multicast on: the unit it is for, or the next hop of its route, with fenced
links avoided (R107, R112); none where no route is left. Data routes by the mode of its source's die. -/
def State.flitOut (s : State) (die : Nat) (h : FlitHead) : Option Nat :=
  if h.dest = die then some h.port
  else
    let mode := if h.cls = 0 then 0 else s.rfield .topDie (coreDie h.src) (Reg.TOP_RTR_ROUTE + 8 * h.dest) 1 0
    let ok (m : Nat) : Bool := s.pathOpen m die h.dest
    let m := if ok mode then some mode else if ok 0 then some 0 else if ok 1 then some 1 else none
    m.bind fun m => (meshPath m h.dest 16 die).head?.map (·.2)

/-- The ports on which a router sends a multicast flit on, by its entry of the tree (R109, R122). -/
def treeOut (w : Word) : List Nat :=
  (below 6 fun p => w.getLsbD (49 + p)) ++ ((below 4 fun c => decide (fld w (12 * c + 11) (12 * c) ≠ 0)).map (6 + ·)) ++
  (if flag w 55 then [10] else [])

/-- A router sends a flit on. -/
def State.forward (s : State) (die : Nat) (f : MeshFlit) : State :=
  let h := flitHead f
  let send (s : State) (p : Nat) : State := { s with out := s.out ++ [.mesh die p f] }
  if h.mcast then
    let w := s.peek .topDie die (Reg.TOP_RTR_MCAST + 8 * h.tree)
    if flag w 63 then (treeOut w).foldl send s else s.add .topDie die Reg.TOP_RTR_MCAST_DROPS 1
  else match s.flitOut die h with
    | some p => send s p
    | none => s

/-- A control flit fails its CRC-16 on a port: the hop that sent it resends it, and after eight failed resends in a row the link is
fenced (R112). -/
def State.ctlFlitFails (s : State) (die port : Nat) : State :=
  let x := s.die die
  let fails := Smap.get 0 x.linkFails port
  let s := (s.check cFlit 1 (b2n (decide (fails = 0))) 0 (b2n (decide (fails = 8)))).add .topDie die Reg.TOP_RTR_CRC_CTRL 1
  if fails = 8 then (s.setDie die { x with linkFails := Smap.set 0 x.linkFails port 0 }).fenceLink die port
  else
    let s := s.setDie die { x with linkFails := Smap.set 0 x.linkFails port (fails + 1) }
    s.add .topDie ((meshNext die port).getD die) Reg.TOP_RTR_CTRL_RESENDS 1

/-- MESH_FLIT_RECEIVE (R106 to R112, R122): a flit reaches a router on a port. -/
def execMeshFlitReceive (die port : Nat) (f : MeshFlit) (s : State) : Next :=
  .next (
    let h := flitHead f
    if 64 ≤ die ∨ 13 ≤ port ∨ ¬ (s.die die).routerOk ∨ s.linkFenced die port ∨ 3 ≤ h.cls then s
    else if flitOk f then
      if h.cls = 0 then
        let x := s.die die
        let fails := Smap.get 0 x.linkFails port
        let s := s.check cFlit 1 0 (b2n (decide (0 < fails))) 0
        (s.setDie die { x with linkFails := Smap.set 0 x.linkFails port 0 }).forward die f
      else (s.check cFlit 1 0 0 0).forward die f
    else if h.cls = 0 then s.ctlFlitFails die port
    else { (s.check cFlit 1 1 0 0).add .topDie die Reg.TOP_RTR_CRC_DATA 1 with meshLost := s.meshLost ++ [(h.source, h.xfer)] })

/-! ## The hot-level report -/

/-- TOP_HOT_LEVEL_REPORT (R113, R123): the most blocked output of a die in the last millisecond. Fields a level does not
use read 0; a report with a reserved level, or of no level with a share above 1/256, is none. -/
def execTopHotLevelReport (die level port core share : Nat) (s : State) : Next :=
  .next (
    let level := if share ≤ 1 then 0 else level
    if 64 ≤ die ∨ ¬ (s.die die).routerOk ∨ 9 ≤ level ∨ (level = 0 ∧ 1 < share) then s
    else
      let port := if 3 ≤ level ∧ level ≤ 8 then port else 0
      let core := if level = 1 ∨ level = 2 then core else 0
      let w := mkWord [(min share 255, 32), (level % 16, 20), (port % 16, 16), (core % 16384, 0)]
      let s := s.poke .topDie die Reg.TOP_HOT_LEVEL w
      if s.rfield .trcMod 0 Reg.TRC_CTRL 47 40 ≤ min share 255 then s.trace 5 2 die (core % 16384) (leBytes 8 w.toNat) else s)

end Sys2Proof.Machine
end

