-- ==== Sys2Proof/Machine/Movement.lean ====
section
/-! DEFINITION. Movement of tensors by the DMA: COPY and COPYH (R149, R150), copy-before-overwrite (R513), and what the leaves of
a transfer answer (R37, R110, R493). -/

namespace Sys2Proof.Machine

/-- The lines of a tensor as (address, bytes), last blocks stored whole (R136). -/
def Tensor.lines (t : Tensor) : List (Nat × Nat) :=
  let along := t.colMajor == t.blockDir1
  let n := if t.colMajor then t.cols else t.rows
  let n := if t.fmt.isMx && !along then alignUp n 32 else n
  let len := lineBytes t.fmt along (if t.colMajor then t.rows else t.cols)
  (List.range n).map fun k => (t.base + k * t.pitch, len)

/-- The scale array of an MX tensor. -/
def Tensor.scaleRun (t : Tensor) : List (Nat × Nat) := if t.fmt.isMx then [(t.scaleBase, t.scaleCount)] else []

/-- The lines and scales of a tensor in the order that pairs source with destination (R149). -/
def Tensor.parts (t : Tensor) : List (Nat × Nat) := t.lines ++ t.scaleRun

/-- The same in address order (R150). -/
def Tensor.runs (t : Tensor) : List (Nat × Nat) :=
  (t.lines.filter fun r => decide (r.1 < t.scaleBase)) ++ t.scaleRun ++ t.lines.filter fun r => decide (t.scaleBase ≤ r.1)

/-- Two tensors COPY may pair (R149). -/
def copyMatch (a b : Tensor) : Bool :=
  decide (a.fmt = b.fmt) && decide (a.rows = b.rows) && decide (a.cols = b.cols) && decide (a.colMajor = b.colMajor) &&
  decide (a.blockDir1 = b.blockDir1)

/-- A space to which COPY may not write (R149). -/
def copyDenied (a : Nat) : Bool :=
  match spaceOf a with
  | .critical | .counter => true
  | .reg .. => true
  | _ => false

/-! ## Generation areas -/

/-- The generation area that holds an address, 0 or 1, and the offset in it. -/
def State.genArea (s : State) (a : Nat) : Option (Nat × Nat) :=
  match s.areaOf a with
  | some (1, off) => some (0, off)
  | some (2, off) => some (1, off)
  | _ => none

/-- A write into block `b` of area `g` waits (R513): the buddy copy of step u − 2 has not had the block acknowledged, or a
checkpoint that saves step u − 2 has not read it. -/
def State.cboHeld (s : State) (g b : Nat) : Bool :=
  let u := s.job.step
  let buddy := match s.ckp.send with
    | none => false
    | some x => (decide (x.step + 2 = u) && decide (x.block ≤ b)) ||
        s.ckp.guard.any fun h => decide (h.1 + 2 = u) && decide (h.2 ≤ b)
  let save := match s.ckp.write with
    | some w => decide (w.step + 2 = u) && decide (w.offset < 65536 * (b + 1))
    | none => false
  decide (g = u % 2) && (buddy || save)

/-- Some run touches a block that waits. -/
def State.runsHeld (s : State) (rs : List (Nat × Nat)) : Bool :=
  rs.any fun r => match s.genArea r.1 with
    | none => false
    | some (g, off) =>
      (List.range ((off + r.2 + 65535) / 65536 - off / 65536)).any fun k => s.cboHeld g (off / 65536 + k)

/-- The first write of a later step into a generation area marks its word invalid (R510). -/
def State.genTouch (s : State) (a : Nat) : State :=
  match s.genArea a with
  | none => s
  | some (g, _) =>
    match nth none s.ckp.area g with
    | some st => if st < s.job.step ∧ s.job.st = .running then s.markArea g none else s
    | none => s

/-! ## Issue -/

/-- What COPY checks of its descriptors (R149, R171). -/
def copyCheck (s : State) (_ : Nat) (_ : BitVec 128) (d : List (BitVec 256)) : Status :=
  match parseTensor s.govFormat (nth 0 d 0), parseTensor s.govFormat (nth 0 d 1) with
  | some t, some a => firstStatus [(!copyMatch t a, .malformed), (copyDenied t.base, .denied)]
  | _, _ => .malformed

/-- What COPYH checks: all of COPY's, the place of dst, and that the entry is new in the step (R150). -/
def copyhCheck (s : State) (i : Nat) (w : BitVec 128) (d : List (BitVec 256)) : Status :=
  let st := copyCheck s i w d
  match parseTensor s.govFormat (nth 0 d 0) with
  | none => st
  | some t =>
    let inside := t.runs.all fun r => (s.genArea r.1).isSome && (decide (r.2 = 0) || (s.genArea (r.1 + r.2 - 1)).isSome)
    st.join (if inside ∧ ¬ s.job.slices.any (fun x => decide (x.1 = iImm w % 65536)) then .ok else .denied)

/-- The destination of the copy at the program counter waits under R513. -/
def State.copyWaits (s : State) (i : Nat) : Bool :=
  let c := s.core i
  match parseTensor s.govFormat (c.entryOf (iDst c.word)) with
  | some t => s.runsHeld t.runs
  | none => false

/-- Issue of a copy: it waits while its destination does. -/
def State.issueCopy (s : State) (op : Op) (check : State → Nat → BitVec 128 → List (BitVec 256) → Status) (i : Nat)
    (o : IssueObs) : State :=
  if s.queueFull i 2 then s
  else s.issueWith op i o fun s =>
    if s.copyWaits i then s.setCore i { s.core i with st := .waiting, waits := .genArea } else s.enqueue op check i

/-- COPY (R149). -/
def execCopy (core : Nat) (o : IssueObs) (s : State) : Next := .next (s.issueCopy .copy copyCheck core o)

/-- COPYH (R150): from its issue the entry of the shard-hash list is taken. -/
def execCopyh (core : Nat) (o : IssueObs) (s : State) : Next :=
  .next (
    let n := (nth [] (s.core core).queues 2).length
    let e := iImm (s.core core).word % 65536
    let t := s.issueCopy .copyh copyhCheck core o
    if n < (nth [] (t.core core).queues 2).length ∧ ¬ t.job.slices.any (fun x => decide (x.1 = e)) then
      { t with job := { t.job with slices := t.job.slices ++ [(e, 0)] } }
    else t)

/-! ## The transfer -/

/-- Read the runs of a tensor in order: every byte, or the first non-OK status. `o`: what the words hold in error, met in the first run
that has any. -/
def State.readRuns (s : State) (o : StoreObs) : List (Nat × Nat) → Status × List (List Byte) × State
  | [] => (.ok, [], s)
  | r :: rs =>
    if r.2 = 0 then
      let x := s.readRuns o rs
      (x.1, [] :: x.2.1, x.2.2)
    else
      let y := s.busRead r.1 r.2 o
      if y.1 ≠ .ok then (y.1, [], y.2.2)
      else
        let x := y.2.2.readRuns StoreObs.clean rs
        (x.1, y.2.1 :: x.2.1, x.2.2)

/-- Write bytes to runs; the statuses of the writes are joined. `o`: what the words that a narrow write reads hold in error, met in the
first run that reads any. -/
def State.writeRuns (s : State) (o : StoreObs) : List (Nat × List Byte) → Status × State
  | [] => (.ok, s)
  | r :: rs =>
    if r.2.isEmpty then s.writeRuns o rs
    else
      let x := if s.sparseBusy r.1 then (.busy, s) else (s.genTouch r.1).dmaWrite r.1 r.2 o
      let y := x.2.writeRuns (if narrowWrite r.1 r.2.length then StoreObs.clean else o) rs
      (x.1.join y.1, y.2)

/-- DMA transfers of a copy (R106): its runs go in flits of 64 bytes, at most 255 to a transfer. -/
def Tensor.transfers (t : Tensor) : Nat :=
  let flits := (t.parts.map fun r => (r.2 + 63) / 64).sum
  max 1 ((flits + 254) / 255)

/-- The transfer at hand of the copy at the head of the DMA queue ends OK: its failures are recovered, and the next begins. -/
def State.transferOk (s : State) (i : Nat) (e : QEntry) : State :=
  let c := s.core i
  let s := (s.check cDma 1 0 (b2n (decide (16 ≤ e.aux))) 0).meshEnd i (c.xfer % 65536) true
  (s.setCore i { s.core i with xfer := c.xfer + 1 }).setHead i 2 { e with item := e.item + 1, aux := 0 }

/-- The transfer at hand has failed for good, or will get no reply: its failures are escalated. -/
def State.transferLost (s : State) (i : Nat) : State :=
  let s := s.giveUp i
  let c := s.core i
  s.setCore i { c with xfer := c.xfer + 1 }

/-- The transfers of a copy have all ended OK: data moves, and the instruction ends (R129, R146, R149, R150). The destination changes
then, all at once (DEDUCED, log entry 91). `o`: what the words read of tile stores hold in error. -/
def State.copyDone (s : State) (i : Nat) (e : QEntry) (o : ItemObs) : State :=
  match parseTensor s.govFormat (nth 0 e.d 0), parseTensor s.govFormat (nth 0 e.d 1) with
  | some t, some a =>
    if ¬ s.reaches (spaceDie a.base) (coreDie i) ∨ ¬ s.reaches (coreDie i) (spaceDie t.base) then s.retire i 2 .unavailable false
    else
      let r := s.readRuns o.rd a.parts
      if r.1 ≠ .ok then r.2.2.retire i 2 r.1 (s.keptArea a.base)
      else
        let pairs := (t.parts.map (·.1)).zip r.2.1
        let w := r.2.2.writeRuns o.wr pairs
        if w.1 ≠ .ok then w.2.retire i 2 w.1 (s.keptArea t.base)
        else
          let s := w.2
          let s := if iOpcode e.word ≠ 0x11 then s else
            let moved := (t.runs.map fun q => (pairs.find? fun x => decide (x.1 = q.1)).elim [] (·.2)).flatten
            let k := iImm e.word % 65536
            let hs := s.job.sliceHashes ++ List.replicate (k + 1 - s.job.sliceHashes.length) []
            { s with job := { s.job with sliceHashes := setNth hs k (hashBytes (shake256 moved)) } }
          let s := s.retire i 2 .ok false
          if t.notifyEn then
            let g : Sig := { src := i, target := t.notifyCore, tok := t.notifyTok, count := 1, instr := none }
            State.bump { s with sigs := s.sigs ++ [g] } .seqCore i Reg.SEQ_SIGNALS_SENT 1
          else s
  | _, _ => s.retire i 2 .malformed false

/-- Transfers of a copy that are left, the one at hand included. -/
def State.transfersLeft (s : State) (e : QEntry) : Nat :=
  match parseTensor s.govFormat (nth 0 e.d 0) with
  | some t => t.transfers - e.item
  | none => 1

/-- A copy waits to write its destination under R513. -/
def State.copyHeld (s : State) (e : QEntry) : Bool :=
  match parseTensor s.govFormat (nth 0 e.d 0) with
  | some t => s.runsHeld t.runs
  | none => false

/-- The transfer at hand ends OK; with the last one the copy is done. -/
def State.copyStep (s : State) (i : Nat) (e : QEntry) (o : ItemObs) : State :=
  if s.transfersLeft e ≤ 1 ∧ s.copyHeld e then s
  else
    let t := s.transferOk i e
    if s.transfersLeft e ≤ 1 then t.copyDone i e o else t

/-- DMA_TRANSFER_ACK (R37, R110): the leaf of the transfer at hand of the copy at the head of the DMA queue answers. A failing or
silent leaf is served again, twice; a third failure ends the transfer CHECK_FAIL. -/
def execDmaTransferAck (core : Nat) (a : LeafAnswer) (s : State) : Next :=
  .next (
    if ¬ s.coreWorks core then s
    else match s.headOf core 2 with
    | none => s
    | some e =>
      if e.status ≠ .ok then s.retire core 2 e.status false
      else
        let tries := e.aux % 16
        let crc := decide (16 ≤ e.aux) || decide (a = .crcFail)
        if a = .ok then s.copyStep core e ItemObs.clean
        else if tries = 2 then
          -- a transfer that ends CHECK_FAIL has failed, if only for want of an answer
          let s := (s.check cDma 1 (b2n (decide (e.aux < 16))) 0 0).setHead core 2 { e with aux := 16 + tries }
          (s.transferLost core).retire core 2 .checkFail false
        else
          (s.check cDma 0 (b2n (crc && decide (e.aux < 16))) 0 0).setHead core 2 { e with aux := tries + 1 + 16 * b2n crc })

/-- DMA_TIMEOUT (R493): the transfer at the head of the DMA queue has had no reply. -/
def execDmaTimeout (core : Nat) (s : State) : Next :=
  .next (
    if ¬ s.coreWorks core then s
    else match s.headOf core 2 with
    | none => s
    | some e =>
      if e.status ≠ .ok then s.retire core 2 e.status false
      else ((s.check cDma (b2n (decide (16 ≤ e.aux))) 0 0 0).transferLost core).retire core 2 .timeout false)

end Sys2Proof.Machine
end

