-- ==== Sys2Proof/Machine/Tile.lean ====
section
/-! DEFINITION. One tile pass: the arithmetic of the dot-product units (R68 to R70), the sentinel sums (R76) and the
check verdict (R77, R78). Operands arrive as the loader delivers them, elements with their block scale applied. -/

namespace Sys2Proof.Machine

/-- The exact sum of exact products. -/
def exactDot : List FVal → List FVal → FVal
  | a :: as, b :: bs => (a.mulX b).addX (exactDot as bs)
  | _, _ => fzero

/-- The exponent of the leading bit of a product. -/
def leadExp : FVal → Option Int
  | .fin _ m e => if m = 0 then none else some (nlog2 m + e)
  | _ => none

/-- The largest leading exponent among products. -/
def maxLead (ps : List FVal) : Option Int :=
  ps.foldl (fun a p => match a, leadExp p with
    | none, l => l
    | some x, none => some x
    | some x, some y => some (max x y)) none

/-- A product with the bits below 2^lo dropped from its magnitude (R69). -/
def truncBelow (lo : Int) : FVal → FVal
  | .fin s m e => if lo ≤ e then .fin s m e else .fin s (m >>> (lo - e).toNat) lo
  | v => v

/-- One 32-element group of an MX pass: products summed exactly, rounded once (R68). -/
def groupMx (a b : List FVal) : FVal := r32 (exactDot a b)

/-- One 32-element group of a 16-bit pass: products aligned to the largest and truncated, summed exactly, rounded once
(R69). -/
def group16 (a b : List FVal) : FVal :=
  let ps := a.zipWith FVal.mulX b
  match maxLead ps with
  | none => r32 (ps.foldl FVal.addX fzero)
  | some p => r32 ((ps.map (truncBelow (p - 60))).foldl FVal.addX fzero)

/-- A dot-product unit: group sums accumulated in ascending order in FP32. -/
def dpu (cls16 : Bool) (a b : List FVal) : FVal :=
  ((chunksOf 32 a).zipWith (if cls16 then group16 else groupMx) (chunksOf 32 b)).foldl fadd fzero

/-- Column `k` of a list of rows. -/
def column (rows : List (List FVal)) (k : Nat) : List FVal := rows.map fun r => nth fzero r k

/-- The 32 × 32 tile of a pass: `a` holds 32 rows of K elements, `b` 32 columns of K elements (R63). -/
def passTile (cls16 : Bool) (a b : List (List FVal)) : List (List FVal) :=
  a.map fun r => b.map fun c => dpu cls16 r c

/-- The tree sums per k of the operand's 32 values, and of their magnitudes (R76). -/
def kSums (rows : List (List FVal)) (depth : Nat) : List FVal := (List.range depth).map fun k => treeSum (column rows k)

/-- A sentinel: products rounded to FP32, a tree in each 32-element group, groups accumulated in order (R76). -/
def sentinel (x y : List FVal) : FVal :=
  ((chunksOf 32 (x.zipWith fmul y)).map treeSum).foldl fadd fzero

/-- The sentinel sums of a pass and their magnitudes (R76). -/
structure Sentinels where
  h : List FVal
  m : List FVal
  v : List FVal
  n : List FVal
  z : FVal
  w : FVal
deriving DecidableEq, Repr

def sentinels (a b : List (List FVal)) (depth : Nat) : Sentinels :=
  let aAbs := a.map (·.map FVal.abs)
  let bAbs := b.map (·.map FVal.abs)
  let as := kSums a depth
  let bs := kSums b depth
  let asAbs := kSums aAbs depth
  let bsAbs := kSums bAbs depth
  { h := b.map fun c => sentinel as c
    m := bAbs.map fun c => sentinel asAbs c
    v := a.map fun r => sentinel r bs
    n := aAbs.map fun r => sentinel r bsAbs
    z := sentinel as bs
    w := sentinel asAbs bsAbs }

/-- The exact difference of two finite values is at most τ = f · d · 2^(e − 23) for the magnitude `mag` (R77). A magnitude
of 2^128 or more bounds nothing (DEDUCED, log entry 6); a sum that is not finite fails. -/
def withinTau (f d : Nat) (mag x y : FVal) : Bool :=
  match mag, x.addX y.neg with
  | .fin _ mm me, .fin _ m e =>
    let ex := if mm = 0 then -126 else max (nlog2 mm + me) (-126)
    !magLt (f * d) (ex - 23) m e
  | .fin .., _ => false
  | _, _ => true

/-- An infinity: a magnitude of 2^128 or more. -/
def isInf : FVal → Bool
  | .inf _ => true
  | _ => false

/-- The verdict of a pass: where it failed (R91), and the rows and columns left out (R78). -/
structure Verdict where
  passed : Bool
  kind : Nat
  row : Nat
  col : Nat
  unchecked : Nat
deriving DecidableEq, Repr

/-- The kind of ENG_FAIL_LOC for failing rows, columns and corner (R91). -/
def failKind (rows cols : List Nat) (corner : Bool) : Nat :=
  match rows, cols with
  | [], [] => if corner then 5 else 0
  | _, [] => 2
  | [], _ => 3
  | [_], [_] => 1
  | _, _ => 4

/-- The check of a pass (R77, R78): tile, sentinels, operands, the τ factor and depth factor. A wrong non-finite value fails its row
and its column, left out or not. The sums of the h_j and of the v_i, whose order R77 leaves open, are FP32 trees in index order as
c_j and r_i are (DESIGN CHOICE, log entry 6). -/
def tileCheck (f d : Nat) (a b p : List (List FVal)) (s : Sentinels) : Verdict :=
  let badA := a.map fun r => r.any fun x => !x.isFin
  let badB := b.map fun c => c.any fun x => !x.isFin
  let cells := (List.range 1024).map fun i => (i / 32, i % 32)
  let at' (i j : Nat) : FVal := nth fzero (nth [] p i) j
  let bad := cells.filter fun c => !(at' c.1 c.2).isFin
  let genuine (c : Nat × Nat) : Bool :=
    nth false badA c.1 || nth false badB c.2 ||
      (decide (at' c.1 c.2 ≠ .nan) && (isInf (nth fzero s.n c.1) || isInf (nth fzero s.m c.2)))
  let out := bad.filter genuine
  let wrong := bad.filter fun c => !genuine c
  let rowOut (i : Nat) : Bool := out.any fun c => decide (c.1 = i)
  let colOut (j : Nat) : Bool := out.any fun c => decide (c.2 = j)
  let rowSum (i : Nat) : FVal := treeSum (nth [] p i)
  let colSum (j : Nat) : FVal := treeSum (column p j)
  let rowsF := below 32 fun i => wrong.any (fun c => decide (c.1 = i)) ||
    (!rowOut i && !withinTau f d (nth fzero s.n i) (rowSum i) (nth fzero s.v i))
  let colsF := below 32 fun j => wrong.any (fun c => decide (c.2 = j)) ||
    (!colOut j && !withinTau f d (nth fzero s.m j) (colSum j) (nth fzero s.h j))
  let allFin := !(badA.any id) && !(badB.any id)
  let cornerOk (sum : FVal) : Bool :=
    if sum.isFin && s.z.isFin && s.w.isFin then withinTau f d s.w sum s.z
    else !(allFin && s.w.isFin)
  let cornerF := !(cornerOk (treeSum s.h) && cornerOk (treeSum s.v))
  let kind := failKind rowsF colsF cornerF
  { passed := decide (kind = 0), kind := kind, row := rowsF.headD 0, col := colsF.headD 0
    unchecked := (below 32 rowOut).length + (below 32 colOut).length }

/-- The tile and sentinels with the values a fault delivered in place of the right ones. -/
def faultyTile (o : PassObs) (p : List (List FVal)) : List (List FVal) :=
  o.dpu.foldl (fun p x => modNth p x.1 fun r => setNth r x.2.1 (val32 x.2.2)) p

def faultySentinels (o : PassObs) (s : Sentinels) : Sentinels :=
  { s with
    h := o.checkRow.foldl (fun h x => setNth h x.1 (val32 x.2)) s.h
    v := o.checkCol.foldl (fun v x => setNth v x.1 (val32 x.2)) s.v
    z := match o.corner with | some w => val32 w | none => s.z }

/-- No fault. -/
def PassObs.clean : PassObs :=
  { dpu := [], checkRow := [], checkCol := [], corner := none, loader := false, chainAdd := false
    corrected := [], double := false, wgbCorrected := 0, wgbDouble := false, spills := [] }

end Sys2Proof.Machine
end

