-- ==== Sys2Proof/Machine/TensorIO.lean ====
section
/-! DEFINITION. Tensors in a tile store: converting FP32 results to a tensor's
format and writing them (R71, R72), and what conversions and chunks report to the format governor (R192, R193). -/

namespace Sys2Proof.Machine

/-! ## Reading -/

/-- Every element, row by row. -/
def State.tensorVals (s : State) (t : Tensor) : List FVal :=
  (List.range t.rows).flatMap fun r => (List.range t.cols).map fun c => s.elem t r c

/-- 32-bit words read for `n` elements and their scales. -/
def readWords (f : Fmt) (n : Nat) : Nat := (n * f.bits + 31) / 32 + (if f.isMx then (n / 32 + 3) / 4 else 0)

/-! ## Writing -/

/-- `width` bits at bit `o` of the byte at `a` replaced by `v`. -/
def putBits (m : Smap Byte) (a o width v : Nat) : Smap Byte :=
  let n := (o + width + 7) / 8
  let old := ofLe (getBytes m a n)
  putBytes m a (leBytes n (old - bitsOf old (o + width - 1) o * 2 ^ o + v % 2 ^ width * 2 ^ o))

/-- One element or scale to be written: address, bit within the byte, width, value. -/
abbrev ElemWrite := Nat × Nat × Nat × Nat

/-- Write elements to a core's tile store; waiting write-backs of the words they touch are cancelled (R114). -/
def State.putElems (s : State) (i : Nat) (ws : List ElemWrite) : State :=
  let c := s.core i
  let hit (w : Nat) : Bool := ws.any fun x => decide ((x.1 - tileBase i) / 4 = w ∨ (x.1 + (x.2.1 + x.2.2.1 - 1) / 8 - tileBase i) / 4 = w)
  let s := if c.writeback.any hit then s.setCore i { c with writeback := c.writeback.filter fun w => !hit w } else s
  { s with mem := ws.foldl (fun m x => putBits m x.1 x.2.1 x.2.2.1 x.2.2.2) s.mem }

/-- A conversion: what it writes, by element in the order given, with elements saturated and non-zero values that became
zero. -/
structure Conv where
  writes : List ElemWrite
  sat : Nat
  zeros : Nat
deriving DecidableEq, Repr

def Conv.none : Conv := { writes := [], sat := 0, zeros := 0 }

def Conv.join (a b : Conv) : Conv := { writes := a.writes ++ b.writes, sat := a.sat + b.sat, zeros := a.zeros + b.zeros }

/-- The encoding is a zero of either sign. -/
def zeroBits (f : Fmt) (w : Nat) : Bool := if f = .int8 then decide (w = 0) else decide (w % 2 ^ (f.bits - 1) = 0)

/-- A finite value other than zero whose encoding is zero. -/
def lost (f : Fmt) (v : FVal) (w : Nat) : Bool := v.isFin && v.nonZero && zeroBits f w

/-- The write of element (r, c). -/
def Tensor.write (t : Tensor) (r c w : Nat) : ElemWrite := (t.base + t.bitOff r c / 8, t.bitOff r c % 8, t.fmt.bits, w)

/-- The blocks of 32 along rows, or with `dir1` along columns, that cover rows r0 to r1 and columns c0 to c1, as element
positions. Positions start at multiples of 32. -/
def blockCells (dir1 : Bool) (r0 r1 c0 c1 : Nat) : List (List (Nat × Nat)) :=
  let run (a b : Nat) : List Nat := (List.range (b - a)).map (a + ·)
  if dir1 then (run (r0 / 32) ((r1 + 31) / 32)).flatMap fun p => (run c0 c1).map fun c => (List.range 32).map fun k => (32 * p + k, c)
  else (run r0 r1).flatMap fun r => (run (c0 / 32) ((c1 + 31) / 32)).map fun q => (List.range 32).map fun k => (r, 32 * q + k)

/-- One block converted to an MX format (R72): scale and elements. -/
def Tensor.convBlock (t : Tensor) (val : Nat → Nat → FVal) (draw : Nat → Nat → Option Nat) (fr : Nat) (cells : List (Nat × Nat)) :
    Conv :=
  let xs := cells.map fun p => if p.1 < t.rows ∧ p.2 < t.cols then val p.1 p.2 else fzero
  let b := encodeBlock t.fmt (cells.map fun p => draw p.1 p.2) fr xs
  let es := cells.zip (xs.zip b.2.1)
  let nan := decide (b.1 = 0xFF)
  let at0 := cells.headD (0, 0)
  { writes := (t.scaleAddr at0.1 at0.2, 0, 8, b.1) :: es.map fun e => t.write e.1.1 e.1.2 e.2.2
    sat := b.2.2
    zeros := if nan then 0 else (es.filter fun e => lost t.fmt e.2.1 e.2.2).length }

/-- The FP32 values of rows r0 to r1 and columns c0 to c1 converted to the tensor's format (R71, R72). `fr`: the first of
1,024 free values for the NaN patterns, element by element. -/
def Tensor.convert (t : Tensor) (r0 r1 c0 c1 : Nat) (val : Nat → Nat → FVal) (draw : Nat → Nat → Option Nat) (fr : Nat) : Conv :=
  let r1 := min r1 t.rows
  let c1 := min c1 t.cols
  if t.fmt.isMx then
    ((blockCells t.blockDir1 r0 r1 c0 c1).zipIdx.map fun b => t.convBlock val draw (fr + 32 * b.2) b.1).foldl Conv.join Conv.none
  else
    let cells := (List.range (r1 - r0)).flatMap fun i => (List.range (c1 - c0)).map fun j => (r0 + i, c0 + j)
    cells.zipIdx.foldl (fun acc p =>
      let v := val p.1.1 p.1.2
      let e := encodeElem t.fmt (draw p.1.1 p.1.2) (fr + p.2) v
      acc.join { writes := [t.write p.1.1 p.1.2 e.1], sat := b2n e.2, zeros := b2n (lost t.fmt v e.1) }) Conv.none

/-! ## The format governor's reports -/

/-- What a governor has gathered for a layer. -/
def State.govAcc (s : State) (c l : Nat) : GovAcc := Smap.get GovAcc.zero (s.cluster c).gov l

/-- A report has reached the governor of cluster `c`: what is gathered, and the counts of GOV_CL_REPORTS and GOV_REPORTS (R208, R214). One report is that of
a tile the engine converts, of a vector instruction's destination, or of a chunk (DEDUCED, log entry 70). -/
def State.setGovAcc (s : State) (c l : Nat) (g : GovAcc) : State :=
  let x := s.cluster c
  ((s.setCluster c { x with gov := Smap.put x.gov l g }).add .govCluster c Reg.GOV_CL_REPORTS 1).add .govMod 0 Reg.GOV_REPORTS 1

/-- The report of a conversion (R192): the blocks of its elements, as FP32 values. -/
def State.govReport (s : State) (i l : Nat) (blocks : List (List FVal)) : State :=
  let h := s.homeCluster i
  let g := s.govAcc h l
  let under (f : Fmt) : Nat := (blocks.map (underflows f)).foldl (· + ·) 0
  s.setGovAcc h l { g with
    gexp := (blocks.flatten.map reportExp).foldl max g.gexp
    nonzero := g.nonzero + (blocks.flatten.filter FVal.nonZero).length
    underE4m3 := g.underE4m3 + under .e4m3
    underE5m2 := g.underE5m2 + under .e5m2 }

/-- The report of a chunk handed to a Samovar (R193). -/
def State.govChunk (s : State) (i l : Nat) (vals : List FVal) : State :=
  let h := s.homeCluster i
  let g := s.govAcc h l
  s.setGovAcc h l { g with wexp := (vals.map reportExp).foldl max g.wexp }

/-- A destination's conversions report when its entry has gov_format 1. -/
def dGov (d : BitVec 256) : Bool := decide (dfld d 0x19 0 0 = 1)

/-! ## Conversion of results -/

/-- Stochastic rounding is asked for, enabled, and means something (R71). -/
def State.stochastic (s : State) (w : BitVec 128) (f : Fmt) : Bool :=
  decide (iRound w = 1) && s.rflag .engMod 0 Reg.ENG_CTRL 0 && decide (f ≠ .fp32)

/-- `n` draws of core `i` from its counter, which advances by a call for every four (R74). -/
def State.draws (s : State) (i n : Nat) : List Nat × State :=
  let c := s.core i
  let calls := (n + 3) / 4
  (srDrawsN i c.srCounter s.job.key0 s.job.key1 calls, s.setCore i { c with srCounter := (c.srCounter + calls) % 2 ^ 50 })

/-- Count saturated elements of core `i` (R71). -/
def State.saturated (s : State) (i n : Nat) : State :=
  if n = 0 then s else (s.bump .engCore i Reg.ENG_SATURATED n).raise .engCore i Reg.ENG_EVENT 5

/-- A tile of an output tensor is converted, reported and written: `vals` are its 1,024 FP32 values (R71, R72, R192). -/
def State.storeTile (s : State) (i : Nat) (w : BitVec 128) (t : Tensor) (gov : Bool) (r0 c0 : Nat) (vals : List FVal) : State :=
  let fr := s.freeIx
  let s := s.useFree 1024
  let sr := s.stochastic w t.fmt
  let d := if sr then s.draws i 1024 else ([], s)
  let s := d.2
  let val (r c : Nat) : FVal := nth fzero vals (32 * (r - r0) + (c - c0))
  let draw (r c : Nat) : Option Nat := if sr then some (nth 0 d.1 (32 * (r - r0) + (c - c0))) else none
  let k := t.convert r0 (r0 + 32) c0 (c0 + 32) val draw fr
  let s := (s.putElems i k.writes).saturated i k.sat
  let inside := (List.range 1024).map fun n =>
    if r0 + n / 32 < t.rows ∧ c0 + n % 32 < t.cols then nth fzero vals n else fzero
  let s := s.setCore i { s.core i with amax := amaxOf inside, zeros := k.zeros }
  if ¬ gov then s
  else
    let shape (b : List (Nat × Nat)) : List FVal := (b.filter fun p => decide (p.1 < t.rows ∧ p.2 < t.cols)).map fun p => val p.1 p.2
    s.govReport i t.layer ((blockCells t.blockDir1 r0 (min (r0 + 32) t.rows) c0 (min (c0 + 32) t.cols)).map shape)

/-- Write the words of waiting corrections back (R94). -/
def execTileStoreWriteback (core word : Nat) (s : State) : Next :=
  .next (
    let c := s.core core
    if ¬ c.writeback.contains word ∨ c.fenced ∨ ¬ c.powered then s
    else (s.setCore core { c with writeback := c.writeback.erase word }).bump .vecCore core Reg.VEC_TS_WRITEBACKS 1)

end Sys2Proof.Machine
end

