-- ==== Sys2Proof/Machine/Passes.lean ====
section
/-! DEFINITION. The tile passes of the matrix and sparse instructions: what each checks at issue (R152 to R155, R171), the
operands of its passes as the loader delivers them (R75, R141, R223), and the validation of a sparse chunk (R222). -/

namespace Sys2Proof.Machine

/-! ## The loader -/

/-- Groups of 32 along K re-encoded in the operand's format under a new scale (R75). -/
def reblock (f : Fmt) (xs : List FVal) : List FVal :=
  (chunksOf 32 xs).flatMap fun g =>
    let e := encodeBlock f [] 0 g
    decodeBlock f e.1 e.2.1

/-- An MX operand widened to BF16 by nearest even (R141). A value beyond BF16's range becomes its largest finite value, as in a
conversion of R71 (DESIGN CHOICE, log entry 94). -/
def widen (xs : List FVal) : List FVal := xs.map fun v => decodeElem .bf16 (encodeElem .bf16 none 0 v).1

/-- Values along K as the loader delivers them: widened in a 16-bit pass, re-blocked where stored blocks do not run along K. -/
def loadK (f : Fmt) (alongK cls16 : Bool) (xs : List FVal) : List FVal :=
  if ¬ f.isMx then xs else if cls16 then widen xs else if alongK then xs else reblock f xs

/-- 32 rows of a tensor from row `r0`, K along its columns from `k0`, `n` deep. -/
def State.rowOperand (s : State) (t : Tensor) (cls16 : Bool) (r0 k0 n : Nat) : List (List FVal) :=
  (List.range 32).map fun i => loadK t.fmt (!t.blockDir1) cls16 ((List.range n).map fun k => s.elem t (r0 + i) (k0 + k))

/-- 32 columns of a tensor from column `c0`, K along its rows from `k0`, `n` deep. -/
def State.colOperand (s : State) (t : Tensor) (cls16 : Bool) (c0 k0 n : Nat) : List (List FVal) :=
  (List.range 32).map fun j => loadK t.fmt t.blockDir1 cls16 ((List.range n).map fun k => s.elem t (k0 + k) (c0 + j))

/-- Both operands of one class: MX with MX; otherwise the pass runs in the 16-bit class (R141). DEDUCED, log entry 28. -/
def class16 (a b : Fmt) : Bool := !(a.isMx && b.isMx)

/-- An operand format of the engine, codes 0x1 to 0x8 (R64, R67). -/
def operandFmt (f : Fmt) : Bool := decide (1 ≤ f.code ∧ f.code ≤ 8)

/-- Depth of a pass of the work from `k0` to `k`, at most `kpass`, padded to a multiple of 32 (R75, R152). -/
def passDepth (k k0 kpass : Nat) : Nat := alignUp (min kpass (k - k0)) 32

/-- kpass of MM, MMW and MMRS (R152). -/
def kpassOf (w : BitVec 128) : Nat := if iImm w % 2048 = 0 then 4096 else 32 * (iImm w % 2048)

/-- A tile pass: its operands, formats and depth, the values its result is added to, and for a segment pass the segment's
block count. -/
structure Pass where
  a : List (List FVal)
  b : List (List FVal)
  fa : Fmt
  fb : Fmt
  depth : Nat
  init : Option (List FVal)
  seg : Option Nat
deriving DecidableEq, Repr

/-- Words the loader reads for a pass. -/
def Pass.words (p : Pass) : Nat := readWords p.fa (32 * p.depth) + readWords p.fb (32 * p.depth)

/-- The values of a 32 × 32 tile of an FP32 tensor, zero beyond the shape. -/
def State.tileOf (s : State) (t : Tensor) (r0 c0 : Nat) : List FVal :=
  (List.range 1024).map fun n => s.elem t (r0 + n / 32) (c0 + n % 32)

/-! ## Checks at issue -/

/-- OK if every condition holds, otherwise MALFORMED. -/
def wellFormed (c : Bool) : Status := if c then .ok else .malformed

/-- Chunk ids chunk_base to chunk_base + n − 1 fit 32 bits (R164), the layer has a chunk scale (R137, R141), and a GS1 chunk's
error memory lies in its group's area (R307). -/
def State.shardOk (s : State) (x : Shard) (n : Nat) : Bool :=
  decide (x.chunkBase + n ≤ 2 ^ 32) && decide (x.layer < s.layers) &&
  (decide (x.fmt ≠ .gs1) || s.blend.areas.any fun a =>
    decide (a.kind = 13) && decide (a.inst = x.group) && decide (4096 * (x.chunkBase + n) ≤ a.size))

/-- A · B of src0 and src1 is well formed: formats, shapes, placement and kpass (R67, R140, R152). -/
def mmOperands (s : State) (i : Nat) (w : BitVec 128) (d : List (BitVec 256)) : Option (Tensor × Tensor) :=
  match s.tensorAt d 1, s.tensorAt d 2 with
  | some a, some b =>
    if operandFmt a.fmt && operandFmt b.fmt && decide (a.cols = b.rows) && a.own i && b.own i && decide (iImm w % 2048 ≤ 1024) then
      some (a, b)
    else none
  | _, _ => none

/-- MM (R152). -/
def mmCheck (s : State) (i : Nat) (w : BitVec 128) (d : List (BitVec 256)) : Status :=
  match mmOperands s i w d, s.tensorAt d 0 with
  | some (a, b), some t =>
    wellFormed (decide (t.rows = a.rows) && decide (t.cols = b.cols) && t.own i && (!iAcc w || decide (t.fmt = .fp32)))
  | _, _ => .malformed

/-- MMW (R153). -/
def mmwCheck (s : State) (i : Nat) (w : BitVec 128) (d : List (BitVec 256)) : Status :=
  match mmOperands s i w d with
  | some (a, b) => wellFormed (decide (bitsOf (iImm w) 23 16 + tilesOf a.rows b.cols ≤ 256))
  | none => .malformed

/-- MMRS (R154). -/
def mmrsCheck (s : State) (i : Nat) (w : BitVec 128) (d : List (BitVec 256)) : Status :=
  match mmOperands s i w d, parseShard (nth 0 d 0) with
  | some (a, b), some x =>
    wellFormed (decide (x.rows = a.rows) && decide (x.cols = b.cols) && s.shardOk x (tilesOf a.rows b.cols) &&
      (!iAcc w || match s.tensorAt d 3 with
        | some t => decide (t.fmt = .fp32) && decide (t.rows = a.rows) && decide (t.cols = b.cols) && t.own i
        | none => false))
  | _, _ => .malformed

/-- First slot and slot count of WGBRS and WGBCLR (R153, R154). -/
def slotBase (w : BitVec 128) : Nat := iImm w % 256
def slotCount (w : BitVec 128) : Nat := iImm w / 256 % 512

def slotsOk (w : BitVec 128) : Bool :=
  decide (1 ≤ slotCount w) && decide (slotCount w ≤ 256) && decide (slotBase w + slotCount w ≤ 256)

def wgbrsCheck (s : State) (_ : Nat) (w : BitVec 128) (d : List (BitVec 256)) : Status :=
  match parseShard (nth 0 d 0) with
  | some x => wellFormed (slotsOk w && decide (tilesOf x.rows x.cols = slotCount w) && s.shardOk x (slotCount w))
  | none => .malformed

def wgbclrCheck (_ : State) (_ : Nat) (w : BitVec 128) (_ : List (BitVec 256)) : Status := wellFormed (slotsOk w)

/-- SMM and SMMT (R140, R225, R226). -/
def smmCheck (s : State) (i : Nat) (w : BitVec 128) (d : List (BitVec 256)) : Status :=
  match s.tensorAt d 0, s.tensorAt d 1, s.sparseAt d 2 with
  | some t, some x, some p =>
    wellFormed (operandFmt x.fmt && operandFmt p.fmt && x.own i && decide (t.fmt = .fp32) &&
      decide (p.colForm = decide (iOpcode w = 0x29)) &&
      (if urnBound w then !iAcc w else t.own i && decide (t.rows = x.rows)))
  | _, _, _ => .malformed

/-- SDWRS (R227). -/
def sdwrsCheck (s : State) (i : Nat) (_ : BitVec 128) (d : List (BitVec 256)) : Status :=
  match parseShard (nth 0 d 0), s.tensorAt d 1, s.tensorAt d 2, s.sparseAt d 3 with
  | some y, some x, some g, some p =>
    wellFormed (operandFmt x.fmt && operandFmt g.fmt && operandFmt p.fmt && x.own i && g.own i && decide (x.rows = g.rows) &&
      decide (y.rows = 32 * p.nblocks) && decide (y.cols = 32) && s.shardOk y p.nblocks)
  | _, _, _, _ => .malformed

/-- θp or θm. -/
def theta (w : BitVec 128) : FVal := val32 (BitVec.ofNat 32 (iImm w))

/-- PRED (R239, R242): DENIED in a training program. -/
def predCheck (s : State) (i : Nat) (w : BitVec 128) (d : List (BitVec 256)) : Status :=
  let ok := match s.tensorAt d 0, s.tensorAt d 1, s.tensorAt d 2, s.tensorAt d 3 with
    | some t, some x, some u, some v =>
      decide (x.fmt = .e2m1) && decide (u.fmt = .e2m1) && decide (v.fmt = .e2m1) && decide (x.cols = u.rows) &&
      decide (u.cols = v.rows) && decide (u.cols % 32 = 0) && decide (32 ≤ u.cols ∧ u.cols ≤ 256) &&
      decide (t.fmt = .fp32) && decide (t.rows = (x.rows + 31) / 32) && decide (t.cols = (v.cols + 1023) / 1024) &&
      t.own i && x.own i && u.own i && v.own i && decide (theta w ≠ .nan)
    | _, _, _, _ => false
  (wellFormed ok).join (if (s.core i).evaluation then .ok else .denied)

/-- The mask of SMMP fits X and W (R239, R242). -/
def maskFits (m x : Tensor) (n : Nat) : Bool :=
  decide (m.fmt = .fp32) && decide (m.rows = (x.rows + 31) / 32) && decide (m.cols = (n + 1023) / 1024)

/-- SMMP (R240, R242). -/
def smmpCheck (s : State) (i : Nat) (w : BitVec 128) (d : List (BitVec 256)) : Status :=
  let ok := match s.tensorAt d 0, s.tensorAt d 1, s.tensorAt d 3 with
    | some t, some x, some m =>
      decide (t.fmt = .fp32) && decide (t.rows = x.rows) && operandFmt x.fmt && t.own i && x.own i && m.own i &&
      decide (theta w ≠ .nan) &&
      (match s.tensorAt d 2, s.sparseAt d 2 with
      | some b, _ =>
        operandFmt b.fmt && decide (b.rows = x.cols) && decide (t.cols = b.cols) && b.own i && maskFits m x b.cols &&
          decide (x.cols ≤ 32768)
      | none, some p =>
        operandFmt p.fmt && !p.colForm && decide (p.cols = x.cols) && decide (t.cols = p.rows) && maskFits m x p.rows
      | none, none => false)
    | _, _, _ => false
  (wellFormed ok).join (if (s.core i).evaluation then .ok else .denied)

/-- URNMERGE (R237): what can be judged at issue. -/
def urnmergeCheck (s : State) (i : Nat) (_ : BitVec 128) (d : List (BitVec 256)) : Status :=
  match s.tensorAt d 0 with
  | some t => wellFormed (decide (t.fmt = .fp32) && t.own i)
  | none => .malformed

/-! ## The passes -/

/-- A dense pass of the tile at (32·m, 32·n), part `p` of its chain. -/
def State.densePass (s : State) (a b : Tensor) (m n p kpass : Nat) (init : Option (List FVal)) : Pass :=
  let cls := class16 a.fmt b.fmt
  let k0 := p * kpass
  let depth := passDepth a.cols k0 kpass
  { a := s.rowOperand a cls (32 * m) k0 depth, b := s.colOperand b cls (32 * n) k0 depth, fa := a.fmt, fb := b.fmt
    depth := depth, init := init, seg := none }

/-- A segment pass of SMM (or SMMP) or, with `col`, of SMMT: row tile `m`, and the origin of the cross indices (R223, R225). -/
def State.segPass (s : State) (x : Tensor) (d : Sparse) (v : Validated) (g : Seg) (m org : Nat) (col : Bool)
    (init : Option (List FVal)) : Pass :=
  let cls := class16 x.fmt d.fmt
  let blocks := segBlocks v.idx g
  let a := (List.range 32).map fun i =>
    loadK x.fmt (!x.blockDir1) cls (blocks.flatMap fun e => (List.range 32).map fun c => s.elem x (32 * m + i) (32 * (e.cross - org) + c))
  let b := (List.range 32).map fun j =>
    loadK d.fmt (!col) cls ((List.range g.count).flatMap fun q => (List.range 32).map fun c =>
      if col then blockElem s.byteAt d (g.first + q) c j else blockElem s.byteAt d (g.first + q) j c)
  { a := a, b := b, fa := x.fmt, fb := d.fmt, depth := 32 * g.count, init := init, seg := some g.count }

/-- Both operands of a pass converted to MXFP4 along K: a shadow pass (R240). -/
def Pass.shadow (p : Pass) : Pass :=
  { p with a := p.a.map (reblock .e2m1), b := p.b.map (reblock .e2m1), fa := .e2m1, fb := .e2m1, init := none, seg := none }

/-- A segment runs below full rate (R229). -/
def shortSeg (p : Pass) : Bool :=
  match p.seg with
  | none => false
  | some n =>
    if class16 p.fa p.fb then decide (n < 10)
    else if p.fa = .e2m1 ∧ p.fb = .e2m1 then decide (n < 38)
    else decide (n < 19)

/-- The passes of a whole dense work: tiles by passes. -/
def mmItems (a b : Tensor) (w : BitVec 128) : Nat := tilesOf a.rows b.cols * passesOf a.cols (kpassOf w)

/-- The FP32 values of X · U of one row tile, held as bytes: for each row and each block of 32, the scale and the elements. -/
def packMid (rows : List (List FVal)) : List Byte :=
  rows.flatMap fun r => (chunksOf 32 r).flatMap fun g =>
    let e := encodeBlock .e2m1 [] 0 g
    BitVec.ofNat 8 e.1 :: e.2.1.map (BitVec.ofNat 8)

/-- Row `i` of the intermediate, `r` values wide, `parts` held bytes of 32 blocks by 32 rows after one another. -/
def midRow (bs : List Byte) (r i : Nat) : List FVal :=
  (List.range (r / 32)).flatMap fun q =>
    let o := q * (32 * 33) + i * 33
    decodeBlock .e2m1 (leAt bs o 1) ((List.range 32).map fun k => leAt bs (o + 1 + k) 1)

/-- The pass at the head of the engine queue; none where the instruction has no pass to run now. -/
def State.passOf (s : State) (i : Nat) (e : QEntry) : Option Pass :=
  let w := e.word
  match Op.ofCode (iOpcode w) with
  | some .mm | some .mmw | some .mmrs =>
    match s.tensorAt e.d 1, s.tensorAt e.d 2 with
    | some a, some b =>
      let np := passesOf a.cols (kpassOf w)
      let t := e.item / np
      let nt := (b.cols + 31) / 32
      let m := t / nt
      let n := t % nt
      let start : Option (List FVal) :=
        if ¬ iAcc w then none
        else (s.tensorAt e.d (if iOpcode w = 0x22 then 3 else 0)).map fun x => s.tileOf x (32 * m) (32 * n)
      some (s.densePass a b m n (e.item % np) (kpassOf w) (if e.item % np = 0 then start else some e.acc))
    | _, _ => none
  | some .smm | some .smmt =>
    match s.tensorAt e.d 0, s.tensorAt e.d 1, s.sparseAt e.d 2, s.validated i w e.d with
    | some t, some x, some d, some v =>
      match v.segs[e.item / rowTiles x]? with
      | none => none
      | some g =>
        let m := e.item % rowTiles x
        let col := decide (iOpcode w = 0x29)
        let o := if col then originK w else originN w
        let init := if urnBound w then none else some (s.tileOf t (32 * m) (32 * (g.line - o)))
        some (s.segPass x d v g m (if col then originN w else originK w) col init)
    | _, _, _, _ => none
  | some .sdwrs =>
    match s.tensorAt e.d 1, s.tensorAt e.d 2, s.sparseAt e.d 3, s.validated i w e.d with
    | some x, some y, some d, some v =>
      let np := passesOf x.rows 4096
      let blk := e.item / np
      match v.segs.find? fun g => decide (g.first ≤ blk ∧ blk < g.first + g.count), v.idx[blk]? with
      | some g, some q =>
        let n := if d.colForm then q.cross else g.line
        let k := if d.colForm then g.line else q.cross
        let k0 := e.item % np * 4096
        let depth := passDepth x.rows k0 4096
        let cls := class16 y.fmt x.fmt
        some { a := s.colOperand y cls (32 * (n - originN w)) k0 depth, b := s.colOperand x cls (32 * (k - originK w)) k0 depth
               fa := y.fmt, fb := x.fmt, depth := depth, init := if e.item % np = 0 then none else some e.acc, seg := none }
      | _, _ => none
    | _, _, _, _ => none
  | some .pred =>
    match s.tensorAt e.d 1, s.tensorAt e.d 2, s.tensorAt e.d 3 with
    | some x, some u, some v =>
      let np := passesOf x.cols 4096
      let first := u.cols / 32 * np
      let per := first + (v.cols + 31) / 32
      let m := e.item / per
      let k := e.item % per
      if k < first then some (s.densePass x u m (k / np) (k % np) 4096 (if k % np = 0 then none else some e.acc))
      else
        let a := (List.range 32).map (midRow e.data u.cols)
        some { a := a, b := s.colOperand v false (32 * (k - first)) 0 u.cols, fa := .e2m1, fb := .e2m1, depth := u.cols
               init := none, seg := none }
    | _, _, _ => none
  | some .smmp =>
    match s.tensorAt e.d 0, s.tensorAt e.d 1, s.tensorAt e.d 3 with
    | some t, some x, some msk =>
      match s.tensorAt e.d 2 with
      | some b =>
        let nt := (b.cols + 31) / 32
        let m := e.item / nt
        let n := e.item % nt
        let active := s.maskBit2 msk m n
        if ¬ active ∧ e.aux = 0 then some (s.densePass x b m n 0 (alignUp x.cols 32) none).shadow
        else
          let p := if active then e.aux else e.aux - 1
          some (s.densePass x b m n p 4096 (if p = 0 then none else some e.acc))
      | none =>
        match s.sparseAt e.d 2, s.validated i w e.d with
        | some d, some v =>
          match v.segs[e.item / rowTiles x]? with
          | none => none
          | some g =>
            let m := e.item % rowTiles x
            let p := s.segPass x d v g m 0 false (some (s.tileOf t (32 * m) (32 * g.line)))
            if ¬ s.maskBit2 msk m g.line ∧ e.aux = 0 then some p.shadow else some p
        | _, _ => none
    | _, _, _ => none
  | _ => none

end Sys2Proof.Machine
end

