-- ==== Sys2Proof/Machine/UrnOps.lean ====
section
/-! DEFINITION. The Urn of a cluster (R232 to R238): its session, the tiles it accepts, the spill to its log, and URNMERGE. -/

namespace Sys2Proof.Machine

def State.urn (s : State) (c : Nat) : Urn := (s.cluster c).urn
def State.setUrn (s : State) (c : Nat) (u : Urn) : State := s.setCluster c { s.cluster c with urn := u }

/-- A URNMERGE runs in an engine queue of the cluster (R238). -/
def State.merging (s : State) (c : Nat) : Bool :=
  (s.clusterCores c).any fun i => match s.headOf i 0 with
    | some e => decide (iOpcode e.word = 0x2B)
    | none => false

/-- An instruction for the Urn sits in an engine queue of the cluster (R238). -/
def State.urnQueued (s : State) (c : Nat) : Bool :=
  (s.clusterCores c).any fun i => (nth [] (s.core i).queues 0).any fun e => urnBound e.word

/-- The session as an instruction for the Urn with this dst finds it: opened if none is open (R235, R238). A dst that does not fit the
session is refused before a fence or a failure of it is (R13). -/
def State.urnSession (s : State) (i : Nat) (t : Tensor) : Status × State :=
  let c := s.homeCluster i
  let u := s.urn c
  if u.isOpen ∧ ¬ (u.layer = t.layer ∧ u.width = t.cols / 32) then (.malformed, s)
  else if u.fenced ∨ u.failed then (.unavailable, s)
  else if u.isOpen then (.ok, s)
  else
    let u := { u with isOpen := true, layer := t.layer, width := t.cols / 32, misses := 0, logUsed := 0, nextRow := 0 }
    (.ok, (s.setUrn c u).poke .urnCluster c Reg.URN_PEAK 0)

/-- The bucket of a row segment (R233). -/
def urnBucket (row line : Nat) : Nat := ((row ||| line <<< 30) * 0x9E3779B97F4A7C15 % 2 ^ 64) >>> 53

/-- The insertion epoch (R233). -/
def Urn.epoch (u : Urn) : Nat := u.misses / 1024 % 4096

/-- The oldest of some entries: the largest (epoch − age) mod 4,096, then the lowest number (R236). -/
def Urn.oldest (u : Urn) (es : Smap UrnEntry) : Option (Nat × UrnEntry) :=
  let lag (e : UrnEntry) : Nat := (u.epoch + 4096 - e.age % 4096) % 4096
  es.foldl (fun best e => match best with
    | none => some e
    | some b => if lag b.2 < lag e.2 then some e else some b) none

/-- A DMA transfer of the module's own, checked by CRC-32C, of which the first `fails` tries failed (R37): whether it ends OK. -/
def State.ownTransfer (s : State) (fails : Nat) : Bool × State :=
  if 3 ≤ fails then (false, s.check cDma 1 1 0 1) else (true, s.check cDma 1 (b2n (decide (0 < fails))) (b2n (decide (0 < fails))) 0)

/-- Write one entry to the log, in a transfer of which the first `fails` tries failed (R236, R37). A full log marks the session failed
(R238). -/
def State.spill (s : State) (c : Nat) (n : Nat) (e : UrnEntry) (fails : Nat) : Status × State :=
  let u := s.urn c
  if (s.peek .urnCluster c Reg.URN_LOG_LIMIT).toNat ≤ u.logUsed then
    (.unavailable, (s.setUrn c { u with failed := true }).raise .urnCluster c Reg.URN_EVENT 1)
  else
    let x := s.ownTransfer fails
    if ¬ x.1 then (.checkFail, x.2)
    else
      let r := x.2.memWrite ((s.peek .urnCluster c Reg.URN_LOG_BASE).toNat + 136 * u.logUsed) (e.bytes 0)
      let s := r.2.bump .urnCluster c Reg.URN_SPILLS 1
      (r.1, s.setUrn c { s.urn c with entries := Smap.del (s.urn c).entries n, logUsed := u.logUsed + 1 })

/-- What is left of a tile's way into the Urn: the status so far, the CRC-32C failures of the spills to come, and the state. -/
structure UrnRun where
  st : Status
  fails : List Nat
  s : State

/-- Spill one entry. -/
def UrnRun.spill (r : UrnRun) (c n : Nat) (e : UrnEntry) : UrnRun :=
  let x := r.s.spill c n e (r.fails.headD 0)
  { st := x.1, fails := r.fails.tail, s := x.2 }

/-- Spill the oldest entries, at most `fuel`, until 24,576 or fewer remain (R236). -/
def UrnRun.spillDown (r : UrnRun) (c : Nat) : Nat → UrnRun
  | 0 => r
  | fuel + 1 =>
    let u := r.s.urn c
    if u.entries.length ≤ 24576 then r
    else match u.oldest u.entries with
      | none => r
      | some e =>
        let x := r.spill c e.1 e.2
        if x.st ≠ .ok then x else x.spillDown c fuel

/-- Take one row segment: added into its entry, or put in a free way of its bucket (R233, R236). `fr`: the first of 32 free
values for NaN payloads. -/
def UrnRun.insert (r : UrnRun) (c row line : Nat) (vals : List FVal) (fr : Nat) : UrnRun :=
  let u := r.s.urn c
  let b := urnBucket row line
  let ways := u.entries.filter fun e => decide (15 * b ≤ e.1 ∧ e.1 < 15 * b + 15)
  let pack (xs : List FVal) : List (BitVec 32) := xs.zipIdx.map fun x => bits32 (fr + x.2) x.1
  match ways.find? fun e => decide (e.2.row = row ∧ e.2.line = line) with
  | some e =>
    let sum := e.2.vals.zipWith (fun a x => fadd (val32 a) x) vals
    let s := r.s.setUrn c { u with entries := Smap.put u.entries e.1 { e.2 with vals := pack sum } }
    { r with s := s.bump .urnCluster c Reg.URN_HITS 1 }
  | none =>
    let room := match (if ways.length < 15 then none else u.oldest ways) with
      | some e => r.spill c e.1 e.2
      | none => r
    if room.st ≠ .ok then room
    else
      let u := room.s.urn c
      let way := ((List.range 15).find? fun k => (Smap.get? u.entries (15 * b + k)).isNone).getD 0
      let e : UrnEntry := { row := row, line := line, age := u.epoch, vals := pack (vals.map r32) }
      let u := { u with entries := Smap.put u.entries (15 * b + way) e, misses := u.misses + 1 }
      let s := (room.s.setUrn c u).rmax .urnCluster c Reg.URN_PEAK u.entries.length
      let s := s.rmax .urnMod 0 Reg.URN_PEAK u.entries.length
      if u.entries.length ≤ 27648 then { room with s := s }
      else UrnRun.spillDown { room with s := s.raise .urnCluster c Reg.URN_EVENT 0 } c 30720

/-- The 32 segments of a tile, from its first row (R234). -/
def UrnRun.rows (r : UrnRun) (c row line fr : Nat) : List (List FVal) → UrnRun
  | [] => r
  | v :: vs =>
    let x := r.insert c row line v fr
    if x.st ≠ .ok then x else x.rows c (row + 1) line (fr + 32) vs

/-- The Urn takes a checked tile whole or not at all (R234): one it does not take leaves entries and log as they were. `fails`: the
CRC-32C failures of the spills the tile brings about, in order. -/
def State.urnTile (s : State) (i row line : Nat) (vals : List FVal) (fails : List Nat) : Status × State :=
  let c := s.homeCluster i
  let fr := s.freeIx
  let s := s.useFree 1024
  let old := s.urn c
  let r := UrnRun.rows { st := .ok, fails := fails, s := s } c row line fr (chunksOf 32 vals)
  if r.st = .ok then (.ok, r.s.bump .urnCluster c Reg.URN_TILES 1)
  else (r.st, r.s.setUrn c { r.s.urn c with entries := old.entries, logUsed := old.logUsed, misses := old.misses })

/-- The Urn is fenced, by a failed addition (event 2) or a double-bit error (event 3) (R238). -/
def State.fenceUrn (s : State) (c event : Nat) : State :=
  (s.setUrn c { s.urn c with fenced := true }).raise .urnCluster c Reg.URN_EVENT event

/-! ## URNMERGE -/

/-- Read the log, `n` records from record `j` (R237). -/
def State.readLog (s : State) (base : Nat) : Nat → Nat → Status × List UrnEntry × State
  | 0, _ => (.ok, [], s)
  | n + 1, j =>
    let r := s.memRead (base + 136 * j) 136
    if r.1 ≠ .ok then (r.1, [], r.2.2)
    else
      let x := r.2.2.readLog base n (j + 1)
      (x.1, urnRecord r.2.1 :: x.2.1, x.2.2)

/-- Element (r, c) of the merged tensor: the entries and records of the row, added in order from zero (R237). -/
def mergedVal (es : List UrnEntry) (row0 r c : Nat) : FVal :=
  (es.filter fun e => decide (e.row = row0 + r ∧ e.line = c / 32)).foldl (fun a e => fadd a (val32 (nth 0 e.vals (c % 32)))) fzero

/-- Write an FP32 tensor of a tile store whole. -/
def State.putFp32 (s : State) (i : Nat) (t : Tensor) (val : Nat → Nat → FVal) : State :=
  let fr := s.freeIx
  let s := s.useFree t.count
  s.putElems i (t.convert 0 t.rows 0 t.cols val (fun _ _ => none) fr).writes

/-- Rows of the Urn and records of its log whose addition into dst is computed again, once (R238): counted as failed, and as recovered
or escalated. -/
def State.mergeAddFails (s : State) (i c : Nat) (again : Bool) : State :=
  let s := (s.bump .urnCluster c Reg.URN_ADD_FAILS 1).raise .urnCluster c Reg.URN_EVENT 2
  s.checkAt i cTile 0 1 (b2n !again) (b2n again)

/-- The log's part of URNMERGE, and its end (R237 steps 3 and 4): `es` the entries of the range that were in the Urn. -/
def State.mergeLog (s : State) (i c : Nat) (t : Tensor) (row0 : Nat) (es : List UrnEntry) (last : Bool) : Status × State :=
  let here (e : UrnEntry) : Bool := decide (row0 ≤ e.row ∧ e.row < row0 + t.rows)
  let past (e : UrnEntry) : Bool := decide (row0 + t.rows ≤ e.row)
  let u := s.urn c
  let log := s.readLog (s.peek .urnCluster c Reg.URN_LOG_BASE).toNat u.logUsed 0
  if log.1 ≠ .ok then (log.1, log.2.2)
  else
    let mine := log.2.1.filter here
    let s := log.2.2.bump .urnCluster c Reg.URN_LOG_READS u.logUsed
    let s := (if mine.isEmpty then s else s.putFp32 i t (mergedVal (es ++ mine) row0)).bump .urnCluster c Reg.URN_MERGED mine.length
    if last then
      let n := (u.entries.filter fun e => past e.2).length + (log.2.1.filter past).length
      let s := (s.setUrn c { Urn.blank with misses := u.misses }).raise .urnCluster c Reg.URN_EVENT 5
      if n = 0 then (.ok, s)
      else (.malformed, (s.bump .urnCluster c Reg.URN_DISCARDED n).raise .urnCluster c Reg.URN_EVENT 4)
    else (.ok, s.setUrn c { s.urn c with nextRow := row0 + t.rows })

/-- URNMERGE runs (R237, R238): its status, and the state. dst becomes zero, then takes the entries of its rows, which are freed, then
the records of the log. -/
def State.urnMerge (s : State) (i : Nat) (w : BitVec 128) (d : List (BitVec 256)) (o : ItemObs) : Status × State :=
  let c := s.homeCluster i
  let u := s.urn c
  let row0 := iImm w % 2 ^ 30
  match s.tensorAt d 0 with
  | none => (.malformed, s)
  | some t =>
    if ¬ u.isOpen ∨ t.cols ≠ 32 * u.width ∨ row0 ≠ u.nextRow then (.malformed, s)
    else if u.fenced ∨ u.failed then (.unavailable, s)
    else
      let s := s.putFp32 i t fun _ _ => fzero
      let k := o.rd.corrected.length
      let s := s.check cStore (34 * u.entries.length) (k + b2n o.rd.double) k (b2n o.rd.double)
      if o.rd.double then (.dataErr, s.fenceUrn c 3)
      else
        let s := if o.addFails then s.mergeAddFails i c o.addFailsAgain else s
        if o.addFails ∧ o.addFailsAgain then (.checkFail, s.fenceUrn c 2)
        else
          let here (e : UrnEntry) : Bool := decide (row0 ≤ e.row ∧ e.row < row0 + t.rows)
          let es := (u.entries.map (·.2)).filter here
          let s := (s.putFp32 i t (mergedVal es row0)).bump .urnCluster c Reg.URN_MERGED es.length
          let s := s.setUrn c { s.urn c with entries := (s.urn c).entries.filter fun e => !here e.2 }
          s.mergeLog i c t row0 es ((iImm w).testBit 30)

end Sys2Proof.Machine
end

