-- ==== Sys2Proof/Machine/Engine.lean ====
section
/-! DEFINITION. The engine queue (R126, R152 to R155, R225 to R240): issue of the matrix and sparse instructions, and the verdict
of a tile pass (R77 to R79): its result released, replayed, or the core fenced. -/

namespace Sys2Proof.Machine

/-! ## Issue -/

/-- MM (R152). -/
def execMm (core : Nat) (o : IssueObs) (s : State) : Next := .next (s.issueQ .mm mmCheck core o)

/-- MMW (R153). -/
def execMmw (core : Nat) (o : IssueObs) (s : State) : Next := .next (s.issueQ .mmw mmwCheck core o)

/-- MMRS (R154). -/
def execMmrs (core : Nat) (o : IssueObs) (s : State) : Next := .next (s.issueQ .mmrs mmrsCheck core o)

/-- WGBRS (R154). -/
def execWgbrs (core : Nat) (o : IssueObs) (s : State) : Next := .next (s.issueQ .wgbrs wgbrsCheck core o)

/-- WGBCLR (R153). -/
def execWgbclr (core : Nat) (o : IssueObs) (s : State) : Next := .next (s.issueQ .wgbclr wgbclrCheck core o)

/-- The issue of an instruction for the Urn opens the session, unless a merge runs, for which it waits (R235, R238). -/
def State.urnIssue (s t : State) (i : Nat) : State :=
  let q := nth [] (t.core i).queues 0
  match (if (nth [] (s.core i).queues 0).length < q.length then q.getLast? else none) with
  | none => t
  | some e =>
    if ¬ urnBound e.word ∨ e.status ≠ .ok ∨ t.merging (t.homeCluster i) then t
    else match t.tensorAt e.d 0 with
      | none => t
      | some x =>
        let r := t.urnSession i x
        if r.1 = .ok then r.2
        else
          let c := r.2.core i
          r.2.setCore i { c with queues := modNth c.queues 0 fun l => l.dropLast ++ [{ e with status := r.1 }] }

/-- SMM (R225). -/
def execSmm (core : Nat) (o : IssueObs) (s : State) : Next := .next (s.urnIssue (s.issueQ .smm smmCheck core o) core)

/-- SMMT (R225). -/
def execSmmt (core : Nat) (o : IssueObs) (s : State) : Next := .next (s.urnIssue (s.issueQ .smmt smmCheck core o) core)

/-- SDWRS (R227). -/
def execSdwrs (core : Nat) (o : IssueObs) (s : State) : Next := .next (s.issueQ .sdwrs sdwrsCheck core o)

/-- URNMERGE (R237, R238): BUSY while an instruction for the Urn sits in an engine queue of the cluster. -/
def execUrnmerge (core : Nat) (o : IssueObs) (s : State) : Next :=
  .next (s.issueQ .urnmerge (fun s i w d =>
    (urnmergeCheck s i w d).join (if s.urnQueued (s.homeCluster i) then .busy else .ok)) core o)

/-- The mask of PRED or SMMP does not fit, or θ is a NaN (R242). -/
def State.badMask (s : State) (w : BitVec 128) (d : List (BitVec 256)) : Bool :=
  decide (theta w = .nan) ||
  match s.tensorAt d (if iOpcode w = 0x2C then 0 else 3), s.tensorAt d 1 with
  | some m, some x =>
    let n : Option Nat :=
      if iOpcode w = 0x2C then (s.tensorAt d 3).map (·.cols)
      else match s.tensorAt d 2 with
        | some b => some b.cols
        | none => (s.sparseAt d 2).map (·.rows)
    match n with
    | some n => !maskFits m x n
    | none => false
  | _, _ => false

/-- chunk_index of the chunk an instruction names; 0 without one, or with its head outside the core's store (R247). -/
def State.chunkIndex (s : State) (i : Nat) (w : BitVec 128) (d : List (BitVec 256)) : Nat :=
  match (if usesChunk s w d then s.sparseAt d (sparseOperand w) else none) with
  | some p => if ownRange i p.metaBase 64 then (sparseHead s.byteAt p.metaBase).chunkIndex else 0
  | none => 0

/-- Issue of PRED or SMMP: a mask that does not fit is recorded as a metadata error (R242, R247). -/
def State.issueMask (s : State) (op : Op) (check : State → Nat → BitVec 128 → List (BitVec 256) → Status) (i : Nat)
    (o : IssueObs) : State :=
  let t := s.issueQ op check i o
  let q := nth [] (t.core i).queues 0
  match (if (nth [] (s.core i).queues 0).length < q.length then q.getLast? else none) with
  | none => t
  | some e =>
    if ¬ t.badMask e.word e.d then t
    else
      let x := mkWord [(t.chunkIndex i e.word e.d, 32), (6, 16)]
      let t := ((t.poke .strCore i Reg.STR_META_ERR x).poke .strMod 0 Reg.STR_META_ERR x).bump .strCore i Reg.STR_META_ERRS 1
      t.raise .strCore i Reg.STR_EVENT 0

/-- PRED (R239). -/
def execPred (core : Nat) (o : IssueObs) (s : State) : Next := .next (s.issueMask .pred predCheck core o)

/-- SMMP (R240). -/
def execSmmp (core : Nat) (o : IssueObs) (s : State) : Next := .next (s.issueMask .smmp smmpCheck core o)

/-! ## The wide gradient buffer -/

/-- Count words read of the wide gradient buffer (R100). -/
def State.wgbReads (s : State) (i n corrected : Nat) (double : Bool) : State :=
  let s := (s.bump .vecCore i Reg.VEC_WGB_READS n).checkAt i cStore n (corrected + b2n double) corrected (b2n double)
  let s := if corrected = 0 then s else
    ((s.bump .vecCore i Reg.VEC_WGB_CORRECTED corrected).raise .vecCore i Reg.VEC_EVENT 3).tsCorrections corrected
  if double then (s.bump .vecCore i Reg.VEC_WGB_DOUBLE 1).raise .vecCore i Reg.VEC_EVENT 5 else s

/-- The values of a slot. -/
def Core.slot (c : Core) (n : Nat) : List FVal := (List.range 1024).map fun k => Smap.get fzero c.wgb (1024 * n + k)

/-- A slot holds these values. -/
def Core.setSlot (c : Core) (n : Nat) (vals : List FVal) : Core :=
  { c with wgb := (List.range 1024).foldl (fun m k => Smap.set fzero m (1024 * n + k) (nth fzero vals k)) c.wgb }

/-- Slots `n` to `n + count - 1` cleared. -/
def Core.clearSlots (c : Core) (n count : Nat) : Core :=
  { c with wgb := Smap.keep (fun k _ => decide (k < 1024 * n ∨ 1024 * (n + count) ≤ k)) c.wgb }

/-! ## Items -/

/-- Work items of an instruction of the engine queue: passes, or for SMMP tiles. -/
def State.totalItems (s : State) (i : Nat) (e : QEntry) : Nat :=
  let w := e.word
  let segs : Nat := match s.validated i w e.d with | some v => v.segs.length | none => 0
  let tiles : Nat := match s.tensorAt e.d 1 with | some x => rowTiles x | none => 0
  match Op.ofCode (iOpcode w) with
  | some .mm | some .mmw | some .mmrs =>
    match s.tensorAt e.d 1, s.tensorAt e.d 2 with
    | some a, some b => mmItems a b w
    | _, _ => 0
  | some .smm | some .smmt => segs * tiles
  | some .sdwrs =>
    match s.tensorAt e.d 1, s.validated i w e.d with
    | some x, some v => v.head.nblk * passesOf x.rows 4096
    | _, _ => 0
  | some .pred =>
    match s.tensorAt e.d 1, s.tensorAt e.d 2, s.tensorAt e.d 3 with
    | some x, some u, some v => rowTiles x * (u.cols / 32 * passesOf x.cols 4096 + (v.cols + 31) / 32)
    | _, _, _ => 0
  | some .smmp =>
    match s.tensorAt e.d 2 with
    | some b => tiles * ((b.cols + 31) / 32)
    | none => segs * tiles
  | some .wgbrs => slotCount w
  | _ => 1

/-- The head completes with a status; an instruction for the Urn that ends other than OK is noted (R246). -/
def State.retireUrn (s : State) (i : Nat) (st : Status) : State :=
  let bound : Bool := match s.headOf i 0 with | some e => urnBound e.word | none => false
  (if bound && decide (st ≠ .ok) then s.raise .strCore i Reg.STR_EVENT 2 else s).retire i 0 st false

/-- The head instruction's current item is done: on to the next, or the instruction completes OK. -/
def State.nextItem (s : State) (i : Nat) (e : QEntry) (data : List Byte) : State :=
  if s.totalItems i e ≤ e.item + 1 then s.retire i 0 .ok false
  else s.setHead i 0 { e with item := e.item + 1, acc := [], aux := 0, replaying := false, data := data }

/-- A pass of a chain that goes on (R70): the running total is kept. -/
def State.chainOn (s : State) (i : Nat) (e : QEntry) (t : List FVal) (item aux : Nat) : State :=
  s.setHead i 0 { e with acc := t, item := item, aux := aux, replaying := false }

/-- The mask test of PRED and SMMP: the largest signed value of the tile's elements inside the shape reaches θ. With a NaN
among them the outcome is not stated: a free value. -/
def reachesTheta (th : FVal) (fr : Nat) (xs : List FVal) : Bool :=
  match (xs.tail).foldl fmax (xs.headD fzero) with
  | .nan => decide (Config.freeValue fr % 2 = 1)
  | m => !m.lt th

/-- The elements of the tile at (32·m, 32·n) of an M × N result. -/
def tileShape (rows cols m n : Nat) (t : List FVal) : List FVal :=
  ((List.range 1024).filter fun k => decide (32 * m + k / 32 < rows ∧ 32 * n + k % 32 < cols)).map (nth fzero t)

/-- Count a segment pass that was released (R229, R243). -/
def State.countSeg (s : State) (i : Nat) (p : Pass) : State :=
  match p.seg with
  | none => s
  | some n =>
    let s := (s.bump .strCore i Reg.STR_SEGMENTS 1).bump .strCore i Reg.STR_BLOCKS n
    if shortSeg p then (s.bump .strCore i Reg.STR_SHORT_SEGS 1).raise .strCore i Reg.STR_EVENT 1 else s

/-- PRED after a pass (R239). -/
def State.releasePred (s : State) (i : Nat) (e : QEntry) (t : List FVal) : State :=
  match s.tensorAt e.d 0, s.tensorAt e.d 1, s.tensorAt e.d 2, s.tensorAt e.d 3 with
  | some msk, some x, some u, some v =>
    let np := passesOf x.cols 4096
    let first := u.cols / 32 * np
    let nt := (v.cols + 31) / 32
    let m := e.item / (first + nt)
    let k := e.item % (first + nt)
    if k < first then
      if k % np + 1 < np then s.chainOn i e t (e.item + 1) 0
      else s.nextItem i e (e.data ++ packMid (chunksOf 32 t))
    else
      let b := k - first
      let fr := s.freeIx
      let s := s.useFree 1
      let on := reachesTheta (theta e.word) fr (tileShape x.rows v.cols m b t)
      let o := msk.bitOff m (b / 32)
      let old := if b % 32 = 0 then 0 else s.elemBits msk m (b / 32)
      let s := s.putElems i [(msk.base + o / 8, 0, 32, old + b2n on * 2 ^ (b % 32))]
      (s.bump .strCore i Reg.STR_PRED_TILES 1).nextItem i e (if b + 1 = nt then [] else e.data)
  | _, _, _, _ => s.retire i 0 .malformed false

/-- SMMP after a pass (R240): `p` the pass, `t` its tile. -/
def State.releaseSmmp (s : State) (i : Nat) (e : QEntry) (p : Pass) (t : List FVal) : State :=
  match s.tensorAt e.d 0, s.smmpAt i e with
  | some dst, some x =>
    let dense := (s.tensorAt e.d 2).isSome
    if x.shadow e then
      let fr := s.freeIx
      let s := s.useFree 1
      if reachesTheta (theta e.word) fr (tileShape dst.rows dst.cols x.m x.n t) then
        let s := (s.bump .strCore i Reg.STR_MISSES 1).raise .strCore i Reg.STR_EVENT 3
        s.setHead i 0 { e with aux := 1, replaying := false }
      else
        let s := if dense then s.storeTile i e.word dst false (32 * x.m) (32 * x.n) (List.replicate 1024 fzero) else s
        (s.bump .strCore i Reg.STR_SKIPPED 1).nextItem i e []
    else if x.pass e + 1 < x.passes then s.chainOn i e t e.item (e.aux + 1)
    else
      let s := (s.countSeg i p).storeTile i e.word dst false (32 * x.m) (32 * x.n) t
      let s := if x.active then s.bump .strCore i Reg.STR_ACTIVE 1 else s
      s.nextItem i e []
  | _, _ => s.retire i 0 .malformed false

/-- The pass that may be in the engine's other bank while the one at hand is there (R82), as the head would stand at it: the next of
the instruction, where its operands do not wait for the one at hand. The next instruction's first pass is not begun before this one
has ended, as R128 leaves open (DESIGN CHOICE, log entry 91). -/
def State.nextPass (s : State) (i : Nat) (e : QEntry) : Option QEntry :=
  let e : QEntry := { e with acc := [], replaying := false, ahead := .none }
  let on : Option QEntry := if e.item + 1 < s.totalItems i e then some { e with item := e.item + 1, aux := 0 } else none
  match Op.ofCode (iOpcode e.word) with
  | some .pred =>
    match s.tensorAt e.d 1, s.tensorAt e.d 2, s.tensorAt e.d 3 with
    | some x, some u, some v =>
      let first := u.cols / 32 * passesOf x.cols 4096
      if e.item % (first + (v.cols + 31) / 32) + 1 = first then none else on
    | _, _, _ => none
  | some .smmp =>
    match s.smmpAt i e with
    | none => none
    | some x =>
      if x.shadow e then none
      else if x.pass e + 1 < x.passes then some { e with aux := e.aux + 1 }
      else on
  | _ => on

/-- A row segment tile enters the Urn (R226, R234): `fails`, the CRC-32C failures of the spills it brings about. -/
def State.releaseUrn (s : State) (i : Nat) (e : QEntry) (p : Pass) (t : List FVal) (fails : List Nat) : State :=
  match s.tensorAt e.d 1, s.validated i e.word e.d with
  | some x, some v =>
    match v.segs[e.item / rowTiles x]? with
    | none => s.retire i 0 .malformed false
    | some g =>
      let n := g.line - (if iOpcode e.word = 0x29 then originK e.word else originN e.word)
      let r := (s.countSeg i p).urnTile i (32 * (e.item % rowTiles x)) n t fails
      if r.1 = .ok then r.2.nextItem i e [] else r.2.retireUrn i r.1
  | _, _ => s.retire i 0 .malformed false

/-- The result of a passed pass is released (R70, R79): `t` is the pass's tile, with what it was to be added to. -/
def State.releasePass (s : State) (i : Nat) (e : QEntry) (p : Pass) (t : List FVal) : State :=
  let w := e.word
  match Op.ofCode (iOpcode w) with
  | some .mm | some .mmw | some .mmrs =>
    match s.tensorAt e.d 1, s.tensorAt e.d 2 with
    | some a, some b =>
      let np := passesOf a.cols (kpassOf w)
      if e.item % np + 1 < np then s.chainOn i e t (e.item + 1) 0
      else
        let nt := (b.cols + 31) / 32
        let k := e.item / np
        if iOpcode w = 0x20 then
          match s.tensorAt e.d 0 with
          | some x => (s.storeTile i w x (dGov (nth 0 e.d 0)) (32 * (k / nt)) (32 * (k % nt)) t).nextItem i e []
          | none => s.retire i 0 .malformed false
        else if iOpcode w = 0x21 then
          let n := bitsOf (iImm w) 23 16 + k
          let c := s.core i
          let s := s.setCore i (c.setSlot n ((c.slot n).zipWith fadd t))
          (s.bump .vecCore i Reg.VEC_WGB_ADDS 1).nextItem i e []
        else s.chainOn i e t e.item 1
    | _, _ => s.retire i 0 .malformed false
  | some .smm | some .smmt =>
    match s.tensorAt e.d 0, s.tensorAt e.d 1, s.validated i w e.d with
    | some dst, some x, some v =>
      match v.segs[e.item / rowTiles x]? with
      | none => s.retire i 0 .malformed false
      | some g =>
        let n := g.line - (if iOpcode w = 0x29 then originK w else originN w)
        ((s.countSeg i p).storeTile i w dst false (32 * (e.item % rowTiles x)) (32 * n) t).nextItem i e []
    | _, _, _ => s.retire i 0 .malformed false
  | some .sdwrs =>
    let np := match s.tensorAt e.d 1 with | some x => passesOf x.rows 4096 | none => 1
    if e.item % np + 1 < np then s.chainOn i e t (e.item + 1) 0 else s.chainOn i e t e.item 1
  | some .pred => s.releasePred i e t
  | some .smmp => s.releaseSmmp i e p t
  | _ => s

/-! ## The verdict -/

/-- What an instruction does before its first pass: none while it waits for a merge; otherwise its status (R222, R226, R238). -/
def State.beginPasses (s : State) (i : Nat) (e : QEntry) : Option Status × State :=
  let w := e.word
  let c := s.homeCluster i
  if urnBound w ∧ s.merging c then (none, s)
  else
    let r := if urnBound w then (match s.tensorAt e.d 0 with | some t => s.urnSession i t | none => (.malformed, s)) else (.ok, s)
    if r.1 ≠ .ok then (some r.1, r.2)
    else
      let s := r.2
      if ¬ usesChunk s w e.d then (some .ok, s)
      else match s.validated i w e.d with
        | none => (some .malformed, s)
        | some v =>
          if v.reason ≠ 0 then
            let x := mkWord [(s.chunkIndex i w e.d, 32), (v.reason, 16), (v.entry % 65536, 0)]
            let s := ((s.poke .strCore i Reg.STR_META_ERR x).poke .strMod 0 Reg.STR_META_ERR x).bump .strCore i Reg.STR_META_ERRS 1
            (some .malformed, s.raise .strCore i Reg.STR_EVENT 0)
          else
            let s := s.bump .strCore i Reg.STR_CHUNKS 1
            let clear := decide (iOpcode w = 0x2D) || (!urnBound w && !iAcc w && decide (iOpcode w ≠ 0x2A))
            match s.tensorAt e.d 0 with
            | some t => (some .ok, if clear then s.putFp32 i t fun _ _ => fzero else s)
            | none => (some .ok, s)

/-- ENG_FAIL_LOC of a core and of the module (R91), for the pass issued `back` passes before the last. -/
def State.failLoc (s : State) (i back kind row col : Nat) : State :=
  let n := (s.peek .engCore i Reg.ENG_PASSES).toNat - back
  let x := mkWord [(n % 2 ^ 32, 32), (kind, 16), (col, 8), (row, 0)]
  ((s.poke .engCore i Reg.ENG_FAIL_LOC x).poke .engMod 0 Reg.ENG_FAIL_LOC x).poke .engMod 0 Reg.ENG_FAIL_CORE (mkWord [(i, 32)])

/-- The pass at hand closes an addition into the wide gradient buffer (R100). -/
def State.addsWide (s : State) (e : QEntry) : Bool :=
  decide (iOpcode e.word = 0x21) && (match s.tensorAt e.d 1 with
    | some a => decide (e.item % passesOf a.cols (kpassOf e.word) + 1 = passesOf a.cols (kpassOf e.word))
    | none => false)

/-- How a pass was judged: its core fenced, or failed at a place, or passed with its tile. -/
inductive Judged where
  | fenced
  | failed (kind row col : Nat)
  | passed (tile : List FVal)
deriving DecidableEq, Repr

/-- The check of a pass of the head, `e` the head as it stands at that pass: `first`, when the pass has been issued for it and is no
replay. A failure of the loader's compare comes before one of the tile (R84) and shows the row and column that the tile check gives; one
of the addition shows neither (DESIGN CHOICE, log entry 96). -/
def State.judge (s : State) (i : Nat) (e : QEntry) (p : Pass) (o : PassObs) (first : Bool) : Judged × State :=
  let s := if first then s.bump .engCore i Reg.ENG_PASSES 1 else s
  let s := s.tsReads i p.words o.corrected o.double
  if o.double then (.fenced, s.fenceCore i csStore)
  else
    let wide := s.addsWide e
    let s := if wide then s.wgbReads i 1024 o.wgbCorrected o.wgbDouble else s
    if wide ∧ o.wgbDouble then (.fenced, s.fenceCore i csStore)
    else
      let tile := faultyTile o (passTile (class16 p.fa p.fb) p.a p.b)
      let v := tileCheck (s.rfield .engMod 0 Reg.ENG_TAU 41 32) ((p.depth + 2047) / 2048) p.a p.b tile
        (faultySentinels o (sentinels p.a p.b p.depth))
      let s := (s.bump .engCore i Reg.ENG_TILE_CHECKS 1).checkAt i cTile 1 0 0 0
      let s := if v.unchecked = 0 then s else
        (s.bump .engCore i Reg.ENG_UNCHECKED v.unchecked).raise .engCore i Reg.ENG_EVENT 4
      if o.loader then (.failed 6 v.row v.col, s)
      else if ¬ v.passed then (.failed v.kind v.row v.col, s)
      else if o.chainAdd && (p.init.isSome || wide) then (.failed 7 0 0, s)
      else (.passed tile.flatten, s)

/-- A failed check is counted and its place recorded. `check_failed` is set whatever compare failed (DESIGN CHOICE, log entry 96). -/
def State.markFail (s : State) (i back kind row col : Nat) : State :=
  let s := ((s.bump .engCore i Reg.ENG_TILE_FAILS 1).raise .engCore i Reg.ENG_EVENT 0).failLoc i back kind row col
  if kind = 6 then s.raise .engCore i Reg.ENG_EVENT 6 else s

/-- A failure that may not be replayed any more (R40): it escalates and the core is fenced. -/
def State.limitFence (s : State) (i k : Nat) : State :=
  ((s.raise .engCore i Reg.ENG_EVENT 3).checkAt i k 0 0 0 1).fenceCore i csTile

/-- The pass at hand is replayed; the next may be in the other bank, its check then due first (R84). -/
def State.startReplay (s : State) (i : Nat) (e : QEntry) : State :=
  s.setHead i 0 { e with replaying := true, ahead := if (s.nextPass i e).isSome then .due else .none }

/-- A failing pass: one replay, unless the limit of R40 would be crossed; a failing replay fences the core, and a result held behind it
is discarded (R39, R40, R78, R84). -/
def State.failPass (s : State) (i : Nat) (e : QEntry) (kind row col : Nat) : State :=
  let s := s.markFail i (b2n (decide (e.ahead ≠ .none))) kind row col
  if e.replaying then
    let s := ((s.bump .engCore i Reg.ENG_REPLAYS_FAILED 1).raise .engCore i Reg.ENG_EVENT 2).checkAt i cTile 0 0 0 1
    (s.setHead i 0 { e with replaying := false }).fenceCore i csTile
  else
    let s := s.checkAt i cTile 0 1 0 0
    if s.overLimit i 0 then s.limitFence i cTile else s.startReplay i e

/-- The pass in the other bank fails while an earlier one is replayed: it is replayed after that (R84). -/
def State.failAhead (s : State) (i : Nat) (e : QEntry) (kind row col : Nat) : State :=
  let s := (s.markFail i 0 kind row col).checkAt i cTile 0 1 0 0
  if s.overLimit i 1 then s.limitFence i cTile else s.setHead i 0 { e with ahead := .failed }

/-- A replay or a recomputation passed: the failure counts as recovered (R39, R40). -/
def State.recover (s : State) (i k : Nat) : State :=
  let s := s.checkAt i k 0 0 1 0
  let c := s.core i
  (s.setCore i { c with recovered := c.recovered + 1 }).faultLog csTile lvUnit .ok i

/-- A tile with what it is to be added to. -/
def Pass.added (p : Pass) (t : List FVal) : List FVal :=
  match p.init with
  | none => t
  | some x => x.zipWith fadd t

/-- A held result of the other bank goes once the one before it has gone; a failed pass there is replayed (R79, R84). -/
def State.releaseAhead (s : State) (i seq : Nat) : State :=
  match s.headOf i 0 with
  | none => s
  | some e =>
    if e.seq ≠ seq ∨ e.offered ∨ e.urnAgain then s
    else match e.ahead with
      | .passed t =>
        let e := { e with ahead := .none }
        match s.passOf i e with
        | none => s.retireUrn i .malformed
        | some p => if urnBound e.word then s.setHead i 0 { e with acc := t, aux := 3 } else s.releasePass i e p (p.added t)
      | .failed => s.startReplay i e
      | _ => s

/-- A checked tile is added into the Urn (R233, R238): a double-bit error in an entry fences the Urn; an addition that fails its check is
computed again, once. -/
def State.urnAdd (s : State) (i : Nat) (e : QEntry) (p : Pass) (t : List FVal) (o : PassObs) : State :=
  let c := s.homeCluster i
  let again := e.urnAgain
  let s := s.check cStore 1088 (o.wgbCorrected + b2n o.wgbDouble) o.wgbCorrected (b2n o.wgbDouble)
  if o.wgbDouble then ((s.checkAt i cTile 0 0 0 (b2n again)).fenceUrn c 3).retireUrn i .dataErr
  else if o.chainAdd then
    let s := (s.bump .urnCluster c Reg.URN_ADD_FAILS 1).raise .urnCluster c Reg.URN_EVENT 2
    if again then ((s.checkAt i cTile 0 0 0 1).fenceUrn c 2).retireUrn i .checkFail
    else (s.checkAt i cTile 0 1 0 0).setHead i 0 { e with acc := t, aux := 2, replaying := false }
  else
    let s := s.checkAt i cTile 0 0 (b2n again) 0
    s.releaseUrn i { e with acc := [], aux := 0, replaying := false } p t o.spills

/-- The pass at hand has passed: the failure of a replayed one is recovered, and the result goes where it is to go. -/
def State.passPass (s : State) (i : Nat) (e : QEntry) (p : Pass) (t : List FVal) (o : PassObs) : State :=
  let s := if ¬ e.replaying then s else
    ((s.bump .engCore i Reg.ENG_REPLAYS_PASSED 1).raise .engCore i Reg.ENG_EVENT 1).recover i cTile
  let s := if urnBound e.word then s.urnAdd i e p t o else s.releasePass i e p (p.added t)
  s.releaseAhead i e.seq

/-- The verdict of the pass at hand, once the instruction has begun. -/
def State.judgePass (s : State) (i : Nat) (e : QEntry) (o : PassObs) : State :=
  match s.passOf i e with
  | none => s.retireUrn i .malformed
  | some p =>
    let r := s.judge i e p o (!e.replaying)
    match r.1 with
    | .fenced => r.2
    | .failed k row col => r.2.failPass i e k row col
    | .passed t => r.2.passPass i e p t o

/-- The verdict of the pass in the other bank (R84): a passed result is held there. -/
def State.judgeAhead (s : State) (i : Nat) (e : QEntry) (o : PassObs) : State :=
  match s.nextPass i e with
  | none => s.setHead i 0 { e with ahead := .none }
  | some x =>
    match s.passOf i x with
    | none => s.setHead i 0 { e with ahead := .none }
    | some p =>
      let r := s.judge i x p o true
      match r.1 with
      | .fenced => r.2
      | .failed k row col => r.2.failAhead i e k row col
      | .passed t => r.2.setHead i 0 { e with ahead := .passed t }

/-- The verdict of the tile pass at the head of a core's engine queue. -/
def State.passVerdict (s : State) (i : Nat) (o : PassObs) : State :=
  if ¬ s.coreWorks i then s
  else match s.headOf i 0 with
  | none => s
  | some e =>
    if ¬ passOp e.word ∨ e.offered then s
    else if e.status ≠ .ok then s.retireUrn i e.status
    else if urnBound e.word ∧ (e.aux = 2 ∨ e.aux = 3) then
      match s.passOf i { e with aux := 0 } with
      | some p => (s.urnAdd i e p e.acc o).releaseAhead i e.seq
      | none => s.retireUrn i .malformed
    else if e.replaying ∧ e.ahead = .due then s.judgeAhead i e o
    else
      let r := if e.fresh then s.beginPasses i e else (some .ok, s)
      match r.1 with
      | none => s
      | some .ok => r.2.judgePass i e o
      | some st => r.2.retireUrn i st

/-- TILE_PASS_VERDICT (R77, R78, R39): with what hardware did wrong in the pass. -/
def execTilePassVerdict (core : Nat) (o : PassObs) (s : State) : Next := .next (s.passVerdict core o)

end Sys2Proof.Machine
end

