-- ==== Sys2Proof/Machine/Control.lean ====
section
/-! DEFINITION. The control and sync instructions and CHKRD, which execute in the sequencer (R143 to R148, R168), the arrival
of a signal, the end of a wait by TIMEOUT, the batch boundary and the reserved opcodes. -/

namespace Sys2Proof.Machine

/-! ## Control -/

/-- NOP (R143): does nothing. -/
def execNop (core : Nat) (o : IssueObs) (s : State) : Next :=
  .next (s.issueWith .nop core o fun s => s.seqDone core .ok ((s.core core).pc + 1))

/-- The cores with a program that count in a cluster's barriers and batches: those it is the home of (R147). -/
def State.clusterProg (s : State) (c : Nat) : List Nat := s.programCores.filter fun i => decide (s.homeCluster i = c)

/-- Those of the region of core `i`. -/
def State.regionProg (s : State) (i : Nat) : List Nat :=
  s.programCores.filter fun j => decide (s.coreRegion j = s.coreRegion i)

/-- A core has executed BATCH n, or has reached END (R148). -/
def Core.batchOver (c : Core) (n : Nat) : Bool := c.batches.contains n || c.ending

/-- The cluster sequencer reports the end of every batch that some core of the cluster has executed and that all have
executed or passed by END (R148). -/
def State.reportBatches (s : State) (c : Nat) : State :=
  let cores := (s.clusterProg c).map s.core
  let open_ := (cores.flatMap (·.batches)).eraseDups
  open_.foldl (fun s n =>
    let x := s.cluster c
    if x.batchReps.contains n ∨ ¬ cores.all (·.batchOver n) then s
    else s.setCluster c { x with batchReps := x.batchReps ++ [n], batchNo := n }) s

/-- END (R132): issue stops with the program counter at END; the core reports ENDED once its queues are empty. -/
def execEnd (core : Nat) (o : IssueObs) (s : State) : Next :=
  .next (s.issueWith .end_ core o fun s =>
    let c := s.core core
    let s := (s.setCore core { c with ending := true, st := .running, waits := .none }).bump .seqCore core Reg.SEQ_INSTRS 1
    let h := s.homeCluster core
    let x := s.cluster h
    let s := s.setCluster h { x with endedMask := x.endedMask ||| 2 ^ s.maskBit core }
    (s.reportBatches h).settle core)

/-- JUMP (R143). -/
def execJump (core : Nat) (o : IssueObs) (s : State) : Next :=
  .next (s.issueWith .jump core o fun s => s.seqDone core .ok (iImm (s.core core).word % 16384))

/-- LOOP (R143): a counter of 0 continues in sequence; otherwise it is decremented, and a new value other than 0 branches. -/
def execLoop (core : Nat) (o : IssueObs) (s : State) : Next :=
  .next (s.issueWith .loop core o fun s =>
    let c := s.core core
    let k := iFunc c.word % 4
    let n := nth 0 c.lc k
    let s := s.setCore core { c with lc := setNth c.lc k (n - 1) }
    s.seqDone core .ok (if 1 < n then iImm c.word % 16384 else c.pc + 1))

/-- SETLC (R143). -/
def execSetlc (core : Nat) (o : IssueObs) (s : State) : Next :=
  .next (s.issueWith .setlc core o fun s =>
    let c := s.core core
    let s := s.setCore core { c with lc := setNth c.lc (iFunc c.word % 4) (iImm c.word) }
    s.seqDone core .ok (c.pc + 1))

/-! ## Descriptors -/

/-- Entries from bytes, 32 bytes an entry, put into a working copy from entry `e`. -/
def loadEntries (work : Smap (BitVec 256)) (e : Nat) : List (List Byte) → Smap (BitVec 256)
  | [] => work
  | bs :: rest => loadEntries (Smap.set 0 work e (BitVec.ofNat 256 (ofLe bs))) (e + 1) rest

/-- A read by DLOAD: from the own tile store, with what its words' checks saw, or over the module address space. A double-bit
error in the own tile store delivers nothing (none): the core is fenced. -/
def State.loadRead (s : State) (i a n : Nat) (o : IssueObs) : Option (Status × List Byte) × State :=
  if ownRange i a n then
    let s := s.tsReads i ((n + a % 4 + 3) / 4) o.corrected o.double
    if o.double then (none, s) else (some (.ok, getBytes s.mem a n), s)
  else
    let r := s.busRead a n ⟨o.corrected, o.double⟩
    if s.reaches (coreDie i) (spaceDie a) then (some (r.1, r.2.1), r.2.2) else (some (r.1.join .unavailable, []), s)

/-- A sequencer instruction that ends non-OK for data at an address. -/
def State.seqFail (s : State) (i : Nat) (st : Status) (area : Bool) : State :=
  let c := s.core i
  let w := c.word
  let r := s.advance i (c.pc + 1)
  let st := if r.1 then st else st.join .malformed
  r.2.exception i 4 w c.pc (r.2.instrs i) st area

/-- DLOAD (R144): all or nothing. -/
def execDload (core : Nat) (o : IssueObs) (s : State) : Next :=
  .next (s.issueWith .dload core o fun s =>
    let c := s.core core
    let w := c.word
    let n := iImm w % 512
    match parseTensor s.govFormat (c.entryOf (iSrc0 w)) with
    | none => s.seqDone core .malformed (c.pc + 1)
    | some t =>
      if n = 0 ∨ 256 < n ∨ 256 < iDst w + n then s.seqDone core .malformed (c.pc + 1)
      else
        let r := s.loadRead core t.base (32 * n) o
        match r.1 with
        | none => r.2.fenceCore core csStore
        | some (st, bs) =>
          if st ≠ .ok then r.2.seqFail core st (s.keptArea t.base)
          else
            let c := r.2.core core
            (r.2.setCore core { c with work := loadEntries c.work (iDst w) (chunksOf 32 bs) }).seqDone core .ok (c.pc + 1))

/-- The new value of a field DSET adds to; none where the exact sum does not fit `w` bits (R145). -/
def dsetSum (w old imm : Nat) : Option Nat :=
  let v : Int := (old : Int) + toSigned 32 imm
  if v < 0 ∨ (2 ^ w : Nat) ≤ v then none else some v.toNat

/-- The entry after DSET; none where it is MALFORMED (R145). -/
def dsetEntry (func imm : Nat) (d : BitVec 256) : Option (BitVec 256) :=
  let k := dKind d
  let flat := k = 0 ∨ k = 2
  match func with
  | 0 => if flat then (dsetSum 49 (dfld d 0 48 0) imm).map fun v => dset d 0 48 0 v else none
  | 1 => if flat then (dsetSum 49 (dfld d 8 48 0) imm).map fun v => dset d 8 48 0 v else none
  | 2 => if k = 1 then (dsetSum 32 (dfld d 0 31 0) imm).map fun v => dset d 0 31 0 v else none
  | 3 => some (dset d 0x10 31 0 imm)
  | 4 => some (dset d 0x14 31 0 imm)
  | 5 => some (dset d 0x1A 15 0 (imm % 65536))
  | 6 => if k = 3 then (dsetSum 32 (dfld d 0 31 0) imm).map fun v => dset d 0 31 0 v else none
  | _ => none

/-- DSET (R145). -/
def execDset (core : Nat) (o : IssueObs) (s : State) : Next :=
  .next (s.issueWith .dset core o fun s =>
    let c := s.core core
    let w := c.word
    match dsetEntry (iFunc w) (iImm w) (c.entryOf (iDst w)) with
    | none => s.seqDone core .malformed (c.pc + 1)
    | some d => (s.setCore core { c with work := Smap.set 0 c.work (iDst w) d }).seqDone core .ok (c.pc + 1))

/-! ## Sync -/

/-- WAIT (R146): `issueWith` holds it until the token has the count, and the issue subtracts it. -/
def execWait (core : Nat) (o : IssueObs) (s : State) : Next :=
  .next (s.issueWith .wait core o fun s =>
    let c := s.core core
    s.seqDone core (if iImm c.word % 65536 = 0 then .malformed else .ok) (c.pc + 1))

/-- SIGNAL (R146): the signal leaves for its target; the instruction completes when the target acknowledges. -/
def execSignal (core : Nat) (o : IssueObs) (s : State) : Next :=
  .next (s.issueWith .signal core o fun s =>
    let c := s.core core
    let w := c.word
    if iImm w % 256 = 0 ∨ ¬ isCore (iCore w) then s.seqDone core .malformed (c.pc + 1)
    else
      let r := s.advance core (c.pc + 1)
      if ¬ r.1 then r.2.exception core 4 w c.pc (r.2.instrs core) .malformed false
      else
        let g : Sig := { src := core, target := iCore w, tok := iFunc w % 16, count := iImm w % 256
                         instr := some (w, c.pc, r.2.instrs core) }
        { r.2 with sigs := r.2.sigs ++ [g] }.bump .seqCore core Reg.SEQ_SIGNALS_SENT 1)

/-- Where a core's work has gone: through the spares that took it over, in turn (R489). -/
def State.seatOf (s : State) : Nat → Nat → Nat
  | 0, i => i
  | fuel + 1, i => match (s.core i).movedTo with
    | some j => s.seatOf fuel j
    | none => i

/-- The seat of a core; a cluster has twelve cores and borrows one. -/
def State.seat (s : State) (i : Nat) : Nat := s.seatOf 13 i

/-- A fenced core whose program a spare is to take over: what is addressed to it waits (R489). -/
def State.takeoverDue (s : State) (i : Nat) : Bool :=
  let c := s.core i
  c.fenced && ((s.takeovers.any fun t => decide (t.core = i)) || c.hasProg && (s.spareFor (s.homeCluster i)).isSome)

/-- How a signal fares at a core (R146), by the order of R13. -/
def State.signalStatus (s : State) (i : Nat) : Status :=
  if ¬ (s.core i).hasProg then .denied
  else if s.resettingCluster (s.homeCluster i) then .targetReset
  else if (s.core i).fenced then .unavailable
  else .ok

/-- The SIGNAL that sent a signal completes. -/
def State.signalDone (s : State) (g : Sig) (st : Status) : State :=
  let s := if st = .ok then s else
    (s.bump .seqCore g.src Reg.SEQ_SIGNALS_REFUSED 1).raise .seqCore g.src Reg.SEQ_EVENT 3
  match g.instr with
  | none => s
  | some (w, pc, seq) =>
    let i := s.seat g.src
    if st = .ok then (if iSignalEn w then s.addToken i (iSignal w) 1 else s)
    else s.exception i 4 w pc seq st false

/-- A signal acts at a core: the token takes the count, or the target is left unchanged. -/
def State.signalAt (s : State) (g : Sig) (i : Nat) : State :=
  let st := if s.ctlReaches (coreDie g.src) (coreDie i) then s.signalStatus i else .unavailable
  (if st = .ok then s.addToken i g.tok g.count else s).signalDone g st

/-- TOKEN_SIGNAL_ARRIVE (R130, R146, R489): the oldest signal of this source and target arrives. For a fenced core whose
takeover is due it waits in the cluster sequencer, 64 to a core; a full one holds the sender back. -/
def execTokenSignalArrive (src target : Nat) (s : State) : Next :=
  .next (match s.sigs.findIdx? fun g => decide (g.src = src ∧ g.target = target) with
  | none => s
  | some k =>
    match s.sigs[k]? with
    | none => s
    | some g =>
      let i := s.seat target
      let rest := { s with sigs := s.sigs.eraseIdx k }
      if s.takeoverDue i then
        let h := s.homeCluster i
        let x := s.cluster h
        if 64 ≤ (x.held.filter fun y => decide (y.target = i)).length then s
        else rest.setCluster h { x with held := x.held ++ [{ g with target := i }] }
      else rest.signalAt g i)

/-- A core waiting at a barrier passes it: the instruction issues and completes. -/
def State.passBarrier (s : State) (i : Nat) : State :=
  if (s.core i).waits = .barrier then s.seqDone i .ok ((s.core i).pc + 1) else s

/-- The sequencer's arrival at a cluster barrier (R147). -/
def State.arriveCluster (s : State) (i id : Nat) : State :=
  let h := s.homeCluster i
  let x := s.cluster h
  if x.barOpen ∧ x.barId ≠ id then s.seqDone i .malformed ((s.core i).pc + 1)
  else
    let mask := x.barArrived ||| 2 ^ s.maskBit i
    let s := s.setCore i { s.core i with st := .waiting, waits := .barrier }
    let prog := s.clusterProg h
    if prog.all fun j => mask.testBit (s.maskBit j) then
      let s := (s.setCluster h { x with barOpen := false, barId := 0, barArrived := 0 }).add .seqCluster h Reg.SEQ_CL_BARRIERS 1
      prog.foldl State.passBarrier s
    else s.setCluster h { x with barOpen := true, barId := id, barArrived := mask }

/-- The arrival at a region barrier (R147). A cluster outside every region of the Blend counts under number 256. Barriers of func 0 and of
func 1 are apart: R172's row on different imm compares those of one func, and SEQ_CL_STATUS and SEQ_CL_BARRIERS show cluster barriers
(DESIGN CHOICE, log entry 103). -/
def State.arriveRegion (s : State) (i id : Nat) : State :=
  let r := (s.coreRegion i).getD 256
  let x := s.region r
  if x.barOpen ∧ x.barId ≠ id then s.seqDone i .malformed ((s.core i).pc + 1)
  else
    let got := if x.barArrived.contains i then x.barArrived else x.barArrived ++ [i]
    let s := s.setCore i { s.core i with st := .waiting, waits := .barrier }
    let prog := s.regionProg i
    if prog.all got.contains then
      prog.foldl State.passBarrier (s.setRegion r { x with barOpen := false, barId := 0, barArrived := [] })
    else s.setRegion r { x with barOpen := true, barId := id, barArrived := got }

/-- BARRIER (R147). -/
def execBarrier (core : Nat) (o : IssueObs) (s : State) : Next :=
  .next (if (s.core core).waits = .barrier then s
  else s.issueWith .barrier core o fun s =>
    let c := s.core core
    let id := iImm c.word % 65536
    match iFunc c.word with
    | 0 => s.arriveCluster core id
    | 1 => s.arriveRegion core id
    | _ => s.seqDone core .malformed (c.pc + 1))

/-- DRAINU (R147): issues when every queue named in func[3:0] is empty. -/
def execDrainu (core : Nat) (o : IssueObs) (s : State) : Next :=
  .next (s.issueWith .drainu core o fun s =>
    let c := s.core core
    if (List.range 4).all fun q => !(iFunc c.word).testBit q || (nth [] c.queues q).isEmpty then
      s.seqDone core .ok (c.pc + 1)
    else s.setCore core { c with st := .waiting, waits := .drainu })

/-- BATCH (R148). -/
def execBatch (core : Nat) (o : IssueObs) (s : State) : Next :=
  .next (s.issueWith .batch core o fun s =>
    let c := s.core core
    let s := s.setCore core { c with batches := c.batches ++ [iImm c.word] }
    (s.seqDone core .ok (c.pc + 1)).reportBatches (s.homeCluster core))

/-- A cluster has reported the end of batch `n`, or every core of it has reached END. -/
def State.batchReported (s : State) (n c : Nat) : Bool :=
  (s.cluster c).batchReps.contains n || (s.clusterProg c).all fun i => (s.core i).ending

/-- The batch numbers that a cluster has reported and whose boundary has not been declared. -/
def Cluster.openBatches (x : Cluster) : List Nat := x.batchReps.filter fun n => !x.batchDecl.contains n

/-- BATCH_BOUNDARY (R148, R269): the boundary of a batch is declared once every cluster with a program has reported its number; a
version decision is then due at the next WREQ. -/
def execBatchBoundary (s : State) : Next :=
  .next (
    let cs := (s.programCores.map s.homeCluster).eraseDups
    let due := (cs.flatMap fun c => (s.cluster c).openBatches).find? fun n => cs.all (s.batchReported n)
    match (if s.job.st = .running then due else none) with
    | none => s
    | some n =>
      let s := cs.foldl (fun s c =>
        let x := s.cluster c
        s.setCluster c { x with batchDecl := x.batchDecl ++ [n] }) s
      { s with wts := { s.wts with open_ := true, between := true } })

/-! ## CHKRD -/

/-- The 64 bytes CHKRD writes (R168); none for a reserved func. -/
def State.chkrdBytes (s : State) (i func : Nat) : Option (List Byte) :=
  let c := s.core i
  match func with
  | 0 => some (((List.range 7).flatMap fun k => leBytes 8 (nth 0 c.checks k - nth 0 c.latch k)) ++ zeros 8)
  | 1 => some (leBytes 8 (s.peek .engCore i Reg.ENG_FAIL_LOC).toNat ++ leBytes 8 (s.peek .vecCore i Reg.VEC_FAIL_LOC).toNat ++
      leBytes 8 (s.peek .seqCore i Reg.SEQ_EXC).toNat ++ zeros 40)
  | 2 => some (leBytes 4 (bits32 s.freeIx c.amax).toNat ++ zeros 4 ++ leBytes 8 c.zeros ++ zeros 48)
  | _ => none

/-- CHKRD (R168). -/
def execChkrd (core : Nat) (o : IssueObs) (s : State) : Next :=
  .next (s.issueWith .chkrd core o fun s =>
    let c := s.core core
    let w := c.word
    match parseTensor s.govFormat (c.entryOf (iDst w)), s.chkrdBytes core (iFunc w) with
    | some t, some bs =>
      if ownRange core t.base 64 then
        let s := if iFunc w = 2 then s.useFree 1 else s
        (s.tsWrite core t.base bs).seqDone core .ok (c.pc + 1)
      else s.seqDone core .malformed (c.pc + 1)
    | _, _ => s.seqDone core .malformed (c.pc + 1))

/-! ## Reserved opcodes and waits that last too long -/

/-- RESERVED_OPCODE (R142): an opcode the map does not assign is MALFORMED. -/
def execReservedOpcode (core : Nat) (o : IssueObs) (s : State) : Next :=
  .next (
    let c := s.core core
    if ¬ s.canIssue core ∨ (Op.ofCode (iOpcode c.word)).isSome then s
    else if o.vote = .noMajority then (s.countVotes core 1 .noMajority).fenceCore core csVote
    else (s.countVotes core 1 o.vote).seqDone core .malformed (c.pc + 1))

/-- A core's wait is over by TIMEOUT (R131): the waiting instruction raises an exception at its program counter. It has not issued, so
SEQ_EXC gives source 4 and the present SEQ_INSTRS, which does not count it (DESIGN CHOICE, log entry 103). -/
def State.waitOver (s : State) (i : Nat) : State :=
  let c := s.core i
  s.raise .seqCore i Reg.SEQ_EVENT 1 |>.exception i 4 c.word c.pc (s.instrs i) .timeout false

end Sys2Proof.Machine
end

