-- ==== Sys2Proof/Machine/Rx.lean ====
section
/-! DEFINITION. The arrival of a message of the stream fabric (R345 to R350): the body rules of each type (R261, R351, R354,
R355), and the checks of R349. -/

namespace Sys2Proof.Machine

/-- Elements a chunk carries in a format, by width: bytes of a contribution, or of a partial (R354). -/
def rchunkBytes (format : Nat) (part : Bool) : Nat :=
  match format, part with
  | 0x9, false => 2048 | 0x9, true => 4096
  | 0xA, false => 4096 | 0xA, true => 6144
  | 0xB, false => 128 | 0xB, true => 2048
  | _, _ => 0

/-- The body of an RCHUNK obeys R354 and R294. A partial whose status is TIMEOUT or MALFORMED carries the head only. -/
def rchunkOk (st : Nat) (b : List Byte) : Bool :=
  let f := bitsAt b 0 3 0
  let part := decide (bitsAt b 0 4 4 = 1)
  let bare := part && (decide (st = Status.timeout.code) || decide (st = Status.malformed.code))
  decide (16 ≤ b.length) && decide (f = 0x9 ∨ f = 0xA ∨ f = 0xB) && decide (bitsAt b 0 7 6 ≠ 3) && decide (bitsAt b 1 7 3 = 0) &&
  decide (leAt b 5 1 = 0) && decide (leAt b 6 2 ≠ 65535) && decide (b.length = if bare then 16 else 16 + rchunkBytes f part)

/-- The 64-byte head of a weight message has its rsvd fields zero (R261). -/
def weightHeadOk (b : List Byte) : Bool := decide (64 ≤ b.length) && decide (leAt b 7 1 = 0) && allZero ((b.drop 0x14).take 12)

/-- Nibble `i` from byte `o` on. -/
def nibbleAt (b : List Byte) (o i : Nat) : Nat := leAt b (o + i / 2) 1 / 16 ^ (i % 2) % 16

/-- The body of a message obeys the rules of its type. -/
def bodyOk (m : Msg) : Bool :=
  let b := m.body
  let n := b.length
  let t := m.type.toNat
  if t = mHello then
    decide (n = 48) && decide (bitsAt b 0 7 4 = 0) && decide (leAt b 6 2 = 0) && allZero (b.drop 0x28)
  else if t = mCpl ∨ t = mJfenceDone ∨ t = mBack then decide (n = 0)
  else if t = mJfence then decide (n = 4) && decide (leAt b 2 2 = 0)
  else if t = mWget ∨ t = mWidx ∨ t = mWman ∨ t = mWack then weightHeadOk b && decide (n = 64)
  else if t = mWdata ∨ t = mWpush ∨ t = mWpub then weightHeadOk b && decide (n = 64 + leAt b 0x0C 4)
  else if t = mRchunk then rchunkOk m.status.toNat b
  else if t = mRresend then decide (n = 4) && decide (bitsAt b 0 7 3 = 0) && decide (leAt b 1 3 = 0) && decide (bitsAt b 0 1 0 = 1 ∨ bitsAt b 0 1 0 = 2)
  else if t = mRdone then
    let k := leAt b 0 4
    decide (8 ≤ n) && decide (1 ≤ k ∧ k ≤ 524208) && decide (leAt b 4 4 = 0) && decide (n = 8 + (k + 1) / 2) &&
      ((List.range k).all fun i => (Status.ofCode (nibbleAt b 8 i)).isSome)
  else if t = mGform then decide (n = 16) && decide (bitsAt b 0x0C 31 1 = 0)
  else if t = mBcopy then
    decide (16 ≤ n ∧ n ≤ 16 + 65536) && decide (bitsAt b 0 62 49 = 0) && decide (leAt b 0x0C 4 = 0)
  else false

/-- A message is well formed: its type, its header and its body (rows 1 and 2 of R349). -/
def msgOk (m : Msg) : Bool :=
  msgTypes.contains m.type.toNat && !m.rsvd && !(m.req && m.resp) && (m.req || m.resp || decide (m.tag = 0)) &&
  (Status.ofCode m.status.toNat).isSome && decide (m.length.toNat = m.body.length) && decide (32 + m.body.length ≤ 262144) &&
  bodyOk m

/-- Types that any module's port takes whatever its rank. -/
def rankFree (t : Nat) : Bool := [mHello, mJfence, mJfenceDone, mWpush, mGform].contains t

/-- A message dropped as MALFORMED. -/
def State.msgMalformed (s : State) (p : Nat) (m : Msg) : State :=
  ((s.bump .lnkPort p Reg.LNK_MALFORMED 1).raise .lnkPort p Reg.LNK_EVENT 11).cplTo p m .malformed

/-- A drop for a job that is not the port's; the record counts it (R349). -/
def State.foreignJob (s : State) (p : Nat) : State :=
  let t := (s.bump .lnkPort p Reg.LNK_FOREIGN_JOB 1).raise .lnkPort p Reg.LNK_EVENT 10
  { t with record := { t.record with
      foreign := satAdd 32 t.record.foreign 1, saturated := t.record.saturated || decide (2 ^ 32 ≤ t.record.foreign + 1) } }

/-- The state whose rules a message meets: a lane swap keeps those of the state it began in (R335). -/
def State.rxState (s : State) (p : Nat) : Nat := if s.portState p = psFast then (s.port p).fastFrom else s.portState p

/-- A message arrives on a port: R349 in order; one that no row stops is handled. -/
def State.arrive (s : State) (p : Nat) (m : Msg) (handle : State → State) : State :=
  let t := m.type.toNat
  let st := s.rxState p
  let base := [mHello, mJfence, mJfenceDone].contains t
  if st = psLinkUp ∨ st = psNoVersion ∨ st = psRoleMismatch then
    if t ≠ mHello then s.bump .lnkPort p Reg.LNK_ROLE_DENIED 1
    else if msgOk m then handle s else s.msgMalformed p m
  else if st ≠ psActive then s
  else if ¬ msgOk m then s.msgMalformed p m
  else if (m.job.toNat ≠ s.portJob p ∧ m.job ≠ 0) ∨ (m.job = 0 ∧ ¬ base) then s.foreignJob p
  else if ¬ roleAllows (s.portRole p) t ∨ (¬ s.topoMatch p ∧ ¬ base ∧ t ≠ mCpl) then
    (s.bump .lnkPort p Reg.LNK_ROLE_DENIED 1).cplTo p m .denied
  else if m.dst.toNat ≠ s.rfield .lnkPort p Reg.LNK_ROLE 47 32 ∧ ¬ rankFree t then s.bump .lnkPort p Reg.LNK_MISROUTED 1
  else handle s

end Sys2Proof.Machine

namespace Sys2Proof

/-- The status a message carries. -/
def Msg.st (m : Msg) : Status := (Status.ofCode m.status.toNat).getD .malformed

end Sys2Proof
end

