-- ==== Sys2Proof/Machine/Weights.lean ====
section
/-! DEFINITION. Weight packages and versions: the hashes of R254, the manifest (R255, R256), the heads of weight messages (R261),
the version pointers, staging (R268, R273), the fetch of a manifest, and the switch decision (R269). -/

namespace Sys2Proof.Machine

/-! ## Hashes of a package (R254) -/

/-- leaf(c): the content padded with zero bytes to 65,536. -/
def leafHash (content : List Byte) : List Byte := hashBytes (shake256 ((0 : Byte) :: padTo 65536 content))

def nodeHash (a b : List Byte) : List Byte := hashBytes (shake256 ((1 : Byte) :: (a ++ b)))

/-- One level up; an odd last entry is carried up unchanged. -/
def rootLevel : List (List Byte) → List (List Byte)
  | a :: b :: xs => nodeHash a b :: rootLevel xs
  | xs => xs

/-- root(list), in at most `fuel` levels. -/
def rootFuel : Nat → List (List Byte) → List Byte
  | 0, xs => xs.headD []
  | fuel + 1, xs => match xs with
    | [] => []
    | [a] => a
    | xs => rootFuel fuel (rootLevel xs)

/-- root of a list of hashes. -/
def rootHash (xs : List (List Byte)) : List Byte := rootFuel (Nat.log2 xs.length + 1) xs

/-! ## The manifest (R255, R256) -/

def manifestMagic : Nat := 0x57504B47

/-- The context of a package's signature, ASCII "CW1-WPK". -/
def packageContext : List Byte := [0x43, 0x57, 0x31, 0x2D, 0x57, 0x50, 0x4B]

/-- Layer record `i` of a manifest. -/
def layerRec (bs : List Byte) (i : Nat) : LayerRec :=
  let r := (bs.drop (0x7E0 + 48 * i)).take 48
  { layer := leAt r 0 2, kind := leAt r 2 2, count := leAt r 4 4, lastLen := leAt r 8 4, root := (r.drop 16).take 32 }

/-- The fields of a record are as laid down. -/
def layerRecOk (bs : List Byte) (i : Nat) : Bool :=
  let r := layerRec bs i
  decide (r.kind ≤ 2) && decide (1 ≤ r.count ∧ r.count ≤ 8388608) && decide (1 ≤ r.lastLen ∧ r.lastLen ≤ 65536) &&
  decide (leAt bs (0x7E0 + 48 * i + 12) 4 = 0)

/-- Records rise in (layer, kind). -/
def recsRise : List LayerRec → Bool
  | a :: b :: xs => decide (4 * a.layer + a.kind < 4 * b.layer + b.kind) && recsRise (b :: xs)
  | _ => true

/-- A manifest under R256: the manifest, or the reason of R282 for its refusal. `keys`: the valid publisher key hashes. -/
def readManifest (bs : List Byte) (version : Nat) (keys : List (List Byte)) : Except Nat Manifest :=
  let n := leAt bs 6 2
  let recs := (List.range n).map (layerRec bs)
  let key := (bs.drop 0x40).take 1952
  let root := (bs.drop 0x10).take 32
  if bs.length < 0x7E0 ∨ leAt bs 0 4 ≠ manifestMagic ∨ leAt bs 4 1 ≠ 1 ∨ leAt bs 5 1 ≠ 1 ∨ leAt bs 12 4 ≠ 0 ∨
     ¬ allZero ((bs.drop 0x30).take 16) ∨ n = 0 ∨ 4096 < n ∨ bs.length ≠ 0x7E0 + 48 * n + 3309 ∨ leAt bs 8 4 ≠ version ∨
     ¬ ((List.range n).all (layerRecOk bs)) ∨ ¬ recsRise recs then .error 1
  else if ¬ keys.contains (hashBytes (shake256 key)) then .error 2
  else if rootHash (recs.map (·.root)) ≠ root then .error 4
  else if ¬ Config.mldsaVerify key packageContext (bs.take (0x7E0 + 48 * n)) (bs.drop (0x7E0 + 48 * n)) then .error 3
  else .ok { version := version, slot := 0, root := root, recs := recs }

/-- The valid entries of INF_PUBKEY_HASH. -/
def State.publisherKeys (s : State) : List (List Byte) :=
  ((List.range 4).map fun i => s.hashReg .infMod (Reg.INF_PUBKEY_HASH + 32 * i)).filter fun h => !allZero h

/-- The entry of a layer in a manifest that a WREQ streams (R258): dense if there is one, otherwise the form the layout
names. -/
def Manifest.entryFor (m : Manifest) (layer : Nat) (colForm : Bool) : Option LayerRec :=
  let at_ (k : Nat) : Option LayerRec := m.recs.find? fun r => decide (r.layer = layer ∧ r.kind = k)
  match at_ 0 with
  | some r => some r
  | none => at_ (if colForm then 2 else 1)

/-! ## Messages (R261) -/

/-- The 64-byte head. -/
def weightHead (version layer tier attempt hop kind chunk length origin server : Nat) (leaf : List Byte) : List Byte :=
  leBytes 4 version ++ leBytes 2 layer ++ leBytes 1 (tier % 4 + 4 * (attempt % 4) + 16 * (hop % 4) + 64 * (kind % 4)) ++ zeros 1 ++
  leBytes 4 chunk ++ leBytes 4 length ++ leBytes 2 origin ++ leBytes 2 server ++ zeros 12 ++ padTo 32 leaf

def wVersion (b : List Byte) : Nat := leAt b 0 4
def wLayer (b : List Byte) : Nat := leAt b 4 2
def wHop (b : List Byte) : Nat := bitsAt b 6 5 4
def wKind (b : List Byte) : Nat := bitsAt b 6 7 6
def wChunk (b : List Byte) : Nat := leAt b 8 4
def wOrigin (b : List Byte) : Nat := leAt b 0x10 2

/-- The valid entries of an Infuser's server list: port and identifier (R284). -/
def State.servers (s : State) (p : Nat) : List (Nat × Nat) :=
  ((List.range 4).map fun i => s.peek .infPort p (Reg.INF_SERVER + 8 * i)).filterMap fun w =>
    if flag w 63 then some (fld w 51 48, fld w 15 0) else none

/-- Issue a request under a fresh tag: the tag, or none while the port has none free (R347). -/
def State.sendReq (s : State) (p type : Nat) (u : TagUse) (body : List Byte) : Option Nat × State :=
  let r := s.takeTag p u
  match r.1 with
  | none => (none, r.2)
  | some t => (some t, r.2.post p { r.2.newMsg p type body with req := true, tag := BitVec.ofNat 14 t })

def State.setInf (s : State) (p : Nat) (x : Inf) : State :=
  { s with wts := { s.wts with infs := Smap.set Inf.idle s.wts.infs p x } }

/-! ## Staging -/

/-- INF_STAGE.state and version. -/
def State.stageState (s : State) : Nat := s.rfield .infMod 0 Reg.INF_STAGE 63 62
def State.stagedVersion (s : State) : Nat := s.rfield .infMod 0 Reg.INF_STAGE 31 0

/-- The port whose Infuser fetches manifests. -/
def State.manifestPort (s : State) : Nat := s.rfield .infMod 0 Reg.INF_CTRL 31 28

/-- An event of version handling, latched at the Infuser that fetches manifests. -/
def State.stageEvent (s : State) (n : Nat) : State := s.raise .infPort s.manifestPort Reg.INF_EVENT n

def State.manifestOf (s : State) (v : Nat) : Option Manifest := s.wts.manifests.find? fun m => decide (m.version = v)

/-- The manifest store holds those of active, prior and a staged version that is READY (R267). -/
def State.pruneManifests (s : State) : State :=
  let used (m : Manifest) : Bool :=
    decide (s.wts.active = some m.version) || decide (s.wts.prior = some m.version) ||
    (decide (s.stageState = 2) && decide (s.stagedVersion = m.version))
  { s with wts := { s.wts with manifests := s.wts.manifests.filter used } }

/-- Write INF_STAGE, and the staged root while READY; the host hears of a change of state, and of a PENDING version
replaced (R282, R416). -/
def State.setStage (s : State) (st reason version : Nat) (root : List Byte) : State :=
  let old := s.stageState
  let w := mkWord [(st, 62), (reason, 56), (version, 0)]
  let s := s.poke .infMod 0 Reg.INF_STAGE w
  let s := (List.range 4).foldl (fun s k =>
    s.poke .infMod 0 (Reg.INF_STAGE_ROOT + 8 * k) (BitVec.ofNat 64 (leAt (if st = 2 then root else []) (8 * k) 8))) s
  let s := s.pruneManifests.keepPointers
  if old = st ∧ st ≠ 1 then s else s.hostEvent evStage (leBytes 8 w.toNat)

/-- Send WMAN for a fetch under way, to the next server in turn whose copy was not refused. -/
def State.sendMan (s : State) (f : ManFetch) : State :=
  let mp := s.manifestPort
  let es := s.servers mp
  let rest := s.wts.man.filter fun g => !decide (g.forActive = f.forActive)
  let keep (s : State) (f : ManFetch) : State := { s with wts := { s.wts with man := rest ++ [f] } }
  match (List.range es.length).find? fun j => !f.refused.testBit ((f.server + j) % es.length) with
  | none => keep s { f with tag := none }
  | some j =>
    let k := (f.server + j) % es.length
    match es[k]? with
    | none => keep s { f with tag := none }
    | some e =>
      let f := { f with server := k + 1, tag := none }
      if s.canSend e.1 mWman ≠ .ok then keep s f
      else
        let r := s.sendReq e.1 mWman .infuser (weightHead f.version 0 0 0 0 0 0 0 s.blend.rank e.2 [])
        keep r.2 { f with tag := r.1.map fun t => (e.1, t) }

/-- Begin to fetch a manifest: of the version staged, or of the active one. -/
def State.startMan (s : State) (version : Nat) (forActive : Bool) : State :=
  s.sendMan { version := version, forActive := forActive, server := 0, refused := 0, fails := 0, tag := none }

/-- A fetch is over: an answer to it finds no owner. Copies that failed count escalated, or recovered where another one passed (R53). -/
def State.endMan (s : State) (forActive passed : Bool) : State :=
  let n := (s.wts.man.filter fun g => decide (g.forActive = forActive)).foldl (fun a g => a + g.fails) 0
  let s : State := { s with wts := { s.wts with man := s.wts.man.filter fun g => !decide (g.forActive = forActive) } }
  if n = 0 then s else s.check cChunk 0 0 (if passed then n else 0) (if passed then 0 else n)

/-- A fetch is abandoned. -/
def State.dropMan (s : State) (forActive : Bool) : State := s.endMan forActive false

/-- A write of INF_STAGE (R268, R273, R282). A switch is one step here, so that no write meets one. -/
def State.wrStage (s : State) (v : Word) : Status × State :=
  if flag v 32 then (.ok, (s.dropMan false).setStage 0 0 s.stagedVersion [])
  else
    let n := fld v 31 0
    if s.wts.active = some n then (.denied, s)
    else (.ok, (((s.dropMan false).setStage 1 0 n []).startMan n false))

/-! ## The decision (R269) -/

/-- Prior is released when no WREQ accepted under it is unfinished (R270). -/
def State.releasePrior (s : State) : State :=
  match s.wts.prior with
  | none => s
  | some v =>
    if s.wts.infs.any fun e => e.2.reqs.any fun q => decide (q.version = v) then s
    else { s with wts := { s.wts with prior := none, priorRoot := zeros 32 } }.pruneManifests.keepPointers

/-- The switch: the staged version becomes active. -/
def State.switch (s : State) : State :=
  let staged := s.known kwStage (s.peek .infMod 0 Reg.INF_STAGE)
  let v := fld staged.1 31 0
  let s := staged.2
  let root := match s.manifestOf v with | some m => m.root | none => zeros 32
  let w := s.wts
  let s := { s with wts := { w with active := some v, activeRoot := root, prior := w.active, priorRoot := w.activeRoot } }
  ((s.setStage 0 0 v []).stageEvent 0).releasePrior

/-- The decision is made: WREQs are accepted under active. -/
def State.decided (s : State) : State := { s with wts := { s.wts with open_ := false, between := false, waitFrom := none } }

/-- A WREQ waits at some Infuser. -/
def State.anyWaiting (s : State) : Bool := s.wts.infs.any fun e => !e.2.waiting.isEmpty

/-- Every waiting WREQ completes UNAVAILABLE; the next one asks for a decision again (DEDUCED, log entry 35). -/
def State.failWaiting (s : State) : State :=
  let all := s.wts.infs.flatMap fun e => e.2.waiting
  let s := { s with wts := { s.wts with
    infs := (s.wts.infs.map fun e => (e.1, { e.2 with waiting := [] })).filter (fun e => !decide (e.2 = Inf.idle))
    waitFrom := none } }
  all.foldl (fun s q => s.retire q.core 3 .unavailable false) s

/-- A WREQ must wait for a decision: one is due, or active or its manifest is not there (R269, R515). -/
def State.decisionDue (s : State) : Bool :=
  s.wts.open_ || match s.wts.active with
    | none => true
    | some v => (s.manifestOf v).isNone

/-- The decision, as far as the staging state lets it be made. -/
def State.tryDecide (s : State) : State :=
  if ¬ s.anyWaiting then s
  else if ¬ s.decisionDue then s.decided
  else
    let s := if s.wts.waitFrom.isSome then s else { s with wts := { s.wts with waitFrom := some s.now } }
    match s.stageState with
    | 1 => s
    | 2 => if s.wts.prior.isSome then s else s.switch.decided
    | 3 => s.failWaiting
    | _ => match s.wts.active with
      | none => s
      | some v =>
        if (s.manifestOf v).isSome then s.decided
        else if s.wts.man.any (·.forActive) then s
        else s.startMan v true

/-! ## The answer to WMAN -/

/-- A copy is refused: on to the next server, or the fetch fails with the reason. -/
def State.manRefused (s : State) (f : ManFetch) (reason : Nat) : State :=
  let n := (s.servers s.manifestPort).length
  let f := { f with refused := f.refused ||| 2 ^ (f.server - 1), tag := none }
  if (List.range n).all f.refused.testBit then
    let s := s.dropMan f.forActive
    if f.forActive then s.failWaiting.stageEvent 10
    else (s.setStage 3 reason f.version []).stageEvent 2
  else s.sendMan f

/-- A copy that failed its signature counts in WEIGHT_CHUNK, and so does a reply of another version (R53, R270). -/
def State.manFailed (s : State) (f : ManFetch) : State :=
  ({ s with wts := { s.wts with man := s.wts.man.map fun g => if g.forActive = f.forActive then { g with fails := f.fails + 1 } else g } } :
    State).check cChunk 0 1 0 0

/-- A slot of the manifest store that no manifest in use takes. -/
def State.freeManifest (s : State) : Nat := ((List.range 3).find? fun k => !s.wts.manifests.any fun m => decide (m.slot = k)).getD 0

/-- An accepted manifest goes to its slot of the manifest store (R267); the parsed form stands beside it (log entry 83). -/
def State.storeManifest (s : State) (m : Manifest) (bs : List Byte) : State :=
  let s : State := { s with wts := { s.wts with manifests := s.wts.manifests.filter fun (x : Manifest) => !decide (x.version = m.version) } }
  let m := { m with slot := s.freeManifest }
  let s := (s.writeArea aManifest (0x40000 * m.slot) bs).2
  { s with wts := { s.wts with manifests := s.wts.manifests ++ [m] } }

/-- A manifest arrives (R256, R268, R515). -/
def State.manReply (s : State) (f : ManFetch) (b : List Byte) : State :=
  let r := if wVersion b ≠ f.version then Except.error 1 else readManifest (b.drop 64) f.version s.publisherKeys
  let s := match r with
    | .ok _ => s.verified true
    | .error n => if n = 3 then s.verified false else s
  match r with
  | .error reason =>
    if reason = 3 ∨ wVersion b ≠ f.version then (s.manFailed f).manRefused { f with fails := f.fails + 1 } reason
    else s.manRefused f reason
  | .ok m =>
    let s := (s.endMan f.forActive true).storeManifest m (b.drop 64)
    if f.forActive then State.keepPointers { s with wts := { s.wts with activeRoot := m.root } }
    else (s.setStage 2 0 f.version m.root).stageEvent 1

end Sys2Proof.Machine
end

