-- ==== Sys2Proof/Machine/Infuser.lean ====
section
/-! DEFINITION. The Infusers (R257 to R274): requests and their attempts, the resident cache, pass-on, verification against the
index, delivery over a tree into the rings, cancelled requests, and the chunks of a PUBLISH. -/

namespace Sys2Proof.Machine

/-! ## The parts of an Infuser -/

/-- Two entries of a chunk buffer are the same request. -/
def InfChunk.same (a b : InfChunk) : Bool := decide (a.core = b.core ∧ a.seq = b.seq ∧ a.what = b.what)

/-- Hold `c` in place of the entry of the same request. -/
def State.setChunk (s : State) (p : Nat) (c : InfChunk) : State :=
  let x := s.inf p
  s.setInf p { x with chunks := x.chunks.map fun d => if d.same c then c else d }

/-- The WREQ an entry belongs to. -/
def State.reqOf (s : State) (p : Nat) (c : InfChunk) : Option InfReq :=
  (s.inf p).reqs.find? fun q => decide (q.core = c.core ∧ q.seq = c.seq)

/-- An accepted WREQ changed. -/
def State.setReq (s : State) (p : Nat) (q : InfReq) : State :=
  let x := s.inf p
  s.setInf p { x with reqs := x.reqs.map fun r => if r.core = q.core ∧ r.seq = q.seq then q else r }

/-- Drop entries of a chunk buffer: hash failures of theirs that nothing will recover are escalated (R52, R274). -/
def State.dropChunks (s : State) (p : Nat) (f : InfChunk → Bool) : State :=
  let x := s.inf p
  let fails := ((x.chunks.filter f).map (·.fails)).sum
  (if fails = 0 then s else s.check cChunk 0 0 0 fails).setInf p { x with chunks := x.chunks.filter fun c => !f c }

/-- Drop the accepted WREQs that satisfy `f` with what they have in the buffer; a reply to a request of theirs finds no owner. -/
def State.dropReqs (s : State) (p : Nat) (f : InfReq → Bool) : State :=
  let gone := (s.inf p).reqs.filter f
  let s := s.dropChunks p fun c => gone.any fun q => decide (q.core = c.core ∧ q.seq = c.seq)
  let x := s.inf p
  s.setInf p { x with reqs := x.reqs.filter fun q => !f q }

/-- Drop one accepted WREQ. -/
def State.dropReq (s : State) (p core seq : Nat) : State :=
  (s.dropReqs p fun q => decide (q.core = core ∧ q.seq = seq)).releasePrior

/-- Cancel the WREQs that satisfy `f`, waiting or accepted (R273). -/
def State.cancelWreqs (s : State) (f : InfReq → Bool) : State :=
  s.wts.infs.foldl (fun s e =>
    let s := s.dropReqs e.1 f
    let x := s.inf e.1
    s.setInf e.1 { x with waiting := x.waiting.filter fun q => !f q }) s |>.releasePrior

/-- The number a page has in an index store: 0 the page-root list, p + 1 index page p. -/
def Fetch.page? : Fetch → Option Nat
  | .chunk _ => none
  | .page p => some (p + 1)
  | .roots => some 0

/-- The page-root list or an index page that the store holds. -/
def Inf.indexOf (x : Inf) (version layer kind page : Nat) : Option (List Byte) :=
  (x.index.find? fun i => decide (i.version = version ∧ i.layer = layer ∧ i.kind = kind ∧ i.page = page)).map (·.bytes)

/-- The store with a list or page added: two lists and 112 pages, the oldest given up (R259). -/
def Inf.addIndex (x : Inf) (i : IndexPage) : Inf :=
  let all := x.index ++ [i]
  let same := all.filter fun j => decide (j.page = 0) == decide (i.page = 0)
  if same.length ≤ (if i.page = 0 then 2 else 112) then { x with index := all }
  else match same with
    | [] => x
    | old :: _ => { x with index := all.erase old }

/-! ## The resident cache (R263) -/

def State.cacheEntries (s : State) (p : Nat) : Nat := s.rfield .infPort p Reg.INF_CACHE_CHUNKS 31 0

/-- The address of the entry of chunk `n` of layer `l`. -/
def State.cacheAt (s : State) (p l n : Nat) : Nat :=
  s.rfield .infPort p Reg.INF_CACHE_BASE 48 0 + 65600 * (((l * 0x9E3779B9 + n) % 2 ^ 32) % s.cacheEntries p)

/-- The 64-byte tag of an entry. -/
def cacheTag (version layer kind chunk length : Nat) : List Byte :=
  leBytes 4 version ++ leBytes 2 layer ++ leBytes 1 (kind + 128) ++ zeros 1 ++ leBytes 4 chunk ++ leBytes 4 length ++ zeros 48

/-- A tag block names this chunk, with a length that a chunk can have. -/
def cacheHit (c : InfChunk) (n : Nat) (tag : List Byte) : Bool :=
  let len := leAt tag 12 4
  decide (tag = cacheTag c.version c.layer c.kind n len) && decide (0 < len) && decide (len ≤ 65536)

/-- Read the cache entry at `a`: the content, where its tag is this chunk's. -/
def State.cacheRead (s : State) (a : Nat) (c : InfChunk) (n : Nat) : Option (List Byte) × State :=
  let r := s.memRead a 64
  if r.1 = .ok ∧ cacheHit c n r.2.1 then
    let q := r.2.2.memRead (a + 64) (leAt r.2.1 12 4)
    if q.1 = .ok then (some q.2.1, q.2.2) else (none, q.2.2)
  else (none, r.2.2)

/-- Look a chunk up: its content on a hit. -/
def State.cacheLook (s : State) (p : Nat) (c : InfChunk) (n : Nat) : Option (List Byte) × State :=
  s.cacheRead (s.cacheAt p c.layer n) c n

/-! ## Requests and attempts (R259, R262, R274) -/

/-- The server entry an attempt goes to: the first from entry k mod v whose port is in service. -/
def State.serverFor (s : State) (p type k : Nat) : Option (Nat × Nat) :=
  let es := s.servers p
  (List.range es.length).findSome? fun j => match es[(k + j) % es.length]? with
    | some e => if s.canSend e.1 type = .unavailable then none else some e
    | none => none

def fetchId : Fetch → Nat
  | .chunk c => c
  | .page p => p
  | .roots => 0xFFFFFFFF

/-- The attempt from `k` on that a server takes: one whose partner has not set the type in its message set completes with VERSION, and
the next goes at once (R274, R350). At most `fuel` attempts. -/
def State.attemptFor (s : State) (p type : Nat) : Nat → Nat → Option (Nat × Nat × Nat)
  | 0, _ => none
  | fuel + 1, k => match s.serverFor p type k with
    | none => none
    | some e => if s.canSend e.1 type = .ok then some (k, e) else s.attemptFor p type fuel (k + 1)

/-- Send the next attempt of a request. Answers the entry as it then stands, or none where no attempt is left or no server can
be reached. Without a free tag the request waits. -/
def State.sendAttempt (s : State) (p : Nat) (c : InfChunk) : Option InfChunk × State :=
  let t := match c.what with | .chunk _ => mWget | _ => mWidx
  match s.attemptFor p t (4 - c.attempt) c.attempt with
    | none => (none, s)
    | some (k, e) =>
      let c := { c with attempt := k }
      let head := weightHead c.version c.layer c.tier c.attempt 0 c.kind (fetchId c.what) 0 s.blend.rank e.2 []
      let r := s.sendReq e.1 t .infuser head
      match r.1 with
      | none => (some { c with tag := none, follow := false }, r.2)
      | some tag =>
        let s := if c.attempt = 0 then r.2 else r.2.bump .infPort p Reg.INF_REREQUESTS 1
        (some { c with tag := some (e.1, tag), follow := false, attempt := c.attempt + 1 }, s)

/-- The first chunk of a WREQ that a lost chunk, page or list leaves undelivered. -/
def State.firstLost (s : State) (p : Nat) (q : InfReq) (what : Fetch) : Nat :=
  let from_ := q.strm.chunkFirst + q.done
  let here (n : Nat) : Bool := (s.inf p).chunks.any fun c =>
    decide (c.core = q.core ∧ c.seq = q.seq ∧ c.what = .chunk n) && c.content.isSome
  let unverified (lo : Nat) : Nat :=
    let lo := max lo from_
    ((List.range (q.strm.chunkFirst + q.asked - lo)).map (lo + ·)).find? (fun n => !here n) |>.getD lo
  match what with
  | .chunk n => n
  | .page g => unverified (1024 * g)
  | .roots => unverified 0

/-- The status of a chunk that is lost: VERSION where no request for it could be sent because no server takes the type, otherwise
UNAVAILABLE (R274, R350). -/
def State.lostStatus (s : State) (p : Nat) (c : InfChunk) : Status :=
  let t := match c.what with | .chunk _ => mWget | _ => mWidx
  if c.attempt = 0 ∧ (s.serverFor p t 0).isSome then .version else .unavailable

/-- A chunk ends UNAVAILABLE (R274): later chunks of the WREQ are not delivered, and the issuing core raises an exception. -/
def State.chunkLost (s : State) (p : Nat) (c : InfChunk) : State :=
  match s.reqOf p c with
  | none => s
  | some q =>
    let cut := s.firstLost p q c.what
    let gone (d : InfChunk) : Bool :=
      decide (d.core = c.core ∧ d.seq = c.seq) &&
        (d.same c || match d.what with | .chunk n => decide (cut ≤ n) | _ => false)
    let s := ((s.dropChunks p gone).bump .infPort p Reg.INF_UNAVAILABLE 1).raise .infPort p Reg.INF_EVENT 4
    let n := cut - q.strm.chunkFirst
    let st := s.lostStatus p c
    let q := { q with strm := { q.strm with chunkCount := n }, asked := min q.asked n }
    let s := if n ≤ q.done then s.dropReq p q.core q.seq else s.setReq p q
    s.exception (s.seat q.core) 3 q.word q.pc q.seq st false

/-- The next attempt of a request, at once. -/
def State.nextAttempt (s : State) (p : Nat) (c : InfChunk) : State :=
  let r := s.sendAttempt p { c with tag := none, arrived := none }
  match r.1 with
  | some d => r.2.setChunk p d
  | none => (r.2.setChunk p { c with tag := none, arrived := none }).chunkLost p c

/-! ## Verification (R257) -/

/-- Content bytes a request must bring. -/
def LayerRec.lengthOf (r : LayerRec) : Fetch → Nat
  | .chunk n => if n + 1 = r.count then r.lastLen else 65536
  | .page g => 32 * min 1024 (r.count - 1024 * g)
  | .roots => 32 * ((r.count + 1023) / 1024)

/-- Whether the content passes; none while the index it needs is not there. -/
def State.verdictOf (s : State) (p : Nat) (c : InfChunk) (q : InfReq) (bs : List Byte) : Option Bool :=
  let x := s.inf p
  let sized := decide (bs.length = q.entry.lengthOf c.what)
  match c.what with
  | .roots => some (sized && decide (rootHash (chunksOf 32 bs) = q.entry.root))
  | .page g => (x.indexOf c.version c.layer c.kind 0).map fun l =>
      sized && decide (rootHash (chunksOf 32 bs) = (l.drop (32 * g)).take 32)
  | .chunk n => (x.indexOf c.version c.layer c.kind (n / 1024 + 1)).map fun l =>
      sized && decide (leafHash bs = (l.drop (32 * (n % 1024))).take 32)

/-- Content fails its hash. -/
def State.hashFail (s : State) (p : Nat) (c : InfChunk) : State :=
  let isChunk := match c.what with | .chunk _ => true | _ => false
  let s := (s.check cChunk 1 1 0 0).bump .infPort p Reg.INF_CHUNKS_HASHED 1
  let s := if isChunk then (s.bump .infPort p Reg.INF_HASH_FAILS 1).raise .infPort p Reg.INF_EVENT 5
    else (s.bump .infPort p Reg.INF_INDEX_FAILS 1).raise .infPort p Reg.INF_EVENT 6
  let s := if c.source = 2 then
      let n := fetchId c.what
      ((s.memWrite (s.cacheAt p c.layer n) (zeros 64)).2).raise .infPort p Reg.INF_EVENT 9
    else if c.source = 1 then (s.bump .infPort p Reg.INF_PUSH_DROPS 1).raise .infPort p Reg.INF_EVENT 7
    else s
  let c := { c with fails := c.fails + 1, arrived := none }
  if c.tag.isSome then s.setChunk p c else s.nextAttempt p c

/-- Pass a verified chunk on: WPUSH out of each port of the push mask, with hop one higher; hop 3 goes no further (R264). -/
def State.pushOn (s : State) (p : Nat) (c : InfChunk) (bs : List Byte) : State :=
  let hop := if c.source = 1 then c.hop + 1 else 1
  let origin := if c.source = 1 then c.origin else s.blend.rank
  if 3 < hop then s
  else (below 16 (s.peek .infPort p Reg.INF_PASSON).toNat.testBit).foldl (fun s q =>
    if s.canSend q mWpush ≠ .ok then s
    else
      let head := weightHead c.version c.layer 0 0 hop c.kind (fetchId c.what) bs.length origin 0 []
      (s.post q (s.newMsg q mWpush (head ++ bs))).bump .infPort p Reg.INF_PUSHES_SENT 1) s

/-- Content passes: a chunk is kept for delivery, cached and pushed on; a page or list enters the index store. -/
def State.hashPass (s : State) (p : Nat) (c : InfChunk) (bs : List Byte) : State :=
  let s := (s.check cChunk 1 0 c.fails 0).bump .infPort p Reg.INF_CHUNKS_HASHED 1
  match c.what.page? with
  | some k =>
    let x := s.inf p
    let x := { x with chunks := x.chunks.filter fun d => !d.same c }
    s.setInf p (x.addIndex { version := c.version, layer := c.layer, kind := c.kind, page := k, bytes := bs })
  | none =>
    let n := fetchId c.what
    let s := s.setChunk p { c with arrived := none, content := some bs, tag := none, follow := false, fails := 0 }
    let s := if c.source = 2 then s.bump .infPort p Reg.INF_CACHE_HITS 1
      else if c.source = 1 then s.bump .infPort p Reg.INF_PUSHES_USED 1 else s
    let s := if c.tier = 0 ∧ c.source ≠ 2 ∧ 0 < s.cacheEntries p then
        (s.memWrite (s.cacheAt p c.layer n) (cacheTag c.version c.layer c.kind n bs.length ++ bs)).2
      else s
    s.pushOn p c bs

/-- Verify what has arrived and can be verified, at most `fuel` contents. -/
def State.verifyAll (s : State) (p : Nat) : Nat → State
  | 0 => s
  | fuel + 1 =>
    let ready := (s.inf p).chunks.findSome? fun c => match c.arrived, s.reqOf p c with
      | some bs, some q => (s.verdictOf p c q bs).map fun v => (c, bs, v)
      | _, _ => none
    match ready with
    | none => s
    | some (c, bs, v) => (if v then s.hashPass p c bs else s.hashFail p c).verifyAll p fuel

/-- Verify after an arrival. -/
def State.verify (s : State) (p : Nat) : State := s.verifyAll p ((s.inf p).chunks.length + 1)

/-! ## New requests -/

/-- A held push of the chunk, if there is one. -/
def State.takePush (s : State) (p : Nat) (c : InfChunk) (n : Nat) : Option HeldPush × State :=
  let x := s.inf p
  let match? (h : HeldPush) : Bool := decide (h.version = c.version ∧ h.layer = c.layer ∧ h.kind = c.kind ∧ h.chunk = n)
  match x.pushes.find? match? with
  | none => (none, s)
  | some h => (some h, s.setInf p { x with pushes := x.pushes.erase h })

/-- Begin a request: its buffer place is taken. A chunk comes from the cache, from a push, or from a server. -/
def State.begin_ (s : State) (p : Nat) (c : InfChunk) : State :=
  let x := s.inf p
  let s := s.setInf p { x with chunks := x.chunks ++ [c] }
  match c.what with
  | .chunk n =>
    let look := decide (c.tier = 0) && decide (0 < s.cacheEntries p)
    let r := if look then s.cacheLook p c n else (none, s)
    match r.1 with
    | some bs => (r.2.setChunk p { c with arrived := some bs, source := 2 }).verify p
    | none =>
      let s := if look then r.2.bump .infPort p Reg.INF_CACHE_MISSES 1 else r.2
      let h := s.takePush p c n
      match h.1 with
      | some u => (h.2.setChunk p { c with arrived := some u.content, source := 1, hop := u.hop, origin := u.origin }).verify p
      | none =>
        if h.2.rflag .infPort p Reg.INF_PASSON 63 then h.2.setChunk p { c with follow := true } else h.2.nextAttempt p c
  | _ => s.nextAttempt p c

/-- Places of the chunk buffer in use. -/
def Inf.places (x : Inf) : Nat := x.chunks.length + x.pushes.length

/-- A request of a WREQ as it begins. -/
def InfReq.chunk (q : InfReq) (what : Fetch) : InfChunk :=
  { core := q.core, seq := q.seq, what := what, version := q.version, layer := q.entry.layer, kind := q.entry.kind
    tier := q.strm.tier, attempt := 0, tag := none, follow := false, fails := 0, arrived := none, source := 0, content := none
    hop := 0, origin := 0 }

/-- The WREQ that requests now: the first with a chunk left to request (R259). -/
def Inf.asking (x : Inf) : Option InfReq := x.reqs.find? fun q => decide (q.asked < q.strm.chunkCount)

/-- Lists and pages that the WREQs need, and that are neither held nor being fetched. -/
def Inf.indexWanted (x : Inf) : List (InfReq × Fetch) :=
  x.reqs.flatMap fun q =>
    let open_ := x.chunks.filterMap fun c =>
      if c.core = q.core ∧ c.seq = q.seq ∧ c.content.isNone then
        (match c.what with | .chunk n => some (n / 1024) | .page g => some g | .roots => none) else none
    let next := if x.asking = some q ∧ q.asked < q.done + q.strm.lead then [(q.strm.chunkFirst + q.asked) / 1024] else []
    let pages := ((open_ ++ next).eraseDups).filter fun g => (x.indexOf q.version q.entry.layer q.entry.kind (g + 1)).isNone
    let all := if pages.isEmpty then [] else
      (if (x.indexOf q.version q.entry.layer q.entry.kind 0).isSome then [] else [Fetch.roots]) ++ pages.map Fetch.page
    (all.filter fun f => !x.chunks.any fun c =>
      decide (c.version = q.version ∧ c.layer = q.entry.layer ∧ c.kind = q.entry.kind ∧ c.what = f)).map fun f => (q, f)

/-- A request waits for a free tag. -/
def InfChunk.tagless (c : InfChunk) : Bool := c.tag.isNone && !c.follow && c.arrived.isNone && c.content.isNone

/-- WGET at one Infuser: requests that waited for a tag go first, then the list and pages needed, then the next chunk within
the lead while a buffer place is free (R259). -/
def State.wget (s : State) (p : Nat) : State :=
  let s := ((s.inf p).chunks.filter (·.tagless)).foldl (fun s c => s.nextAttempt p c) s
  let s := (s.inf p).indexWanted.foldl (fun s f => if (s.inf p).places < 256 then s.begin_ p (f.1.chunk f.2) else s) s
  match (s.inf p).asking with
  | none => s
  | some q =>
    if q.done + q.strm.lead ≤ q.asked ∨ 256 ≤ (s.inf p).places then s
    else (s.setReq p { q with asked := q.asked + 1 }).begin_ p (q.chunk (.chunk (q.strm.chunkFirst + q.asked)))

/-! ## Delivery (R260) -/

/-- A leaf is being taken over: deliveries to the tree are held (R260, R489). -/
def State.leafHeld (s : State) (i : Nat) : Bool := s.takeoverDue i || s.takeovers.any fun t => decide (t.spare = i)

/-- The verified chunk that is next in order for the WREQ being served, with every receiving core's slot released. -/
def State.nextDelivery (s : State) (p : Nat) : Option (InfReq × List Byte) :=
  match (s.inf p).reqs with
  | [] => none
  | q :: _ =>
    let n := q.strm.chunkFirst + q.done
    let c := (s.inf p).chunks.find? fun c => decide (c.core = q.core ∧ c.seq = q.seq ∧ c.what = .chunk n)
    match c.bind (·.content) with
    | none => none
    | some bs =>
      if s.ringRoom p q && !(s.treeCores q.strm.tree p).any s.leafHeld then some (q, bs) else none

/-- A version is consumed in the window of its first delivery (R272). -/
def State.consumed (s : State) (v : Nat) : State :=
  if s.record.versions.any fun x => decide (x.1 = v) then s
  else
    let root := if s.wts.active = some v then s.wts.activeRoot else s.wts.priorRoot
    { s with record := { s.record with versions := s.record.versions ++ [(v, root)] } }

/-- A leaf takes no part in a transfer: a core that is fenced, for which its crossbar acknowledges (R110), or that is not powered. -/
def State.leafSkipped (s : State) (x : Nat) : Bool := decide (x < 16384) && !s.receives x

/-- One leaf's copy lands: in a core's ring, where its token is signalled (R151), or at a memory controller. A fenced core is
skipped (R110). -/
def State.land (s : State) (p : Nat) (q : InfReq) (bs : List Byte) (x : Nat) : State :=
  let offset := 65536 * (q.strm.destSlot + q.done % q.strm.ringSlots)
  if 16384 ≤ x then { s with out := s.out ++ [.leafCopy (leafDie x) offset bs] }
  else if (s.core x).fenced then s.add .topDie (coreDie x) Reg.TOP_RTR_MCAST_SKIPS 1
  else if ¬ s.receives x then s
  else
    let s := s.tsWrite x (tileBase x + offset) bs
    let c := s.core x
    (s.setCore x { c with ringHeld := c.ringHeld ++ [(p, q.strm.destSlot, q.core, q.seq)] }).addToken x q.tok 1

/-- How serving a leaf ends when `n` of its copies fail CRC-32C in a row: two unicast retries follow a copy that failed or did not
come (R110, R122), on a route that is left (R112). `root`: the die of the Infuser. -/
def State.leafEnd (s : State) (root n : Nat) (x : Nat × Bool) : Status :=
  if s.leafSkipped x.1 then .ok
  else if ¬ x.2 ∧ ¬ s.reaches root (leafDie x.1) then .unavailable
  else if n + b2n (!x.2) ≤ 2 then .ok else .checkFail

/-- A chunk of `n` bytes as DMA transfers of at most 255 flits (R106). -/
def chunkTransfers (n : Nat) : Nat := ((n + 63) / 64 + 254) / 255

/-- CHUNK_DELIVER at one Infuser. `fails`: how many copies in a row fail CRC-32C at a leaf. A chunk that some leaf does not get ends
its WREQ: the issuing core raises an exception with the transfer's status, and no later chunk is delivered (DEDUCED, log entry 91). -/
def State.deliverNext (s : State) (p : Nat) (fails : List (Nat × Nat)) : State :=
  match s.nextDelivery p with
  | none => s
  | some (q, bs) =>
    let tree := s.treeLeaves q.strm.tree 64 true (portDie p)
    let ends := tree.1.map fun x => (x.1, s.leafEnd (portDie p) (Smap.get 0 fails x.1) x)
    let st := ends.foldl (fun st x => st.join x.2) Status.ok
    let again := (ends.filter fun x => decide (x.2 = .ok ∧ 0 < Smap.get 0 fails x.1) && !s.leafSkipped x.1).length
    let lost := b2n (decide (st = .checkFail))
    let s := tree.2.foldl (fun s d => s.add .topDie d Reg.TOP_RTR_MCAST_DROPS ((bs.length + 63) / 64)) s
    let s := (s.check cDma (chunkTransfers bs.length) (again + lost) again lost).lostEnd
      (fun f => decide (f.1 = treeSource (portDie p) q.strm.tree)) (decide (st = .ok))
    let s := (ends.filter fun x => decide (x.2 = .ok)).foldl (fun s x => s.land p q bs x.1) s
    if st ≠ .ok then (s.dropReq p q.core q.seq).exception (s.seat q.core) 3 q.word q.pc q.seq st false
    else
      let s := (s.bump .infPort p Reg.INF_CHUNKS_DELIVERED 1).consumed q.version
      let n := q.strm.chunkFirst + q.done
      let x := s.inf p
      let s := s.setInf p { x with chunks := x.chunks.filter fun c => !decide (c.core = q.core ∧ c.seq = q.seq ∧ c.what = .chunk n) }
      if q.strm.chunkCount ≤ q.done + 1 then s.dropReq p q.core q.seq else s.setReq p { q with done := q.done + 1 }

/-- WDONE (R151): slots of this core's ring released, oldest first; more than are occupied is MALFORMED. -/
def State.wdone (s : State) (i : Nat) (t : Stream) (n : Nat) : Status × State :=
  let c := s.core i
  let mine (h : Nat × Nat × Nat × Nat) : Bool := decide (h.1 = t.port ∧ h.2.1 = t.destSlot)
  let held := c.ringHeld.filter mine
  if held.length < n then (.malformed, s)
  else
    let s := s.setCore i { c with ringHeld := held.drop n ++ c.ringHeld.filter fun h => !mine h }
    (.ok, (held.take n).foldl (fun s h =>
      match (s.inf t.port).reqs.find? fun q => decide (q.core = h.2.2.1 ∧ q.seq = h.2.2.2) with
      | none => s
      | some q => s.setReq t.port { q with released := Smap.set 0 q.released i (Smap.get 0 q.released i + 1) }) s)

/-! ## Replies -/

/-- The chunk a tag of a port belongs to, with its Infuser. -/
def State.chunkOfTag (s : State) (p tag : Nat) : Option (Nat × InfChunk) :=
  s.wts.infs.findSome? fun e => (e.2.chunks.find? fun c => decide (c.tag = some (p, tag))).map fun c => (e.1, c)

def State.manOfTag (s : State) (p tag : Nat) : Option ManFetch := s.wts.man.find? fun f => decide (f.tag = some (p, tag))

def State.pubOfTag (s : State) (p tag : Nat) : Option Wpub := s.wts.pubs.find? fun w => decide (w.tag = some (p, tag))

/-- WDATA for a chunk, page or list (R274): another version, layer, kind, chunk or length is a hash failure. -/
def State.chunkReply (s : State) (inf : Nat) (c : InfChunk) (b : List Byte) : State :=
  let c := { c with tag := none, source := 0 }
  let same := decide (wVersion b = c.version ∧ wLayer b = c.layer ∧ wKind b = c.kind ∧ wChunk b = fetchId c.what)
  if same then (s.setChunk inf { c with arrived := some (b.drop 64) }).verify inf else s.hashFail inf c

/-- A request of the Infusers or a WPUB ended without an answer (TIMEOUT), or with a status that is not OK: of a chunk, the
next attempt goes at once; of a manifest, the retry waits for MANIFEST_RETRY. -/
def State.fetchFailed (s : State) (p tag : Nat) (timedOut : Bool) : State :=
  match s.chunkOfTag p tag with
  | some (inf, c) =>
    let s := if timedOut then s.bump .infPort inf Reg.INF_TIMEOUTS 1 else s
    if c.arrived.isSome then s.setChunk inf { c with tag := none } else s.nextAttempt inf c
  | none => match s.manOfTag p tag with
    | some f => { s with wts := { s.wts with man := s.wts.man.map fun g => if g = f then { g with tag := none } else g } }
    | none => s

/-! ## PUBLISH (R271) -/

/-- Send a WPUB to its next server: OK when it is sent or waits for a tag, UNAVAILABLE when its four tries are over, VERSION when
the partner does not take the type (R350). -/
def State.sendPub (s : State) (w : Wpub) : Nat → Status × Wpub × State
  | 0 => (.unavailable, w, s)
  | fuel + 1 =>
    let es := s.servers w.inf
    if 4 ≤ w.tries then (.unavailable, w, s)
    else match es[w.server % es.length]? with
      | none => (.unavailable, w, s)
      | some e =>
        let next := { w with server := w.server + 1, tries := w.tries + 1, tag := none }
        match s.canSend e.1 mWpub with
        | .ok =>
          let head := weightHead w.version w.layer 0 w.tries 0 w.kind w.chunk w.body.length s.blend.rank e.2 (leafHash w.body)
          let r := s.sendReq e.1 mWpub .infuser (head ++ w.body)
          match r.1 with
          | none => (.ok, { w with tag := none }, r.2)
          | some t => (.ok, { next with tag := some (e.1, t) }, r.2)
        | .version => (.version, w, s)
        | _ => s.sendPub next fuel

/-- The WPUBs of one PUBLISH. -/
def Wpub.of (w : Wpub) (core seq : Nat) : Bool := decide (w.core = core ∧ w.seq = seq)

/-- A PUBLISH is over: its WPUBs are forgotten and it completes. -/
def State.endPublish (s : State) (core seq : Nat) (st : Status) : State :=
  let s := { s with wts := { s.wts with pubs := s.wts.pubs.filter fun w => !w.of core seq } }
  let i := s.seat core
  match s.headOf i 3 with
  | some e => if e.seq = seq ∧ iOpcode e.word = 0x16 then s.retire i 3 st false else s
  | none => s

/-- Send a WPUB of those held, and keep what became of it. -/
def State.pushPub (s : State) (w : Wpub) : State :=
  let r := s.sendPub w 5
  let put (x : Wpub) : Wpub := if x.of w.core w.seq && decide (x.chunk = w.chunk) then r.2.1 else x
  if r.1 = .ok then { r.2.2 with wts := { r.2.2.wts with pubs := r.2.2.wts.pubs.map put } }
  else r.2.2.endPublish w.core w.seq r.1

/-- WPUBs that wait for a tag. -/
def State.pumpPubs (s : State) : State := (s.wts.pubs.filter fun w => w.tag.isNone).foldl State.pushPub s

/-- A server acknowledges a WPUB OK (R271, R272). -/
def State.pubAcked (s : State) (w : Wpub) : State :=
  let left := s.wts.pubs.filter fun x => !(x.of w.core w.seq && decide (x.chunk = w.chunk))
  let s := s.bump .infPort w.inf Reg.INF_PUBLISHED 1
  let s := if s.wts.firstPub.isSome then s else
    { s with wts := { s.wts with firstPub := some w.version }, record := { s.record with published := w.version } }
  let s := { s with wts := { s.wts with pubs := left } }
  if left.any (fun x => x.of w.core w.seq) then s else s.endPublish w.core w.seq .ok

/-- The bytes of a block record (R217) for block `k` of a tensor of block values: scales, padding, elements. -/
def State.blockRecord (s : State) (t : Tensor) (k : Nat) : List Byte :=
  let row (r : Nat) : List Byte := leBytes (4 * t.fmt.bits)
    (((List.range 32).map fun c => s.elemBits t (32 * k + r) c).foldr (fun e a => e + 2 ^ t.fmt.bits * a) 0)
  let elems := (List.range 32).flatMap row
  if t.fmt.isMx then (List.range 32).map (fun r => s.byteAt (t.scaleAddr (32 * k + r) 0)) ++ zeros 32 ++ elems else elems

/-- A PUBLISH of sparse block values that R271 allows. -/
def sparsePublishOk (t : Tensor) (imm : Nat) : Bool :=
  decide (t.rows % 32 = 0) && decide (t.cols = 32) && !t.colMajor && !t.blockDir1 && decide (t.fmt ≠ .fp32) &&
  decide (imm * 64 % blockStride t.fmt = 0)

/-- What PUBLISH checks at issue (R151, R271). -/
def publishCheck (s : State) (_ : Nat) (w : BitVec 128) (d : List (BitVec 256)) : Status :=
  match parseTensor s.govFormat (nth 0 d 1) with
  | none => .malformed
  | some t =>
    let k := bitsOf (iFunc w) 5 4
    firstStatus [(decide (2 ≤ k), .malformed), (decide (k = 1) && !sparsePublishOk t (iImm w), .malformed),
      (decide (s.portRole (iFunc w % 16) ≠ 2), .denied)]

/-- The bytes a PUBLISH sends, read from the module address space. -/
def State.publishBytes (s : State) (w : BitVec 128) (t : Tensor) : Status × List Byte × State :=
  let lines := (if t.colMajor then t.cols else t.rows) * t.pitch
  let r := s.busRead t.base lines StoreObs.clean
  if r.1 ≠ .ok then (r.1, [], r.2.2)
  else
    let q := if t.fmt.isMx then r.2.2.busRead t.scaleBase t.scaleCount StoreObs.clean else (.ok, [], r.2.2)
    if q.1 ≠ .ok then (q.1, [], q.2.2)
    else if bitsOf (iFunc w) 5 4 = 1 then (.ok, (List.range (t.rows / 32)).flatMap (q.2.2.blockRecord t), q.2.2)
    else (.ok, r.2.1 ++ q.2.1, q.2.2)

/-- PUBLISH begins at the head of the stream queue: its chunks are sent under the staging version. -/
def State.startPublish (s : State) (i : Nat) (e : QEntry) : State :=
  match parseTensor s.govFormat (nth 0 e.d 1) with
  | none => s.retire i 3 .malformed false
  | some t =>
    if s.stageState = 0 ∨ s.stageState = 3 then s.retire i 3 .denied false
    else
      let r := s.publishBytes e.word t
      let cs := chunksOf 65536 r.2.1
      if r.1 ≠ .ok then r.2.2.retire i 3 r.1 (s.keptArea t.base)
      else if 2 ^ 32 < iImm e.word + cs.length then r.2.2.retire i 3 .malformed false
      else
        let s := r.2.2
        let kind := if bitsOf (iFunc e.word) 5 4 = 1 then 3 else 0
        let pubs := cs.zipIdx.map fun x =>
          ({ core := i, seq := e.seq, inf := iFunc e.word % 16, server := 0, tries := 0, tag := none, version := s.stagedVersion
             layer := t.layer, kind := kind, chunk := iImm e.word + x.2, body := x.1 } : Wpub)
        pubs.foldl State.pushPub { s with wts := { s.wts with pubs := s.wts.pubs ++ pubs } }

/-! ## WREQ -/

/-- What WREQ checks at issue (R151, R258). -/
def wreqCheck (s : State) (_ : Nat) (_ : BitVec 128) (d : List (BitVec 256)) : Status :=
  match parseStream s.govFormat (nth 0 d 1) with
  | none => .malformed
  | some t => firstStatus [(decide (t.lead = 0), .malformed), (decide (s.portRole t.port ≠ 2), .denied)]

/-- A WREQ reaches the Infuser of its port. -/
def State.startWreq (s : State) (i : Nat) (e : QEntry) : State :=
  match parseStream s.govFormat (nth 0 e.d 1) with
  | none => s.retire i 3 .malformed false
  | some t =>
    let x := s.inf t.port
    let q : InfReq :=
      { core := i, seq := e.seq, word := e.word, pc := e.pc, strm := { t with lead := min t.lead 256 }, tok := iImm e.word % 16
        version := 0, entry := { layer := 0, kind := 0, count := 0, lastLen := 0, root := [] }, asked := 0, done := 0, released := [] }
    s.setInf t.port { x with waiting := x.waiting ++ [q] }

/-- The Infuser of a port accepts its oldest waiting WREQ, or ends it MALFORMED (R258). -/
def State.acceptWreq (s : State) (p : Nat) : State :=
  let x := s.inf p
  match x.waiting, s.wts.active with
  | q :: rest, some v =>
    if s.decisionDue ∨ 16 ≤ x.reqs.length then s
    else
      let s := s.setInf p { x with waiting := rest }
      match (s.manifestOf v).bind fun m => m.entryFor q.strm.layer q.strm.colForm with
      | none => s.retire q.core 3 .malformed false
      | some r =>
        if r.count < q.strm.chunkFirst + q.strm.chunkCount then s.retire q.core 3 .malformed false
        else
          let y := s.inf p
          (s.setInf p { y with reqs := y.reqs ++ [{ q with version := v, entry := r }] }).retire q.core 3 .ok false
  | _, _ => s

end Sys2Proof.Machine
end

