-- ==== Sys2Proof/Machine/VecFn.lean ====
section
/-! DEFINITION. The functions of the vector unit (R157 to R161), element by element and row by row, on exact values. The
functions whose accuracy is stated as a bound in units of last place are computed far beyond FP32, and a free value picks the result
within the bound (R158, R161): the spec does not say which value inside it appears. -/

namespace Sys2Proof.Machine

/-- floor(√n), the result below 2^(fuel). -/
def isqrt : Nat → Nat → Nat → Nat
  | 0, _, r => r
  | b + 1, n, r =>
    let t := r + 2 ^ b
    isqrt b n (if t * t ≤ n then t else r)

/-- m × 2^e with the dropped rest marked in the lowest bit, so that one rounding follows. -/
def sticky (q : Nat) (rest : Bool) (e : Int) : FVal := .fin false (2 * q + b2n rest) (e - 1)

/-- √x for a positive x, unrounded. -/
def sqrtMag (m : Nat) (e : Int) : FVal :=
  let sh : Nat := 200 - 2 * (Nat.log2 m / 2)
  let sh := if (e - sh) % 2 = 0 then sh else sh + 1
  let n := m <<< sh
  let r := isqrt 130 n 0
  sticky r (decide (r * r ≠ n)) ((e - sh) / 2)

/-- x / y for positive magnitudes, unrounded. -/
def divMag (m : Nat) (e : Int) (n : Nat) (f : Int) : FVal :=
  let sh := 96 + Nat.log2 n
  let a := m <<< sh
  sticky (a / n) (decide (a % n ≠ 0)) (e - sh - f)

/-- x / y in FP32, y finite and not zero. -/
def fdiv : FVal → FVal → FVal
  | .fin s m e, .fin t n f =>
    if n = 0 then .nan
    else if m = 0 then .fin (s != t) 0 0
    else match r32 (divMag m e n f) with
      | .fin _ q u => .fin (s != t) q u
      | .inf _ => .inf (s != t)
      | v => v
  | _, _ => .nan

/-- 1 / √x for a positive x, unrounded. -/
def rsqrtMag (m : Nat) (e : Int) : FVal :=
  let e0 := if e % 2 = 0 then e else e - 1
  let m0 := if e % 2 = 0 then m else 2 * m
  let sh := 240 + 2 * (Nat.log2 m0 / 2)
  let n := 2 ^ sh / m0
  let r := isqrt 140 n 0
  sticky r true (-(e0 / 2) - (sh / 2 : Nat))

/-- Fraction bits of the fixed-point series. -/
def fxBits : Nat := 160

/-- ln 2 in fixed point. -/
def fxLn2 : Nat := 0xb17217f7d1cf79abc9e3b39803f2f6af40f34326

/-- m × 2^e in fixed point. -/
def toFx (m : Nat) (e : Int) : Nat :=
  let k := e + fxBits
  if 0 ≤ k then m <<< k.toNat else m >>> (-k).toNat

/-- e^r − 1 as a series from its `i`-th term, r in fixed point below 1. -/
def expTerms : Nat → Nat → Nat → Nat → Nat
  | 0, _, _, _ => 0
  | fuel + 1, i, r, t => t + expTerms fuel (i + 1) r ((t * r) >>> fxBits / (i + 1))

/-- e^x for x = ± m × 2^e below 2^8 in magnitude: a fixed-point mantissa in [1, 2) and its power of two. -/
def expParts (neg : Bool) (m : Nat) (e : Int) : Nat × Int :=
  let x := toFx m e
  let (k, r) : Int × Nat :=
    if neg then
      let q := x / fxLn2 + 1
      (-(q : Int), q * fxLn2 - x)
    else ((x / fxLn2 : Nat), x % fxLn2)
  (2 ^ fxBits + expTerms 60 1 r r, k)

/-- e^x, unrounded. -/
def expFin (neg : Bool) (m : Nat) (e : Int) : FVal :=
  if m = 0 then .fin false 1 0
  else if magLt 300 0 m e then (if neg then fzero else .inf false)
  else
    let (t, k) := expParts neg m e
    .fin false t (k - fxBits)

/-- 2 × atanh z as a series, z in fixed point. -/
def atanhTerms : Nat → Nat → Nat → Nat → Nat
  | 0, _, _, _ => 0
  | fuel + 1, i, z2, t => 2 * t / (2 * i + 1) + atanhTerms fuel (i + 1) z2 ((t * z2) >>> fxBits)

/-- ln x for a positive x, unrounded. -/
def logMag (m : Nat) (e : Int) : FVal :=
  let l := Nat.log2 m
  let f := toFx m (-(l : Int))
  let (f, k) : Nat × Int := if 2 * f > 3 * 2 ^ fxBits then (f / 2, e + l + 1) else (f, e + l)
  let one := 2 ^ fxBits
  let neg := decide (f < one)
  let d := if neg then one - f else f - one
  let z := (d <<< fxBits) / (f + one)
  let s := atanhTerms 60 0 ((z * z) >>> fxBits) z
  let total : Int := k * (fxLn2 : Nat) + (if neg then -(s : Int) else s)
  .fin (decide (total < 0)) total.natAbs (-(fxBits : Nat))

/-- 1 / (1 + e^−x), unrounded. -/
def sigmoidFin (neg : Bool) (m : Nat) (e : Int) : FVal :=
  if magLt 200 0 m e then (if neg then fzero else .fin false 1 0)
  else
    let (t, k) := if m = 0 then (2 ^ fxBits, 0) else expParts true m e
    let d := 2 ^ fxBits + t >>> (-k).toNat
    if neg then .fin false ((t <<< fxBits) / d) (k - fxBits)
    else .fin false ((2 ^ fxBits <<< fxBits) / d) (-(fxBits : Nat))

/-- tanh x, unrounded: of a small x, x − x³/3. -/
def tanhFin (neg : Bool) (m : Nat) (e : Int) : FVal :=
  if magLt m e 1 (-14) then
    FVal.addX (.fin neg m e) (.fin (!neg) ((m * m * m <<< 160) / 3) (3 * e - 160))
  else if magLt 100 0 m e then .fin neg 1 0
  else
    let (t, k) := expParts true m (e + 1)
    let y := t >>> (-k).toNat
    let one := 2 ^ fxBits
    .fin neg (((one - y) <<< fxBits) / (one + y)) (-(fxBits : Nat))

/-- A magnitude with a sign. -/
def FVal.signed (s : Bool) : FVal → FVal
  | .fin _ m e => .fin s m e
  | .inf _ => .inf s
  | .nan => .nan

/-- The FP32 result of a function whose value is `x`: any FP32 value at most `b` units of last place from it. A free value `fr` names
one of the neighbours of the nearest; one beyond the bound gives the nearest itself. -/
def within (b fr : Nat) (x : FVal) : FVal :=
  let r := r32 x
  match r, x with
  | .fin s _ _, .fin _ m e =>
    let n : Int := ((bits32 0 r.abs).toNat : Int) + ((Config.freeValue fr % (4 * b + 1) : Nat) : Int) - (2 * b : Nat)
    let y := (val32 (BitVec.ofNat 32 (min (max n 0) 0x7F800000).toNat)).signed s
    match y.addX x.neg with
    | .fin _ dm de => if magLt b (roundPlace m e 23 (-149)) dm de then r else y
    | _ => r
  | _, _ => r

/-- A result the spec does not state: any FP32 value (free value `fr`). -/
def freeVal (fr : Nat) : FVal := val32 (BitVec.ofNat 32 (Config.freeValue fr))

/-- VFN of R158, at one element. Operands for which the function has no real value, and operands that are not finite, have
no stated result, but for RELU, LRELU and SQRELU, which are exact or one FP32 operation. -/
def vfn (func : Nat) (imm : FVal) (fr : Nat) (x : FVal) : FVal :=
  match func with
  | 0 => fmax x fzero
  | 1 => if (fzero).lt x then x else fmul imm x
  | 5 => let y := fmax x fzero; fmul y y
  | 2 => match x with | .fin s m e => within 4 fr (sigmoidFin s m e) | _ => freeVal fr
  | 3 => match x with | .fin s m e => within 4 fr (tanhFin s m e) | _ => freeVal fr
  | 4 => match x with | .fin s m e => within 2 fr (expFin s m e) | _ => freeVal fr
  | 6 => match x with
    | .fin s m e => if m = 0 then freeVal fr else within 2 fr ((divMag 1 0 m e).signed s)
    | _ => freeVal fr
  | 7 => match x with
    | .fin s m e => if m = 0 || s then freeVal fr else within 2 fr (rsqrtMag m e)
    | _ => freeVal fr
  | 8 => match x with
    | .fin s m e => if m = 0 then .fin s 0 0 else if s then freeVal fr else within 2 fr (sqrtMag m e)
    | _ => freeVal fr
  | _ => match x with
    | .fin s m e => if m = 0 || s then freeVal fr else within 2 fr (logMag m e)
    | _ => freeVal fr

/-- VOP of R157, at one element. -/
def vop (func : Nat) (imm x y z : FVal) : FVal :=
  match func with
  | 0 => fadd x y
  | 1 => fsub x y
  | 2 => fmul x y
  | 3 => ffma x y z
  | 4 => fmax x y
  | 5 => fmin x y
  | 6 => fmul x imm
  | 7 => ffma imm x y
  | _ => x.abs

/-- The functions whose NaN results are the quiet NaN 0x7FC0_0000 (R157). -/
def quietNan (isVop : Bool) (func : Nat) : Bool :=
  if isVop then decide (func = 4 ∨ func = 5) else decide (func = 0 ∨ func = 5)

/-- f′ of R160 from the saved output y. -/
def dfoPrime (func : Nat) (imm : FVal) (fr : Nat) (y : FVal) : FVal :=
  let one : FVal := .fin false 1 0
  match func with
  | 0 => if fzero.lt y then one else fzero
  | 1 => if fzero.lt y then one else imm
  | 2 => fmul y (fsub one y)
  | 3 => fsub one (fmul y y)
  | 4 => y
  | _ => (vfn 8 fzero fr y).scale 1

/-- The mean of values whose tree sum is given. -/
def fmean (sum : FVal) (n : Nat) : FVal := if sum.isFin then fdiv sum (.fin false n 0) else sum

/-- One row of SOFTMAX (R159): imm·x, its maximum, the exponentials, their tree sum, and the quotient as reciprocal and
product (DEDUCED, log entry 8). -/
def softmaxRow (imm : FVal) (fr : Nat) (xs : List FVal) : List FVal :=
  let t := xs.map (fmul imm)
  let m := (t.tail).foldl fmax (t.headD fzero)
  let es := t.zipIdx.map fun p => vfn 4 fzero (fr + p.2) (fsub p.1 m)
  let r := vfn 6 fzero (fr + xs.length) (treeSum es)
  es.map fun e => fmul e r

/-- One row of NORM (R159). -/
def normRow (func : Nat) (eps : FVal) (fr : Nat) (xs g b : List FVal) : List FVal :=
  let n := xs.length
  let mean := fmean (treeSum xs) n
  let xs := if func = 0 then xs else xs.map fun x => fsub x mean
  let q := fmean (treeSum (xs.map fun x => fmul x x)) n
  let r := vfn 7 fzero fr (fadd q eps)
  let ys := (xs.zip g).map fun p => fmul (fmul p.1 r) p.2
  if func = 0 then ys else (ys.zip b).map fun p => fadd p.1 p.2

/-- One row of DSOFTMAX (R160). -/
def dsoftmaxRow (ys ds : List FVal) : List FVal :=
  let s := treeSum ((ds.zip ys).map fun p => fmul p.1 p.2)
  (ys.zip ds).map fun p => fmul p.1 (fsub p.2 s)

/-- VRED of one run of elements: func 0 and 3 sum, 1 maximum, 2 sum of squares (R159). -/
def vredRun (func : Nat) (xs : List FVal) : FVal :=
  match func with
  | 1 => (xs.tail).foldl fmax (xs.headD fzero)
  | 2 => treeSum (xs.map fun x => fmul x x)
  | _ => treeSum xs

/-- The parameter record of R162, as values. -/
structure OptParams where
  lr : FVal
  beta1 : FVal
  omb1 : FVal
  beta2 : FVal
  omb2 : FVal
  eps : FVal
  wd : FVal
  c1 : FVal
  c2 : FVal
  gscale : FVal
  mu : FVal
deriving DecidableEq, Repr

/-- The record in 64 bytes (R162); none if a rsvd byte is not zero. -/
def optParams (bs : List Byte) : Option OptParams :=
  let f (o : Nat) : FVal := val32 (BitVec.ofNat 32 (leAt bs o 4))
  if !allZero ((bs.drop 0x2C).take 20) then none
  else some { lr := f 0, beta1 := f 4, omb1 := f 8, beta2 := f 0xC, omb2 := f 0x10, eps := f 0x14, wd := f 0x18
              c1 := f 0x1C, c2 := f 0x20, gscale := f 0x24, mu := f 0x28 }

/-- ADAMW at one element: the new w, m and v (R161). -/
def adamwElem (p : OptParams) (fr : Nat) (w m v grad : FVal) : FVal × FVal × FVal :=
  let g := fmul grad p.gscale
  let m1 := ffma p.beta1 m (fmul p.omb1 g)
  let v1 := ffma p.beta2 v (fmul (fmul p.omb2 g) g)
  let d := fadd (vfn 8 fzero fr (fmul v1 p.c2)) p.eps
  let u := fmul (fmul m1 p.c1) (vfn 6 fzero (fr + 1) d)
  (fsub w (fmul p.lr (ffma p.wd w u)), m1, v1)

/-- SGDM at one element: the new w and m (R161). -/
def sgdmElem (p : OptParams) (w m grad : FVal) : FVal × FVal :=
  let g := fmul grad p.gscale
  let m1 := ffma p.mu m g
  (fsub w (fmul p.lr (ffma p.wd w m1)), m1)

end Sys2Proof.Machine
end

