-- ==== Sys2Proof/Machine/Vector.lean ====
section
/-! DEFINITION. The vector queue (R97 to R99, R156 to R162, R165): issue of the vector instructions, their results, and the
check of their beats. -/

namespace Sys2Proof.Machine

/-! ## Checks at issue (R140, R156 to R162) -/

/-- An operand has the shape of dst, or is a row or column vector broadcast across it (R156); a single element is broadcast both ways
(DESIGN CHOICE, log entry 97). -/
def bcastOk (t x : Tensor) : Bool :=
  (decide (x.rows = t.rows) || decide (x.rows = 1)) && (decide (x.cols = t.cols) || decide (x.cols = 1))

/-- An operand has exactly the shape of dst. -/
def sameShape (t x : Tensor) : Bool := decide (x.rows = t.rows) && decide (x.cols = t.cols)

/-- Operand `k` is a tensor of core `i`'s own tile store that satisfies `p`. -/
def ownOp (s : State) (i : Nat) (d : List (BitVec 256)) (k : Nat) (p : Tensor → Bool) : Bool :=
  match s.tensorAt d k with
  | some x => x.own i && p x
  | none => false

/-- dst is a tensor of the own tile store that satisfies `p`; with acc it must be FP32 (R157). -/
def dstOk (s : State) (i : Nat) (w : BitVec 128) (d : List (BitVec 256)) (p : Tensor → Bool) : Status :=
  wellFormed (ownOp s i d 0 fun t => (!iAcc w || decide (t.fmt = .fp32)) && p t)

def vopCheck (s : State) (i : Nat) (w : BitVec 128) (d : List (BitVec 256)) : Status :=
  let u := usesOf .vop w
  dstOk s i w d fun t => decide (iFunc w ≤ 8) && ownOp s i d 1 (sameShape t) && (!u.src1 || ownOp s i d 2 (bcastOk t)) &&
    (!u.src2 || ownOp s i d 3 (bcastOk t))

def vcvtCheck (s : State) (i : Nat) (w : BitVec 128) (d : List (BitVec 256)) : Status :=
  dstOk s i w d fun t => ownOp s i d 1 (sameShape t)

def vfnCheck (s : State) (i : Nat) (w : BitVec 128) (d : List (BitVec 256)) : Status :=
  dstOk s i w d fun t => decide (iFunc w ≤ 9) && ownOp s i d 1 (sameShape t)

def vredCheck (s : State) (i : Nat) (w : BitVec 128) (d : List (BitVec 256)) : Status :=
  dstOk s i w d fun t => decide (iFunc w ≤ 3) && ownOp s i d 1 fun x =>
    if iFunc w = 3 then decide (t.rows = 1) && decide (t.cols = x.cols) else decide (t.cols = 1) && decide (t.rows = x.rows)

def softmaxCheck (s : State) (i : Nat) (w : BitVec 128) (d : List (BitVec 256)) : Status :=
  dstOk s i w d fun t => ownOp s i d 1 (sameShape t)

def normCheck (s : State) (i : Nat) (w : BitVec 128) (d : List (BitVec 256)) : Status :=
  dstOk s i w d fun t => decide (iFunc w ≤ 1) && ownOp s i d 1 (sameShape t) && ownOp s i d 2 (bcastOk t) &&
    (decide (iFunc w = 0) || ownOp s i d 3 (bcastOk t))

def dfoCheck (s : State) (i : Nat) (w : BitVec 128) (d : List (BitVec 256)) : Status :=
  dstOk s i w d fun t => decide (iFunc w ≤ 5) && ownOp s i d 1 (sameShape t) && ownOp s i d 2 (bcastOk t)

def dsoftmaxCheck (s : State) (i : Nat) (w : BitVec 128) (d : List (BitVec 256)) : Status :=
  dstOk s i w d fun t => ownOp s i d 1 (sameShape t) && ownOp s i d 2 (bcastOk t)

/-- Values of a state per gradient element: w, m and v of ADAMW, w and m of SGDM (R161). -/
def stateWidth (w : BitVec 128) : Nat := if iOpcode w = 0x3C then 3 else 2

/-- ADAMW and SGDM (R161, R162). -/
def optCheck (s : State) (i : Nat) (w : BitVec 128) (d : List (BitVec 256)) : Status :=
  match s.tensorAt d 2, s.tensorAt d 3 with
  | some g, some r =>
    let state (t : Tensor) : Bool := decide (t.fmt = .fp32) && decide (t.rows = g.rows) && decide (t.cols = stateWidth w * g.cols)
    wellFormed (g.own i && decide (g.fmt = .fp32) && ownOp s i d 0 state && ownOp s i d 1 state && ownRange i r.base 64 &&
      (!flag w 72 || ownOp s i d 4 (sameShape g)) && (optParams (getBytes s.mem r.base 64)).isSome)
  | _, _ => .malformed

/-- Elements VRS sends (R165). -/
def vrsCount (w : BitVec 128) (x : Tensor) : Nat := if iFunc w = 1 then x.cols else x.count

/-- VRS (R165). -/
def vrsCheck (s : State) (i : Nat) (w : BitVec 128) (d : List (BitVec 256)) : Status :=
  match parseShard (nth 0 d 0), s.tensorAt d 1 with
  | some y, some x =>
    wellFormed (decide (iFunc w ≤ 1) && decide (x.fmt = .fp32) && x.own i && decide (y.cols = x.cols) &&
      decide (y.rows = if iFunc w = 1 then 1 else x.rows) && s.shardOk y ((vrsCount w x + 1023) / 1024))
  | _, _ => .malformed

/-! ## Issue -/

/-- VOP (R157). -/
def execVop (core : Nat) (o : IssueObs) (s : State) : Next := .next (s.issueQ .vop vopCheck core o)
/-- VCVT (R157). -/
def execVcvt (core : Nat) (o : IssueObs) (s : State) : Next := .next (s.issueQ .vcvt vcvtCheck core o)
/-- VFN (R158). -/
def execVfn (core : Nat) (o : IssueObs) (s : State) : Next := .next (s.issueQ .vfn vfnCheck core o)
/-- VRED (R159). -/
def execVred (core : Nat) (o : IssueObs) (s : State) : Next := .next (s.issueQ .vred vredCheck core o)
/-- SOFTMAX (R159). -/
def execSoftmax (core : Nat) (o : IssueObs) (s : State) : Next := .next (s.issueQ .softmax softmaxCheck core o)
/-- NORM (R159). -/
def execNorm (core : Nat) (o : IssueObs) (s : State) : Next := .next (s.issueQ .norm normCheck core o)
/-- DFO (R160). -/
def execDfo (core : Nat) (o : IssueObs) (s : State) : Next := .next (s.issueQ .dfo dfoCheck core o)
/-- DSOFTMAX (R160). -/
def execDsoftmax (core : Nat) (o : IssueObs) (s : State) : Next := .next (s.issueQ .dsoftmax dsoftmaxCheck core o)
/-- ADAMW (R161). -/
def execAdamw (core : Nat) (o : IssueObs) (s : State) : Next := .next (s.issueQ .adamw optCheck core o)
/-- SGDM (R161). -/
def execSgdm (core : Nat) (o : IssueObs) (s : State) : Next := .next (s.issueQ .sgdm optCheck core o)
/-- VRS (R165). -/
def execVrs (core : Nat) (o : IssueObs) (s : State) : Next := .next (s.issueQ .vrs vrsCheck core o)

/-! ## Results -/

/-- Element (r, c) of an operand, broadcast where it is a vector. -/
def State.bcast (s : State) (x : Tensor) (r c : Nat) : FVal :=
  s.elem x (if x.rows = 1 then 0 else r) (if x.cols = 1 then 0 else c)

/-- Row `r` of an operand, broadcast to `n` columns. -/
def State.rowVals (s : State) (x : Tensor) (n r : Nat) : List FVal := (List.range n).map (s.bcast x r)

/-- A blank tensor, in place of an operand an instruction has not. -/
def Tensor.nil : Tensor :=
  { base := 0, notifyCore := 0, notifyEn := false, notifyTok := 0, scaleBase := 0, rows := 0, cols := 0, fmt := .fp32
    colMajor := false, blockDir1 := false, layer := 0, pitch := 0 }

/-- The FP32 results of a vector instruction, row by row of dst; of an optimizer instruction, the new state. `fr`: the first of
its free values, element by element. -/
def State.vecResults (s : State) (e : QEntry) (t : Tensor) (fr : Nat) : List FVal :=
  let w := e.word
  let op (k : Nat) : Tensor := (s.tensorAt e.d k).getD Tensor.nil
  let x := op 1
  let y := op 2
  let z := op 3
  let imm := val32 (BitVec.ofNat 32 (iImm w))
  let cells := (List.range t.rows).flatMap fun r => (List.range t.cols).map fun c => (r, c)
  let each (f : Nat → Nat → Nat → FVal) : List FVal :=
    cells.map fun p =>
      let v := f (fr + p.1 * t.cols + p.2) p.1 p.2
      if iAcc w then fadd (s.elem t p.1 p.2) v else v
  let rows (f : Nat → List FVal) : List FVal := (List.range t.rows).flatMap f
  match Op.ofCode (iOpcode w) with
  | some .vop => each fun _ r c => vop (iFunc w) imm (s.elem x r c) (s.bcast y r c) (s.bcast z r c)
  | some .vcvt => each fun _ r c => s.elem x r c
  | some .vfn => each fun k r c => vfn (iFunc w) imm k (s.elem x r c)
  | some .vred =>
    if iFunc w = 3 then
      (List.range t.cols).map fun c => vredRun 3 ((List.range x.rows).map fun r => s.elem x r c)
    else rows fun r => [vredRun (iFunc w) (s.rowVals x x.cols r)]
  | some .softmax => rows fun r => softmaxRow imm (fr + r * (t.cols + 1)) (s.rowVals x t.cols r)
  | some .norm => rows fun r =>
      normRow (iFunc w) imm (fr + r) (s.rowVals x t.cols r) (s.rowVals y t.cols r) (s.rowVals z t.cols r)
  | some .dfo => each fun k r c => fmul (s.bcast y r c) (dfoPrime (iFunc w) imm k (s.elem x r c))
  | some .dsoftmax => rows fun r => dsoftmaxRow (s.rowVals x t.cols r) (s.rowVals y t.cols r)
  | some .adamw =>
    match optParams (getBytes s.mem z.base 64) with
    | none => []
    | some p => rows fun r => (List.range y.cols).flatMap fun c =>
      let k := adamwElem p (fr + 2 * (r * y.cols + c)) (s.elem x r (3 * c)) (s.elem x r (3 * c + 1)) (s.elem x r (3 * c + 2))
        (s.elem y r c)
      [k.1, k.2.1, k.2.2]
  | some .sgdm =>
    match optParams (getBytes s.mem z.base 64) with
    | none => []
    | some p => rows fun r => (List.range y.cols).flatMap fun c =>
      let k := sgdmElem p (s.elem x r (2 * c)) (s.elem x r (2 * c + 1)) (s.elem y r c)
      [k.1, k.2]
  | _ => []

/-! ## Writing a group -/

/-- The cells of the block of 32 that holds element (r, c). -/
def Tensor.blockAt (t : Tensor) (r c : Nat) : List (Nat × Nat) :=
  (List.range 32).map fun k => if t.blockDir1 then (r / 32 * 32 + k, c) else (r, c / 32 * 32 + k)

/-- One element of a whole tensor of results, converted under the scale of its block (R72, R97). The last element of a block
also stores the block's elements beyond the shape. `quiet`: a NaN is the pattern 0x7FC0_0000 (R157). -/
def Tensor.convCell (t : Tensor) (val : Nat → Nat → FVal) (draw : Option Nat) (fr : Nat) (quiet : Bool) (r c : Nat) : Conv :=
  let v := val r c
  if t.fmt.isMx then
    let cells := t.blockAt r c
    let xs := cells.map fun p => if p.1 < t.rows ∧ p.2 < t.cols then val p.1 p.2 else fzero
    let nan := xs.any fun x => decide (x = .nan)
    let x := blockExp t.fmt xs
    let e := if nan then (0, false) else encodeElem t.fmt draw fr (v.scale (-x))
    let last := if t.blockDir1 then decide (r + 1 = t.rows) else decide (c + 1 = t.cols)
    let pads := if last then cells.filter fun p => decide (t.rows ≤ p.1 ∨ t.cols ≤ p.2) else []
    { writes := [(t.scaleAddr r c, 0, 8, if nan then 0xFF else (x + 127).toNat), t.write r c e.1] ++ pads.map fun p => t.write p.1 p.2 0
      sat := b2n e.2, zeros := 0 }
  else if quiet && decide (v = .nan) && decide (t.fmt = .fp32) then { writes := [t.write r c 0x7FC00000], sat := 0, zeros := 0 }
  else
    let e := encodeElem t.fmt draw fr v
    { writes := [t.write r c e.1], sat := b2n e.2, zeros := 0 }

/-- Elements `k0` to `k0 + n - 1` of the results, in row order, written to a tensor with the rounding of the instruction. -/
def State.writeCells (s : State) (i : Nat) (w : BitVec 128) (t : Tensor) (vals : Nat → Nat → FVal) (quiet : Bool) (k0 n : Nat) :
    State :=
  let fr := s.freeIx
  let s := s.useFree n
  let sr := s.stochastic w t.fmt
  let d := if sr then s.draws i n else ([], s)
  let s := d.2
  let k := ((List.range n).map fun j =>
    t.convCell vals (if sr then some (nth 0 d.1 j) else none) (fr + j) quiet ((k0 + j) / t.cols) ((k0 + j) % t.cols)).foldl
      Conv.join Conv.none
  (s.putElems i k.writes).saturated i k.sat

/-- The instruction is an optimizer instruction. -/
def isOpt (w : BitVec 128) : Bool := decide (iOpcode w = 0x3C ∨ iOpcode w = 0x3D)

/-- Elements an instruction runs over, in groups of 256: gradient elements of an optimizer instruction, otherwise dst's. -/
def State.vecCount (s : State) (e : QEntry) : Nat :=
  match s.tensorAt e.d (if isOpt e.word then 2 else 0) with
  | some t => t.count
  | none => 0

/-- Write group `e.item` of the results. -/
def State.writeGroup (s : State) (i : Nat) (e : QEntry) : State :=
  let w := e.word
  let k0 := 256 * e.item
  let n := min 256 (s.vecCount e - k0)
  match s.tensorAt e.d 0 with
  | none => s
  | some t =>
    let val (r c : Nat) : FVal := nth fzero e.acc (r * t.cols + c)
    let quiet := !iAcc w && (decide (iOpcode w = 0x30) || decide (iOpcode w = 0x32)) && quietNan (decide (iOpcode w = 0x30)) (iFunc w)
    if isOpt w then
      let m := stateWidth w
      let s := s.writeCells i w t val false (m * k0) (m * n)
      match (if flag w 72 then s.tensorAt e.d 4 else none) with
      | none => s
      | some x => s.writeCells i w x (fun r c => nth fzero e.acc (m * (r * x.cols + c))) false k0 n
    else s.writeCells i w t val quiet k0 n

/-- The report of a whole conversion by the vector unit (R192). -/
def State.vecReport (s : State) (i : Nat) (t : Tensor) (d : BitVec 256) (val : Nat → Nat → FVal) : State :=
  if ¬ dGov d then s
  else
    let shape (b : List (Nat × Nat)) : List FVal := (b.filter fun p => decide (p.1 < t.rows ∧ p.2 < t.cols)).map fun p => val p.1 p.2
    s.govReport i t.layer ((blockCells t.blockDir1 0 t.rows 0 t.cols).map shape)

/-- The reports of an instruction that has written every group. -/
def State.vecReports (s : State) (i : Nat) (e : QEntry) : State :=
  let s := match s.tensorAt e.d 0 with
    | some t => s.vecReport i t (nth 0 e.d 0) fun r c => nth fzero e.acc (r * t.cols + c)
    | none => s
  if isOpt e.word ∧ flag e.word 72 then
    match s.tensorAt e.d 4 with
    | some x => s.vecReport i x (nth 0 e.d 4) fun r c => nth fzero e.acc (stateWidth e.word * (r * x.cols + c))
    | none => s
  else s

/-! ## Checks of beats -/

/-- The mod 15 residue of an operation's difference is zero (R98). -/
def residueOk (a b : Int) : Bool := decide ((a - b) % 15 = 0)

/-- The failing check of a lane, as R119 codes it: 1 the multiplier's residue, 2 the adder's, 3 the exponent paths, 4 several; 0 none. -/
def laneKind (o : LaneObs) : Nat :=
  let mul := residueOk o.p.toNat ((o.ma.toNat % 15) * (o.mb.toNat % 15) : Nat)
  let add := residueOk o.sum (o.addends.map (· % 15)).sum
  let exp := decide (o.exp = o.expDup)
  match mul, add, exp with
  | true, true, true => 0
  | false, true, true => 1
  | true, false, true => 2
  | true, true, false => 3
  | _, _, _ => 4

/-- The first failing lane of a group and its kind. -/
def firstFailing (o : BeatObs) : Option (Nat × Nat) :=
  (o.lanes.filter fun x => decide (laneKind x ≠ 0)).foldl (fun best x => match best with
    | none => some (x.lane, laneKind x)
    | some b => if x.lane < b.1 then some (x.lane, laneKind x) else some b) none

/-- Beats per 256 elements (R156 to R161); 1 where no table gives them (DEDUCED, log entry 97). -/
def beatsPer (w : BitVec 128) : Nat :=
  match Op.ofCode (iOpcode w) with
  | some .vfn => nth 1 [1, 1, 6, 6, 4, 1, 3, 3, 4, 5] (iFunc w)
  | some .softmax => 8
  | some .norm => 6
  | some .dfo => nth 1 [1, 1, 2, 2, 1, 4] (iFunc w)
  | some .dsoftmax => 4
  | some .adamw => 14
  | some .sgdm => 6
  | _ => 1

/-- The instruction at the head of the vector queue is checked: one more in the class, and recovered if a beat of it had
failed (R99). -/
def State.vecDone (s : State) (i : Nat) (e : QEntry) : State :=
  let s := (s.bump .vecCore i Reg.VEC_CHECKED 1).checkAt i cVec 1 0 0 0
  if e.aux % 2 = 1 then s.recover i cVec else s

/-- A failed beat is recorded (R118, R119). -/
def State.markBeat (s : State) (i lane kind : Nat) : State :=
  let n := (s.peek .vecCore i Reg.VEC_INSTRS).toNat + 1 - (nth [] (s.core i).queues 1).length
  let x := mkWord [(n % 2 ^ 32, 32), (kind, 16), (lane % 256, 0)]
  ((s.raise .vecCore i Reg.VEC_EVENT 0).poke .vecCore i Reg.VEC_FAIL_LOC x).poke .vecMod 0 Reg.VEC_FAIL_LOC x

/-- A group fails its check (R39, R40, R99): it is recomputed once. The instruction counts once as failed, and at its first failure the
limit of R40 is judged. A recomputation that fails fences the core, and the instruction counts as checked. -/
def State.failBeat (s : State) (i : Nat) (e : QEntry) (lane kind : Nat) : State :=
  let s := s.markBeat i lane kind
  let checked (s : State) : State := (s.bump .vecCore i Reg.VEC_CHECKED 1).checkAt i cVec 1 0 0 0
  if e.replaying then
    let s := (s.bump .vecCore i Reg.VEC_REPLAYS_FAILED (beatsPer e.word)).raise .vecCore i Reg.VEC_EVENT 2
    let s := (checked s).checkAt i cVec 0 0 0 1
    (s.setHead i 1 { e with replaying := false, aux := e.aux / 2 * 2 }).fenceCore i csTile
  else if e.aux % 2 = 1 then s.setHead i 1 { e with replaying := true }
  else
    let s := (s.bump .vecCore i Reg.VEC_FAILS 1).checkAt i cVec 0 1 0 0
    if s.overLimit i 0 then (checked s).limitFence i cVec
    else s.setHead i 1 { e with replaying := true, aux := e.aux + 1 }

/-- Words read for `n` elements of an operand in a group of a vector instruction, each vector of a broadcast once; for VRED, the runs
they reduce. -/
def groupRead (w : BitVec 128) (x : Tensor) (n : Nat) : Nat :=
  if iOpcode w = 0x33 then readWords x.fmt (n * (if iFunc w = 3 then x.rows else x.cols)) else readWords x.fmt (min n x.count)

/-- Words read for the group at hand, `n` elements, of a vector instruction (R115): its operands, the destination it adds into, the state
and, with the first group, the parameter record of an optimizer instruction; what VRS reads counts as its chunks are accepted. -/
def State.groupWords (s : State) (e : QEntry) (n : Nat) : Nat :=
  let w := e.word
  if iOpcode w = 0x40 then 0 else
  let u := match Op.ofCode (iOpcode w) with | some op => usesOf op w | none => {}
  let one (used : Bool) (k m : Nat) : Nat := match (if used then s.tensorAt e.d k else none) with
    | some t => groupRead w t m
    | none => 0
  if isOpt w then one true 1 (stateWidth w * n) + one true 2 n + (if e.item = 0 then 16 else 0)
  else one u.src0 1 n + one u.src1 2 n + one u.src2 3 n + one (iAcc w) 0 n

/-- A group that has passed, with the wrong values no check saw. -/
def QEntry.faulty (e : QEntry) (o : BeatObs) : QEntry :=
  let m := if isOpt e.word then stateWidth e.word else 1
  { e with acc := o.lanes.foldl (fun l x => match x.out with
      | some v => setNth l (m * (256 * e.item + x.lane)) (val32 v)
      | none => l) e.acc }

/-- The group at hand passes: it is written, and with the last one the instruction completes. -/
def State.passBeat (s : State) (i : Nat) (e : QEntry) (o : BeatObs) : State :=
  let s := if ¬ e.replaying then s else
    (s.bump .vecCore i Reg.VEC_REPLAYS_PASSED (beatsPer e.word)).raise .vecCore i Reg.VEC_EVENT 1
  let e := { e with replaying := false }
  if iOpcode e.word = 0x40 then s.setHead i 1 e
  else
    let e := e.faulty o
    let s := s.writeGroup i e
    if 256 * (e.item + 1) < s.vecCount e then s.setHead i 1 { e with item := e.item + 1 }
    else ((s.vecReports i e).vecDone i e).retire i 1 .ok false

/-- The rsvd bytes of an optimizer instruction's parameter record are not zero when it begins (R8, R162). -/
def State.badRecord (s : State) (e : QEntry) : Bool :=
  isOpt e.word && decide (e.item = 0) && e.acc.isEmpty && (match s.tensorAt e.d 3 with
    | some z => (optParams (getBytes s.mem z.base 64)).isNone
    | none => true)

/-- The instruction with its results formed, at its first group. -/
def State.vecBegin (s : State) (e : QEntry) : QEntry × State :=
  if !e.acc.isEmpty || decide (iOpcode e.word = 0x40) then (e, s)
  else
    let fr := s.freeIx
    ({ e with acc := match s.tensorAt e.d 0 with | some t => s.vecResults e t fr | none => [] }, s.useFree (4 * s.vecCount e + 4))

/-- The check of the group at hand of the instruction at the head of a core's vector queue. -/
def State.beatVerdict (s : State) (i : Nat) (o : BeatObs) : State :=
  if ¬ s.coreWorks i then s
  else match s.headOf i 1 with
  | none => s
  | some e =>
    if e.status ≠ .ok then s.retire i 1 e.status false
    else if s.badRecord e then s.retire i 1 .malformed false
    else
      let s := s.tsReads i (s.groupWords e (min 256 (s.vecCount e - 256 * e.item))) o.corrected o.double
      if o.double then s.fenceCore i csStore
      else
        let r := s.vecBegin e
        match firstFailing o with
        | some f => r.2.failBeat i r.1 f.1 f.2
        | none => r.2.passBeat i r.1 o

/-- VECTOR_BEAT_CHECK (R98, R99). -/
def execVectorBeatCheck (core : Nat) (o : BeatObs) (s : State) : Next := .next (s.beatVerdict core o)

end Sys2Proof.Machine
end

