-- ==== Sys2Proof/Machine/Samovar.lean ====
section
/-! DEFINITION. Reduction groups and the Samovars (R285 to R307): formation, the wire formats and residues, the path of a chunk,
contexts, the owner's decision, re-sends, RDONE, the retain area and the error memory of GS1. -/

namespace Sys2Proof.Machine

/-! ## Chunks on the wire (R290, R293, R294, R354) -/

/-- The residue of one integer of at most 48 bits (R294). -/
def res (x : Int) : Nat :=
  let u := (if x < 0 then x + 2 ^ 48 else x).toNat
  let r := (u % 65536 + u / 65536 % 65536 + u / 2 ^ 32 % 65536) % 65535
  if x < 0 then (r + 65534) % 65535 else r

/-- The residue of a chunk: its elements, its count and its magnitude sum. -/
def chunkRes (elems : List Int) (n m : Nat) : Nat := (res n + res m + (elems.map res).foldl (· + ·) 0) % 65535

/-- A chunk message (R354): the head, and the elements, none where the head stands alone. -/
structure WireChunk where
  format : Nat
  part : Bool
  half : Bool
  attempt : Nat
  bad : Bool
  sat : Bool
  nonfinite : Bool
  layer : Nat
  scale : Nat
  residue : Nat
  count : Nat
  mag : Nat
  elems : List Int
deriving DecidableEq, Repr, Inhabited

/-- Bytes of an element: of a contribution, or of a partial. -/
def elemBytes (format : Nat) (part : Bool) : Nat := rchunkBytes format part / 1024

/-- The elements as bytes. -/
def packElems (format : Nat) (part : Bool) (xs : List Int) : List Byte :=
  if format = 0xB ∧ ¬ part then
    (chunksOf 8 xs).map fun g => BitVec.ofNat 8 ((g.map fun x => b2n (decide (x < 0))).foldr (fun b a => b + 2 * a) 0)
  else
    let n := elemBytes format part
    xs.flatMap fun x => leBytes n (ofSigned (8 * n) x)

/-- The elements read from bytes; a sign bit counts as +1 or −1 (R294). -/
def unpackElems (format : Nat) (part : Bool) (bs : List Byte) : List Int :=
  if format = 0xB ∧ ¬ part then
    bs.flatMap fun b => (List.range 8).map fun i => if b.toNat.testBit i then (-1 : Int) else 1
  else
    let n := elemBytes format part
    (chunksOf n bs).map fun g => toSigned (8 * n) (ofLe g)

def WireChunk.bytes (c : WireChunk) : List Byte :=
  leBytes 1 (c.format + 16 * b2n c.part + 32 * b2n c.half + 64 * c.attempt) ++
  leBytes 1 (b2n c.bad + 2 * b2n c.sat + 4 * b2n c.nonfinite) ++ leBytes 2 c.layer ++ leBytes 1 c.scale ++ zeros 1 ++
  leBytes 2 c.residue ++ leBytes 4 c.count ++ leBytes 4 c.mag ++ packElems c.format c.part c.elems

def WireChunk.ofBytes (b : List Byte) : WireChunk :=
  let f := bitsAt b 0 3 0
  let part := decide (bitsAt b 0 4 4 = 1)
  { format := f, part := part, half := decide (bitsAt b 0 5 5 = 1), attempt := bitsAt b 0 7 6, bad := decide (bitsAt b 1 0 0 = 1)
    sat := decide (bitsAt b 1 1 1 = 1), nonfinite := decide (bitsAt b 1 2 2 = 1), layer := leAt b 2 2, scale := leAt b 4 1
    residue := leAt b 6 2, count := leAt b 8 4, mag := leAt b 12 4, elems := unpackElems f part (b.drop 16) }

/-- A magnitude × 2^k rounded to the nearest integer, ties to even. -/
def intMag (m : Nat) (e : Int) : Nat :=
  let r := shiftRound m e 0
  r.1 + b2n r.2

/-- One element of GW32 or GW48: the integer, and whether it was set to the limit (R290, R291). -/
def encodeInt (k : Int) (limit : Nat) : FVal → Int × Bool
  | .nan => (0, false)
  | .inf neg => (sgn neg limit, true)
  | .fin neg m e =>
    let q := intMag m (e + k)
    if limit < q then (sgn neg limit, true) else (sgn neg q, false)

/-- The exact sum of the magnitudes of the finite values. -/
def magSum (xs : List FVal) : Nat × Int :=
  xs.foldl (fun a v => match v with
    | .fin _ m e => if m = 0 then a else
      let lo := min a.2 e
      (a.1 <<< (a.2 - lo).toNat + m <<< (e - lo).toNat, lo)
    | _ => a) (0, 0)

/-- The contribution formed from the FP32 values of a chunk, at scale code `scale` (R290, R291). A NaN adds nothing to the mean
of GS1, and its sign bit is 0 (DEDUCED, log entry 36). -/
def encodeChunk (format layer scale : Nat) (half : Bool) (attempt : Nat) (vals : List FVal) : WireChunk :=
  let e' : Int := (scale : Int) - 127 + b2n half
  let nan := vals.any fun v => decide (v = .nan)
  let blank : WireChunk :=
    { format := format, part := false, half := half, attempt := attempt, bad := false, sat := false, nonfinite := nan
      layer := layer, scale := scale, residue := 0, count := 1, mag := 0, elems := [] }
  if format = 0xB then
    let neg (v : FVal) : Bool := match v with | .nan => false | .inf n => n | .fin n m _ => n && decide (0 < m)
    let elems : List Int := vals.map fun v => if neg v then -1 else 1
    let sum := magSum vals
    let m := intMag sum.1 (sum.2 - 10 - e')
    let beyond := vals.any (fun v => match v with | .inf _ => true | _ => false) || decide (65535 < m)
    let m := if beyond then 65535 else m
    { blank with sat := beyond, mag := m, elems := elems, residue := chunkRes elems 1 m }
  else
    let k : Int := if format = 0xA then 16 - e' else -e'
    let limit := if format = 0xA then 2 ^ 31 - 1 else 32767
    let xs := vals.map (encodeInt k limit)
    let elems := xs.map (·.1)
    { blank with sat := xs.any (·.2), elems := elems, residue := chunkRes elems 1 0 }

/-- The FP32 values of a completed chunk (R293). -/
def decodeChunk (c : Ctx) : List FVal :=
  let e' : Int := (c.scale : Int) - 127 + b2n c.half
  c.sums.map fun p =>
    let v (m : Nat) (e : Int) : FVal := .fin (decide (p < 0)) m e
    if c.format = 0xB then fdiv (v (p.natAbs * c.mag) e') (.fin false c.count 0)
    else r32 (v p.natAbs (if c.format = 0xA then e' - 16 else e'))

/-- Bits of a partial element (R290). -/
def sumBits (format : Nat) : Nat := if format = 0xA then 48 else if format = 0xB then 16 else 32

/-- A sum kept within its width, and whether it was outside (R292). -/
def clampSum (format : Nat) (x : Int) : Int × Bool :=
  let top : Int := 2 ^ (sumBits format - 1)
  if top ≤ x then (top - 1, true) else if x < -top then (-top, true) else (x, false)

/-! ## Groups (R285 to R289) -/

def State.grp (s : State) (g : Nat) : Option Grp := Smap.get? s.coll.groups g

def State.setGrp (s : State) (g : Nat) (x : Grp) : State := { s with coll := { s.coll with groups := Smap.put s.coll.groups g x } }

def State.setSam (s : State) (p : Nat) (x : Sam) : State := { s with coll := { s.coll with sams := setNth s.coll.sams p x } }

/-- This module's member index in a group. -/
def State.myMember (s : State) (g : Grp) : Option Nat := g.cfg.members.findIdx? fun m => decide (m.rank = s.blend.rank)

/-- The other members on this module's board. -/
def State.mates (s : State) (g : Grp) : List Nat :=
  match (s.myMember g).bind fun i => g.cfg.members[i]? with
  | none => []
  | some me => (g.cfg.members.filter fun m => decide (m.board = me.board ∧ m.rank ≠ me.rank)).map (·.rank)

/-- The peer port that joins this module to a rank. -/
def State.peerPort (s : State) (rank : Nat) : Option Nat :=
  (List.range 16).find? fun p => decide (s.portRole p = 1) && decide (s.expectRank p = rank)

/-- The group spans more than one board. -/
def Grp.multi (g : Grp) : Bool := decide (1 < ((g.cfg.members.map (·.board)).eraseDups).length)

/-- The ports a group uses. -/
def State.groupPorts (s : State) (g : Grp) : List Nat := (((s.mates g).filterMap s.peerPort) ++ g.cfg.uplinks).eraseDups

/-- The Samovar at which the events of a group are latched: that of its lowest peer port, or of port 0 (DEDUCED, log entry
37). -/
def State.groupHome (s : State) (g : Grp) : Nat :=
  let ps := (s.mates g).filterMap s.peerPort
  ((List.range 16).find? ps.contains).getD 0

/-- The member digest (R287), over the count of modules for a Sip group (R311). -/
def digest8 (job group epoch : Nat) (rest : List Byte) : List Byte :=
  (hashBytes (shake256 (leBytes 2 job ++ leBytes 1 group ++ leBytes 1 epoch ++ rest))).take 8

def formBody (digest : List Byte) (members : Nat) (sip : Bool) : List Byte :=
  padTo 8 digest ++ leBytes 4 members ++ leBytes 4 (b2n sip)

/-- This module's view of a group, as GFORM carries it (R355). -/
def Grp.formView (g : Grp) : List Byte :=
  formBody (digest8 g.cfg.job g.cfg.group g.epoch (g.cfg.members.flatMap fun m => leBytes 2 m.rank)) g.cfg.members.length false

def SipGrp.formView (g : SipGrp) : List Byte :=
  formBody (digest8 g.job g.cfg.group g.epoch (leBytes 4 g.cfg.modules)) g.cfg.modules true

/-- A port on which a group of the job can form: its messages flow, no job fence is under way, and the partner's HELLO reports
the job (R287, R582). -/
def State.formPort (s : State) (job p : Nat) : Bool :=
  s.portUsable p && decide (s.portJob p = job) && decide ((s.port p).partnerJob = job) && (s.port p).jfence.isNone

/-- Ask the neighbour on a port: the GFORM request and its tag. -/
def State.askForm (s : State) (p group epoch : Nat) (body : List Byte) : Option Nat × State :=
  if s.canSend p mGform ≠ .ok then (none, s)
  else
    let r := s.takeTag p .gform
    match r.1 with
    | none => (none, r.2)
    | some t =>
      let m := { r.2.newMsg p mGform body with
        req := true, tag := BitVec.ofNat 14 t, group := BitVec.ofNat 8 group, epoch := BitVec.ofNat 8 epoch }
      (some t, r.2.post p m)

/-- Ask the partner at a port for its view of group `n`, once. -/
def State.formAsk (n : Nat) (s : State) (p : Nat) : State :=
  match s.grp n with
  | none => s
  | some g =>
    if g.confirmed.contains p ∨ g.asked.any (fun a => decide (a.1 = p)) ∨ ¬ s.formPort g.cfg.job p then s
    else
      let r := s.askForm p n g.epoch g.formView
      match r.1 with
      | none => r.2
      | some t => r.2.setGrp n { g with asked := g.asked ++ [(p, t)] }

/-- Go on with the formation of a group: ask on each port that can be asked, and FORMED once every neighbour has confirmed. -/
def State.formOne (s : State) (n : Nat) : State :=
  match s.grp n with
  | none => s
  | some g =>
    if g.st ≠ .forming then s
    else
      let ports := s.groupPorts g
      let s := ports.foldl (State.formAsk n) s
      match s.grp n with
      | none => s
      | some g =>
        if ports.all g.confirmed.contains then
          (s.setGrp n { g with st := .formed, asked := [] }).raise .samPort (s.groupHome g) Reg.SAM_EVENT 8
        else s

/-- The epochs held for a group in the job (R289); a Sip group's under 256 + its number. -/
def State.heldEpochs (s : State) (k : Nat) : List Nat := Smap.get [] s.coll.epochs k

/-- An epoch is set: it joins the set of those held. -/
def State.holdEpoch (s : State) (k e : Nat) : State :=
  let xs := s.heldEpochs k
  ({ s with coll := { s.coll with epochs := Smap.set [] s.coll.epochs k (if xs.contains e then xs else xs ++ [e]) } } : State).keepEpochs k

/-! ## The path of a chunk (R296) -/

/-- What this module does with a chunk: it owns it or gathers it, at a home Samovar; or sends its contribution to a rank over a
peer port. -/
inductive ChunkRole where
  | owner (home : Nat)
  | gather (home : Nat)
  | peer (port : Option Nat) (rank : Nat)
deriving DecidableEq, Repr

/-- The uplink port of a slice, or without uplinks port slice mod 16 (R296). -/
def Grp.homeOf (g : Grp) (slice : Nat) : Nat :=
  if g.cfg.uplinks.isEmpty then slice % 16 else nth 0 g.cfg.uplinks (slice % g.cfg.uplinks.length)

/-- slice_chunks of a chunk's SHARD, once one has named the slice (R163). -/
def State.sliceChunksOf (s : State) (group chunk : Nat) : Option Nat :=
  (s.coll.shape.find? fun e => decide (e.1 = group ∧ e.2.1 ≤ chunk ∧ chunk < e.2.1 + e.2.2)).map (·.2.2)

/-- The slice of a chunk. -/
def State.sliceOf (s : State) (group chunk : Nat) : Option Nat := (s.sliceChunksOf group chunk).map fun n => chunk / n

/-- A SHARD names slice `slice` of its group. -/
def State.noteSlice (s : State) (x : Shard) (slice : Nat) : State :=
  let e := (x.group, slice * x.sliceChunks, x.sliceChunks)
  { s with coll := { s.coll with shape := e :: s.coll.shape.filter fun d => !decide (d = e) } }

/-- This module's part in a chunk; none while slice_chunks is unknown, or of a group without this module. -/
def State.roleOf (s : State) (g : Grp) (chunk : Nat) : Option ChunkRole :=
  match s.sliceOf g.cfg.group chunk, s.myMember g with
  | some sl, some i =>
    match g.cfg.members[sl % g.cfg.members.length]?, g.cfg.members[i]? with
    | some own, some me =>
      if sl % g.cfg.members.length = i then some (.owner (g.homeOf sl))
      else if me.board = own.board then some (.peer (s.peerPort own.rank) own.rank)
      else
        let pos := bitsOf g.cfg.gatherer (2 * own.position + 1) (2 * own.position)
        if me.position = pos then some (.gather (g.homeOf sl))
        else match g.cfg.members.find? fun m => decide (m.board = me.board ∧ m.position = pos) with
          | some x => some (.peer (s.peerPort x.rank) x.rank)
          | none => some (.peer none 0)
    | _, _ => none
  | _, _ => none

/-- The chunk's key under the epoch in force. -/
def Grp.key (g : Grp) (chunk : Nat) : CKey := { job := g.cfg.job, group := g.cfg.group, epoch := g.epoch, chunk := chunk }

/-- Send a reduction message to a rank. -/
def State.sendRed (s : State) (p type rank : Nat) (k : CKey) (chunk : Nat) (st : Status) (body : List Byte) : State :=
  s.post p { s.newMsg p type body with
    dst := BitVec.ofNat 16 rank, group := BitVec.ofNat 8 k.group, epoch := BitVec.ofNat 8 k.epoch
    chunk := BitVec.ofNat 32 chunk, status := BitVec.ofNat 4 st.code }

/-! ## Contexts (R295, R299, R304) -/

/-- Paths of an input: 0 a peer port, with the sender's rank; 1 an uplink; 2 the module itself. -/
def pathLocal : Nat × Nat := (2, 0)
def pathUplink : Nat × Nat := (1, 0)

/-- The inputs a context waits for (R296). -/
def State.expected (s : State) (g : Grp) (owner : Bool) : List (Nat × Nat) :=
  pathLocal :: (s.mates g).map (fun r => (0, r)) ++ (if owner && g.multi then [pathUplink] else [])

/-- Where the context of a key is held. -/
def State.ctxOf (s : State) (k : CKey) : Option (Nat × Ctx) :=
  (List.range 16).findSome? fun p => ((s.sam p).ctxs.find? fun c => decide (c.key = k)).map fun c => (p, c)

def State.putCtx (s : State) (p : Nat) (c : Ctx) : State :=
  let x := s.sam p
  s.setSam p { x with ctxs := x.ctxs.map fun d => if d.key = c.key then c else d }

def State.dropCtx (s : State) (k : CKey) : State :=
  { s with coll := { s.coll with sams := s.coll.sams.map fun x => { x with ctxs := x.ctxs.filter fun c => !decide (c.key = k) } } }

/-- A context without inputs. -/
def Ctx.blank (k : CKey) (attempt : Nat) (half : Bool) : Ctx :=
  { key := k, format := 0, layer := 0, scale := 0, half := half, attempt := attempt, inputs := [], sums := [], mag := 0, count := 0
    carried := 0, bad := false, sat := false, nonfinite := false, status := .ok, residueResent := false, held := false }

/-- A context set to an attempt, empty. -/
def Ctx.again (c : Ctx) (attempt : Nat) (half : Bool) : Ctx :=
  { Ctx.blank c.key attempt half with residueResent := c.residueResent }

def State.failsOf (s : State) (k : CKey) : Nat := ((s.coll.fails.find? fun f => decide (f.1 = k)).map (·.2)).getD 0

/-- A comparison of R295 is made at the Samovar of port `p`. -/
def State.compareRed (s : State) (p : Nat) (k : CKey) (ok : Bool) : State :=
  let s := (s.bump .samPort p Reg.SAM_RESIDUE_CHECKS 1).check cRed 1 (b2n !ok) 0 0
  if ok then s
  else
    let s := (s.bump .samPort p Reg.SAM_RESIDUE_FAILS 1).raise .samPort p Reg.SAM_EVENT 0
    let n := s.failsOf k
    { s with coll := { s.coll with fails := (s.coll.fails.filter fun f => !decide (f.1 = k)) ++ [(k, n + 1)] } }

/-- The failed comparisons of a chunk are resolved: recovered if it ended OK, otherwise escalated (R304). -/
def State.settleFails (s : State) (k : CKey) (ok : Bool) : State :=
  let n := s.failsOf k
  if n = 0 then s
  else
    let s := { s with coll := { s.coll with fails := s.coll.fails.filter fun f => !decide (f.1 = k) } }
    if ok then s.check cRed 0 0 n 0 else s.check cRed 0 0 0 n

/-- Add an OK input to a context. -/
def Ctx.add (c : Ctx) (w : WireChunk) : Ctx :=
  { c with
    format := w.format, layer := w.layer, scale := w.scale, half := w.half
    sums := if c.sums.isEmpty then w.elems else c.sums.zipWith (· + ·) w.elems
    mag := c.mag + w.mag, count := c.count + w.count, carried := (c.carried + w.residue) % 65535
    bad := c.bad || w.bad, sat := c.sat || w.sat, nonfinite := c.nonfinite || w.nonfinite }

/-- The input disagrees with what the context holds in format, layer, scale code or half (R304). -/
def Ctx.disagrees (c : Ctx) (w : WireChunk) : Bool :=
  !c.sums.isEmpty && !decide (c.format = w.format ∧ c.layer = w.layer ∧ c.scale = w.scale ∧ c.half = w.half)

/-- The output comparison and the saturation of a context whose inputs are in (R292, R295). -/
def State.sumUp (s : State) (p : Nat) (c : Ctx) : Ctx × State :=
  if c.status ≠ .ok ∨ c.sums.isEmpty then (c, s)
  else
    let ok := decide (chunkRes c.sums c.count c.mag = c.carried)
    let xs := c.sums.map (clampSum c.format)
    ({ c with sums := xs.map (·.1), sat := c.sat || xs.any (·.2) || decide (2 ^ 32 ≤ c.mag), mag := min c.mag (2 ^ 32 - 1)
              bad := c.bad || !ok }, s.compareRed p c.key ok)

/-- A gatherer sends its board's partial and frees the context (R296, R299). -/
def State.sendPartial (s : State) (p : Nat) (c : Ctx) : State :=
  let bare := decide (c.status = .timeout ∨ c.status = .malformed)
  let w : WireChunk :=
    { format := if c.sums.isEmpty then 9 else c.format, part := true, half := c.half, attempt := c.attempt, bad := c.bad, sat := c.sat
      nonfinite := c.nonfinite, layer := c.layer, scale := c.scale, residue := c.carried, count := c.count, mag := c.mag
      elems := if bare then [] else if c.sums.isEmpty then List.replicate 1024 0 else c.sums }
  let s := (s.sendRed p mRchunk 0 c.key c.key.chunk c.status w.bytes).bump .samPort p Reg.SAM_PARTIALS_OUT 1
  let s := s.dropCtx c.key
  { s with coll := { s.coll with sent := (s.coll.sent.filter fun x => !decide (x.1 = c.key)) ++ [(c.key, c.attempt)] } }

/-! ## Retained chunks and the error memory of GS1 (R302, R307) -/

/-- The address of a retain entry. -/
def State.retainAt (s : State) (p slot : Nat) : Nat := s.rfield .samPort p Reg.SAM_RETAIN_BASE 48 0 + 4160 * slot

/-- Where a chunk is retained. -/
def State.retainedOf (s : State) (k : CKey) : Option (Nat × Retained) :=
  (List.range 16).findSome? fun p => ((s.sam p).retained.find? fun r => decide (r.key = k)).map fun r => (p, r)

def State.putRetained (s : State) (p : Nat) (r : Retained) : State :=
  let x := s.sam p
  s.setSam p { x with retained := x.retained.map fun q => if q.key = r.key then r else q }

def State.dropRetained (s : State) (k : CKey) : State :=
  { s with coll := { s.coll with
      sams := s.coll.sams.map fun x =>
        { x with retained := x.retained.filter (fun r => !decide (r.key = k)), full := x.full && x.retained.all fun r => !decide (r.key = k) } } }

def fp32Bytes (fr : Nat) (xs : List FVal) : List Byte := xs.zipIdx.flatMap fun v => leBytes 4 (bits32 (fr + v.2) v.1).toNat
def fp32Vals (bs : List Byte) : List FVal := (chunksOf 4 bs).map fun g => val32 (BitVec.ofNat 32 (ofLe g))

/-- The FP32 values of a retained chunk. -/
def State.readRetained (s : State) (p : Nat) (r : Retained) : Status × List FVal × State :=
  let x := s.memRead (s.retainAt p r.slot + 64) 4096
  (x.1, fp32Vals x.2.1, x.2.2)

/-- The address of a chunk's error memory in generation area `a`; none where the group has no ERRMEM area or the chunk lies
beyond it. -/
def State.errAddr (s : State) (group chunk a : Nat) : Option Nat :=
  match s.blend.areas.find? fun x => decide (x.kind = 13 ∧ x.inst = group) with
  | none => none
  | some x => if x.size < 4096 * (chunk + 1) then none else areaAddr s.blend.areas (1 + a) (x.base + 4096 * chunk)

/-- Write the error memory of a chunk that ended OK; false where the write waits under copy-before-overwrite. -/
def State.writeErr (s : State) (p : Nat) (r : Retained) : Bool × State :=
  match s.errAddr r.key.group r.key.chunk (s.job.step % 2) with
  | none => (true, s)
  | some a =>
    if s.runsHeld [(a, 4096)] then (false, s)
    else
      let x := s.readRetained p r
      let fail (s : State) (st : Status) (area : Bool) : State := s.stepFail csMemory (if area then lvReform else lvRollback) st 0
      if x.1 ≠ .ok then (true, fail x.2.2 x.1 false)
      else
        let e' : Int := (r.scale : Int) - 127 + b2n r.half
        let es := x.2.1.zipWith (fun u (g : Bool) => fsub u (.fin g r.mag e')) r.signs
        let fr := x.2.2.freeIx
        let w := ((x.2.2.useFree 1024).genTouch a).memWrite a (fp32Bytes fr es)
        (true, if w.1 = .ok then w.2 else fail w.2 w.1 true)

/-- A chunk's end reaches this module as a contributor or adder (R299, R303, R307): failed comparisons are resolved, an open context
of it is freed, and the retained entry is released; of GS1, after the error memory has been written. -/
def State.chunkDone (s : State) (k : CKey) (st : Status) : State :=
  let s := s.settleFails k (decide (st = .ok))
  let s := match s.ctxOf k with
    | some (_, c) => if c.held then s else s.dropCtx k
    | none => s
  match s.retainedOf k with
  | none => s
  | some (p, r) =>
    if r.format ≠ 0xB then s.dropRetained k
    else if st ≠ .ok then
      let s := s.dropRetained k
      if s.job.st = .running then s.stepFail csReduce (if st = .dataErr ∨ st = .malformed then lvOperator else lvRollback) st 0 else s
    else
      let w := s.writeErr p r
      if w.1 then w.2.dropRetained k else s.putRetained p { r with final := true }

/-- Error-memory writes that waited under copy-before-overwrite, tried again. -/
def State.flushErr (s : State) : State :=
  ((List.range 16).flatMap fun p => ((s.sam p).retained.filter (·.final)).map fun r => (p, r)).foldl (fun s x =>
    let w := s.writeErr x.1 x.2
    if w.1 then w.2.dropRetained x.2.key else s) s

/-! ## The end of a chunk at its owner (R303, R304) -/

/-- Send to the member of rank `r` on this board, over its peer port. -/
def State.sendMate (type : Nat) (k : CKey) (chunk : Nat) (body : List Byte) (s : State) (r : Nat) : State :=
  match s.peerPort r with
  | some p => s.sendRed p type r k chunk .ok body
  | none => s

/-- Send a message back along every input path of a chunk: to the mates over their peer ports, and for the owner of a group of
several boards out of the uplink. -/
def State.fanOut (s : State) (g : Grp) (type : Nat) (k : CKey) (chunk : Nat) (body : List Byte) (up : Option Nat) : State :=
  let s := (s.mates g).foldl (State.sendMate type k chunk body) s
  match up with
  | some p => if g.multi then s.sendRed p type 0 k chunk .ok body else s
  | none => s

/-- Chunks one RDONE covers at most (R355). -/
def rdoneMax : Nat := 524208

/-- The bodies of the RDONE of a slice, with the first chunk of each (R355). -/
def rdoneParts (first : Nat) (sts : List Status) : List (Nat × List Byte) :=
  (chunksOf rdoneMax sts).zipIdx.map fun x =>
    let codes := x.1.map Status.code
    (first + rdoneMax * x.2,
      leBytes 4 x.1.length ++ zeros 4 ++ (chunksOf 2 codes).map fun p => BitVec.ofNat 8 (nth 0 p 0 + 16 * nth 0 p 1))

def State.endedOf (s : State) (k : CKey) : Option Ended := s.coll.ended.find? fun e => decide (e.key = k)

/-- The ends of the `n` chunks of a slice, in order; none while one has not ended. -/
def State.sliceEnds (s : State) (g : Grp) (n slice : Nat) : Option (List Ended) :=
  let mine := s.coll.ended.filter fun e =>
    decide (e.key.group = g.cfg.group ∧ e.key.epoch = g.epoch ∧ e.key.chunk / n = slice)
  if mine.length < n then none
  else (List.range n).foldr (fun i acc => match acc, mine.find? fun e => decide (e.key.chunk = slice * n + i) with
    | some xs, some e => some (e :: xs)
    | _, _ => none) (some [])

/-- Every chunk of a slice has ended: its RDONE goes out, once (R303). -/
def State.sliceDone (s : State) (g : Grp) (n slice : Nat) : State :=
  match s.sliceEnds g n slice with
  | none => s
  | some es =>
    match es with
    | [] => s
    | e :: _ =>
      if s.coll.reported.contains e.key then s
      else
        let s := { s with coll := { s.coll with reported := s.coll.reported ++ [e.key] } }
        let up := if g.cfg.uplinks.isEmpty then none else some (g.homeOf slice)
        let s := (rdoneParts e.key.chunk (es.map (·.status))).foldl (fun s x => s.fanOut g mRdone e.key x.1 x.2 up) s
        es.foldl (fun s x => s.chunkDone x.key x.status) s

/-- A chunk ends at its owner. -/
def State.endChunk (s : State) (p : Nat) (g : Grp) (c : Ctx) (st : Status) : State :=
  let s := s.bump .samPort p Reg.SAM_OWNED_DONE 1
  let s := match st with
    | .checkFail => (s.bump .samPort p Reg.SAM_CHECK_FAIL 1).raise .samPort p Reg.SAM_EVENT 3
    | .malformed => (s.bump .samPort p Reg.SAM_MISMATCH 1).raise .samPort p Reg.SAM_EVENT 6
    | .dataErr => s.bump .samPort p Reg.SAM_NONFINITE 1
    | _ => s
  let s := s.settleFails c.key (decide (st = .ok))
  let e : Ended := { key := c.key, attempt := c.attempt, status := st, vals := if st = .ok then decodeChunk c else [] }
  let s := { s with coll := { s.coll with ended := s.coll.ended ++ [e] } }
  let s := if st = .ok then s.putCtx p { c with sums := [], held := true } else s.dropCtx c.key
  match s.sliceChunksOf c.key.group c.key.chunk with
  | some n => s.sliceDone g n (c.key.chunk / n)
  | none => s

/-- A contribution encoded again from its retained copy, or for the first time, is counted and remembered (R302, R305). -/
def State.encodeFrom (s : State) (p : Nat) (r : Retained) (attempt : Nat) (half : Bool) (vals : List FVal) : WireChunk × State :=
  let w := encodeChunk r.format r.layer r.scale half attempt vals
  let r := { r with attempt := attempt, half := half, mag := w.mag
                    signs := if r.format = 0xB then w.elems.map fun x => decide (x < 0) else [] }
  (w, (s.putRetained p r).bump .samPort p Reg.SAM_CONTRIB_SENT 1)

/-- A status in place of a contribution: of a chunk that is not retained, or whose copy cannot be read. -/
def statusChunk (attempt : Nat) (half : Bool) (st : Status) : WireChunk :=
  { format := 9, part := decide (st = .malformed ∨ st = .timeout), half := half, attempt := attempt, bad := false, sat := false
    nonfinite := false, layer := 0, scale := 0, residue := 1, count := 1, mag := 0
    elems := if st = .malformed ∨ st = .timeout then [] else List.replicate 1024 0 }

/-- The contribution of this module for a new attempt (R305): the chunk and its status, and where it goes. -/
def State.reencode (s : State) (k : CKey) (attempt : Nat) (half : Bool) : WireChunk × Status × Option (Nat × Nat) × State :=
  match s.retainedOf k with
  | none => (statusChunk attempt half .malformed, .malformed, none, s)
  | some (p, r) =>
    let x := s.readRetained p r
    if x.1 = .ok then
      let w := x.2.2.encodeFrom p r attempt half x.2.1
      (w.1, .ok, r.dst, w.2)
    else (statusChunk attempt half x.1, x.1, r.dst, x.2.2)

/-- What the decision of R304 comes to. -/
inductive Verdict304 where
  | done (st : Status)
  | resend (attempt : Nat) (half : Bool) (residue : Bool)
  | satKept
  | miscount
deriving DecidableEq, Repr

/-- The table of R304: the first row that applies. -/
def decide304 (c : Ctx) (members : Nat) : Verdict304 :=
  if c.status ≠ .ok then .done c.status
  else if c.bad then (if c.residueResent then .done .checkFail else .resend (c.attempt + 1) c.half true)
  else if c.sat ∧ ¬ c.half then .resend (c.attempt + 1) true false
  else if c.sat then .satKept
  else if c.nonfinite then .done .dataErr
  else if c.count ≠ members then .miscount
  else .done .ok

/-- The inputs of a chunk are in at its owner: the decision, but for a re-send, whose fan-out and own contribution follow. Answers
the attempt and half of a re-send. -/
def State.ownerActs (s : State) (p : Nat) (g : Grp) (c : Ctx) : Option (Nat × Bool) × State :=
  match decide304 c g.cfg.members.length with
  | .done st => (none, s.endChunk p g c st)
  | .satKept => (none, ((s.bump .samPort p Reg.SAM_SAT_KEPT 1).raise .samPort p Reg.SAM_EVENT 2).endChunk p g c .ok)
  | .miscount =>
    (none, ((s.bump .samPort p Reg.SAM_COUNT_MISMATCH 1).raise .samPort p Reg.SAM_EVENT 7).endChunk p g c .checkFail)
  | .resend a h residue =>
    let s := s.raise .samPort p Reg.SAM_EVENT 1
    let s := if residue then s.bump .samPort p Reg.SAM_RESEND_RESIDUE 1
      else
        let t := s.bump .samPort p Reg.SAM_RESEND_HALF 1
        { t with record := { t.record with
            resends := satAdd 32 t.record.resends 1, saturated := t.record.saturated || decide (2 ^ 32 ≤ t.record.resends + 1) } }
    let c := { c.again a h with residueResent := c.residueResent || residue }
    let up := if g.cfg.uplinks.isEmpty then none else some p
    (some (a, h), (s.putCtx p c).fanOut g mRresend c.key c.key.chunk (leBytes 1 (a + 4 * b2n h) ++ zeros 3) up)

/-- A context whose role has become known is at its home Samovar. -/
def State.moveCtx (s : State) (p home : Nat) (c : Ctx) : State :=
  if p = home then s
  else
    let x := (s.dropCtx c.key).sam home
    (s.dropCtx c.key).setSam home { x with ctxs := x.ctxs ++ [c] }

/-- Judge a context after an input: a chunk that is another's is not summed here (R298); once every input is in, or one
disagrees, the gatherer sends and the owner decides. Answers the re-send the owner makes. -/
def State.judgeCtx (s : State) (g : Grp) (k : CKey) (mismatch : Bool) : Option (Nat × Bool) × State :=
  match s.ctxOf k, s.roleOf g k.chunk with
  | some (p, c), some role =>
    if c.held then (none, s)
    else
      let ready (owner : Bool) : Bool := mismatch || (s.expected g owner).all c.inputs.contains
      match role with
      | .peer _ _ => (none, s.dropCtx k)
      | .gather home =>
        let s := s.moveCtx p home c
        if ready false then
          let r := s.sumUp home c
          (none, r.2.sendPartial home r.1)
        else (none, s)
      | .owner home =>
        let s := s.moveCtx p home c
        if ready true then
          let r := s.sumUp home c
          (r.2.putCtx home r.1).ownerActs home g r.1
        else (none, s)
  | _, _ => (none, s)

/-- An input brings elements (R301): one that stands for a timeout or a mismatch has none. -/
def WireChunk.whole (w : WireChunk) : Bool := !w.elems.isEmpty

/-- An input reaches a context of its key (R295, R297, R304, R305): whether it disagreed, and the state; none where it was dropped.
Every input with elements is compared, whatever its status. -/
def State.enterCtx (s : State) (p : Nat) (c : Ctx) (src : Nat × Nat) (st : Status) (w : WireChunk) : Option Bool × State :=
  if w.attempt < c.attempt ∨ (c.held ∧ w.attempt ≠ c.attempt) then (none, s)
  else
    let c := if c.attempt < w.attempt then c.again w.attempt w.half else c
    if c.held ∨ c.inputs.contains src then (none, s.bump .samPort p Reg.SAM_DUPLICATES 1)
    else
      let s := s.bump .samPort p Reg.SAM_INPUTS 1
      let c := { c with inputs := c.inputs ++ [src] }
      let ok := !w.whole || decide (chunkRes w.elems w.count w.mag = w.residue)
      let s := if w.whole then s.compareRed p c.key ok else s
      let c := { c with bad := c.bad || !ok }
      if st ≠ .ok then (some false, s.putCtx p { c with status := c.status.join st })
      else if c.disagrees w then (some true, s.putCtx p { c with status := c.status.join .malformed })
      else (some false, s.putCtx p (c.add w))

/-- A second input for a chunk that has ended here or been sent on: a duplicate of its attempt, or older (R297, R305). -/
def State.pastChunk (s : State) (k : CKey) : Option Nat :=
  match s.endedOf k with
  | some e => some e.attempt
  | none => (s.coll.sent.find? fun x => decide (x.1 = k)).map (·.2)

/-- The Samovar at which an input for a key is entered: the chunk's home, or while that is unknown the port it came by. -/
def State.samFor (s : State) (g : Grp) (chunk at_ : Nat) : Nat :=
  match s.roleOf g chunk with
  | some (.owner h) => h
  | some (.gather h) => h
  | _ => at_

/-- An input for a key at the Samovar of port `p`. Answers the re-send that follows, if the owner makes one. Where no context is free
it waits (R301). -/
def State.samInput (s : State) (p : Nat) (g : Grp) (k : CKey) (src : Nat × Nat) (st : Status) (body : List Byte) :
    Option (Nat × Bool) × State :=
  let w := WireChunk.ofBytes body
  let old := (s.ctxOf k).isNone && match s.pastChunk k with | some a => decide (w.attempt ≤ a) | none => false
  if old then
    (none, if s.pastChunk k = some w.attempt then s.bump .samPort p Reg.SAM_DUPLICATES 1 else s)
  else if (s.ctxOf k).isNone ∧ 4096 ≤ (s.sam p).ctxs.length then
    let x := s.sam p
    (none, s.setSam p { x with waits := x.waits ++ [(k, src, st, body)] })
  else
    let s := if (s.ctxOf k).isSome then s else
      let x := s.sam p
      s.setSam p { x with ctxs := x.ctxs ++ [Ctx.blank k w.attempt w.half] }
    match s.ctxOf k with
    | none => (none, s)
    | some (q, c) =>
      let r := s.enterCtx q c src st w
      match r.1 with
      | none => (none, r.2)
      | some mismatch => r.2.judgeCtx g k mismatch

/-- An input and what follows from it: the own contribution to a re-send is an input in its turn; a chunk has at most two
re-sends. -/
def State.samFuel (s : State) (p : Nat) (g : Grp) (k : CKey) (src : Nat × Nat) (st : Status) (body : List Byte) : Nat → State
  | 0 => s
  | fuel + 1 =>
    let r := s.samInput p g k src st body
    match r.1 with
    | none => r.2
    | some (a, h) =>
      let x := r.2.reencode k a h
      x.2.2.2.samFuel p g k pathLocal x.2.1 x.1.bytes fuel

/-- Inputs that waited for a context, entered as contexts come free. -/
def State.samWaits (s : State) (p : Nat) : Nat → State
  | 0 => s
  | fuel + 1 =>
    let x := s.sam p
    match x.waits with
    | [] => s
    | (k, src, st, body) :: rest =>
      if 4096 ≤ x.ctxs.length then s
      else
        let s := s.setSam p { x with waits := rest }
        match s.grp k.group with
        | none => s.samWaits p fuel
        | some g => (if g.epoch = k.epoch then s.samFuel p g k src st body 4 else s).samWaits p fuel

/-- The inputs that wait for a context, wherever one has come free. -/
def State.samServe (s : State) : State := (List.range 16).foldl (fun s q => s.samWaits q ((s.sam q).waits.length)) s

/-- An input, and the waiting inputs for which it made room. -/
def State.redInput (s : State) (p : Nat) (g : Grp) (k : CKey) (src : Nat × Nat) (st : Status) (body : List Byte) : State :=
  (s.samFuel p g k src st body 4).samServe

/-! ## Contributions (R154, R288, R302) -/

/-- A free slot of the retain area. -/
def State.retainSlot (s : State) (p : Nat) : Option Nat :=
  (List.range (s.rfield .samPort p Reg.SAM_RETAIN_LIMIT 31 0)).find? fun n => !(s.sam p).retained.any fun r => decide (r.slot = n)

/-- What offering a chunk to the Samovar comes to: it is accepted, it waits, or its instruction ends. -/
inductive Offer where
  | accepted
  | waits
  | ends (st : Status) (area : Bool)
deriving DecidableEq, Repr

/-- u of R307: v with the error memory of the previous area added; the values themselves for the other formats. -/
def State.withError (s : State) (group chunk : Nat) (fmt : Fmt) (vals : List FVal) : Status × List FVal × State :=
  if fmt ≠ .gs1 then (.ok, vals, s)
  else match s.errAddr group chunk ((s.job.step + 1) % 2) with
    | none => (.malformed, [], s)
    | some a =>
      let r := s.memRead a 4096
      (r.1, vals.zipWith fadd (fp32Vals r.2.1), r.2.2)

/-- The owner of a slice notes that the step has chunks of it. -/
def State.noteOwned (s : State) (role : ChunkRole) (e : Nat × Nat) : State :=
  match role with
  | .owner _ => if s.coll.owned.contains e then s else { s with coll := { s.coll with owned := s.coll.owned ++ [e] } }
  | _ => s

/-- A chunk a core contributes takes retain slot `slot` at port `h`, and leaves for the member that gathers it, or goes into this
module's context (R302, R304). -/
def State.keepChunk (s : State) (g : Grp) (x : Shard) (chunk : Nat) (vals : List FVal) (role : ChunkRole) (h slot : Nat)
    (dst : Option (Nat × Nat)) : Offer × State :=
  let k := g.key chunk
  let u := s.withError x.group chunk x.fmt vals
  if u.1 ≠ .ok then (.ends u.1 true, u.2.2)
  else
    let fr := u.2.2.freeIx
    let tag := (List.range 64).map fun i => BitVec.ofNat 8 (Config.freeValue (fr + i))
    let w := (u.2.2.useFree (64 + 1024)).memWrite (s.retainAt h slot) (tag ++ fp32Bytes (fr + 64) u.2.1)
    if w.1 ≠ .ok then (.ends w.1 false, w.2)
    else
      let s := w.2
      let r : Retained :=
        { key := k, slot := slot, format := x.fmt.code, layer := x.layer, scale := (s.layerChoice x.layer).2, attempt := 0
          half := false, signs := [], mag := 0, dst := dst, final := false }
      let y := s.sam h
      let s := s.setSam h { y with retained := y.retained ++ [r] }
      let c := s.encodeFrom h r 0 false u.2.1
      let s := c.2.noteOwned role (x.group, chunk / x.sliceChunks * x.sliceChunks)
      match dst with
      | some (q, r) => (.accepted, s.sendRed q mRchunk r k chunk .ok c.1.bytes)
      | none => (.accepted, s.redInput h g k pathLocal .ok c.1.bytes)

/-- Offer chunk `chunk` of a SHARD, as FP32 values, to its home Samovar. -/
def State.contribute (s : State) (x : Shard) (chunk : Nat) (vals : List FVal) : Offer × State :=
  match s.grp x.group with
  | none => (.ends .unavailable false, s)
  | some g =>
    let s := s.noteSlice x (chunk / x.sliceChunks)
    if (s.myMember g).isNone ∨ g.st = .none ∨ g.st = .failed then (.ends .unavailable false, s)
    else if ¬ g.cfg.formats.testBit (x.fmt.code - 9) then (.ends .malformed false, s)
    else if g.st = .forming then (.waits, s)
    else match s.roleOf g chunk with
      | none => (.ends .unavailable false, s)
      | some role =>
        let home? : Option Nat := match role with | .owner h => some h | .gather h => some h | .peer q _ => q
        let dst : Option (Nat × Nat) := match role with | .peer (some q) r => some (q, r) | _ => none
        match home? with
        | none => (.ends .unavailable false, s)
        | some h =>
          let k := g.key chunk
          if s.portState h = psFenced then (.ends .unavailable false, s)
          else if (s.retainedOf k).isSome then (.accepted, s.bump .samPort h Reg.SAM_DUPLICATES 1)
          else match s.retainSlot h with
            | none => (.waits, s.setSam h { s.sam h with full := true })
            | some slot =>
              let y := s.sam h
              if dst.isNone ∧ (s.ctxOf k).isNone ∧ 4096 ≤ y.ctxs.length then (.waits, s.setSam h { y with ctxFull := true })
              else (s.setSam h { y with ctxFull := false }).keepChunk g x chunk vals role h slot dst

/-- The chunk a core offers: its queue, its SHARD, the chunk's number from chunk_base and its values (R154, R165, R227: that of a
sparse block is its ordinal). An instruction of the engine queue goes before one of the vector queue. -/
def State.offered (s : State) (i : Nat) : Option (Nat × QEntry × Shard × Nat × List FVal) :=
  let eng : Option (Nat × QEntry × Shard × Nat × List FVal) := match s.headOf i 0 with
    | none => none
    | some e =>
      match parseShard (nth 0 e.d 0) with
      | none => none
      | some x =>
        if e.status ≠ Status.ok then none
        else if iOpcode e.word = 0x23 then some (0, e, x, e.item, (s.core i).slot (slotBase e.word + e.item))
        else if e.aux = 1 ∧ iOpcode e.word = 0x22 then
          match s.tensorAt e.d 1 with
          | some a => some (0, e, x, e.item / passesOf a.cols (kpassOf e.word), e.acc)
          | none => none
        else if e.aux = 1 ∧ iOpcode e.word = 0x2A then
          match s.tensorAt e.d 1, s.validated i e.word e.d with
          | some a, some v => some (0, e, x, (nth ⟨0, 0⟩ v.idx (e.item / passesOf a.rows 4096)).ordinal, e.acc)
          | _, _ => none
        else none
  match eng with
  | some r => some r
  | none =>
    match s.headOf i 1 with
    | none => none
    | some e =>
      if iOpcode e.word ≠ 0x40 ∨ e.status ≠ Status.ok then none
      else match parseShard (nth 0 e.d 0), s.tensorAt e.d 1 with
        | some y, some x =>
          let at_ (k : Nat) : FVal :=
            if iFunc e.word = 1 then (if k < x.cols then vredRun 3 ((List.range x.rows).map fun r => s.elem x r k) else fzero)
            else if k < x.count then s.elem x (k / x.cols) (k % x.cols) else fzero
          some (1, e, y, e.item, (List.range 1024).map fun j => at_ (1024 * e.item + j))
        | _, _ => none

/-- Chunks of a VRS. -/
def State.vrsChunks (s : State) (e : QEntry) : Nat :=
  match s.tensorAt e.d 1 with
  | some x => (vrsCount e.word x + 1023) / 1024
  | none => 0

/-- Words that the read-out of the chunk at hand takes: from the wide gradient buffer, or for VRS from the tile store (R100, R115, R165);
none for a chunk that is a tile's result. -/
def State.offerReads (s : State) (i q : Nat) (e : QEntry) (o : StoreObs) : State :=
  if q = 1 then
    let n := match s.tensorAt e.d 1 with
      | some x => min 1024 (vrsCount e.word x - 1024 * e.item) * (if iFunc e.word = 1 then x.rows else 1)
      | none => 0
    s.tsReads i n o.corrected o.double
  else if iOpcode e.word = 0x23 then s.wgbReads i 1024 o.corrected.length o.double
  else s

/-- The offered chunk has been accepted: the instruction goes on. -/
def State.offerDone (s : State) (i q : Nat) (e : QEntry) : State :=
  if q = 1 then
    if e.item + 1 < s.vrsChunks e then s.setHead i 1 { e with item := e.item + 1 } else (s.vecDone i e).retire i 1 .ok false
  else if iOpcode e.word = 0x23 then
    let s := if iFunc e.word % 2 = 1 then s.setCore i ((s.core i).clearSlots (slotBase e.word + e.item) 1) else s
    s.nextItem i e []
  else (s.nextItem i e []).releaseAhead i e.seq

/-- A chunk that a core offers is read out of a store. -/
def QEntry.readsOut (e : QEntry) (q : Nat) : Bool := decide (q = 1) || decide (iOpcode e.word = 0x23)

/-- The Samovar takes the chunk that a core offers, if it can. `o`: what the words of its read-out hold in error; a double-bit error
delivers nothing and fences the core (R37). -/
def State.samovarAccept (s : State) (i : Nat) (o : StoreObs) : State :=
  if ¬ s.coreWorks i then s
  else match s.offered i with
  | none => s
  | some (q, e, x, t, vals) =>
    if e.readsOut q ∧ o.double then (s.offerReads i q e o).fenceCore i csStore
    else
      let r := s.contribute x (x.chunkBase + t) vals
      match r.1 with
      | .waits => r.2
      | .ends st area => r.2.retire i q st area
      | .accepted => ((r.2.offerReads i q e o).govChunk i x.layer vals).offerDone i q e

/-! ## Epochs (R289, R306, R309) -/

/-- The head of queue `q` of a core ends UNAVAILABLE where `hit` holds of it. -/
def State.dropHead (s : State) (i q : Nat) (hit : QEntry → Bool) : State :=
  match s.headOf i q with
  | some e => if hit e then s.retire i q .unavailable false else s
  | none => s

/-- Operand `k` of an instruction is a shard of reduction group `n`. -/
def QEntry.ofGroup (n k : Nat) (e : QEntry) : Bool :=
  match parseShard (nth 0 e.d k) with | some x => decide (x.group = n) | none => false

/-- Instructions of a core that wait on chunks of group `n` end UNAVAILABLE: sends whose chunks are on their way, and RXWAIT. -/
def State.dropHeads (n : Nat) (s : State) (i : Nat) : State :=
  let s := s.dropHead i 0 fun e => [0x22, 0x23, 0x2A].contains (iOpcode e.word) && !e.fresh && e.ofGroup n 0
  let s := s.dropHead i 1 fun e => decide (iOpcode e.word = 0x40) && decide (0 < e.item) && e.ofGroup n 0
  s.dropHead i 3 fun e => decide (iOpcode e.word = 0x41) && decide (e.aux = 1) && e.ofGroup n 1

/-- What is open under the epoch of a group is discarded; instructions of the group that are sending or waiting end
UNAVAILABLE. -/
def State.dropGroup (s : State) (n : Nat) : State :=
  let mine (k : CKey) : Bool := decide (k.group = n)
  let s := (s.coll.fails.filter fun f => mine f.1).foldl (fun s f => s.settleFails f.1 false) s
  let clear (x : Sam) : Sam :=
      { ctxs := x.ctxs.filter fun c => !mine c.key
        retained := x.retained.filter fun r => !mine r.key
        waits := x.waits.filter fun w => !mine w.1
        full := false
        ctxFull := false }
  let s := { s with coll := { s.coll with
    sams := s.coll.sams.map clear
    ended := s.coll.ended.filter fun e => !mine e.key
    sent := s.coll.sent.filter fun e => !mine e.1
    reported := s.coll.reported.filter fun k => !mine k
    owned := s.coll.owned.filter fun o => !decide (o.1 = n)
    shape := s.coll.shape.filter fun o => !decide (o.1 = n) } }
  s.programCores.foldl (State.dropHeads n) s

/-- A group takes a new epoch and begins to form (R309). -/
def State.newEpoch (s : State) (n epoch : Nat) (cfg : GroupCfg) : State :=
  let s := (s.dropGroup n).holdEpoch n epoch
  ((s.setGrp n { cfg := cfg, st := .forming, epoch := epoch, asked := [], confirmed := [] }).keepGroup n).formOne n

/-- The members of a group after a re-formation. -/
def reformed (cfg : GroupCfg) (member rank : Nat) : GroupCfg :=
  { cfg with members := modNth cfg.members member fun m => { m with rank := rank } }

/-! ## RXWAIT (R166) -/

def rxwaitCheck (s : State) (_ : Nat) (w : BitVec 128) (d : List (BitVec 256)) : Status :=
  match parseTensor s.govFormat (nth 0 d 0), parseShard (nth 0 d 1) with
  | some t, some x =>
    let owns := match s.grp x.group with
      | some g => decide (s.myMember g = some (iImm w % g.cfg.members.length))
      | none => false
    firstStatus [(decide (t.fmt ≠ .fp32) || decide (t.count ≠ 1024 * x.sliceChunks), .malformed), (!owns, .denied)]
  | _, _ => .malformed

/-- The reduced sum of the slice an RXWAIT waits for: none while a chunk of it has not ended. -/
def State.sliceSum (s : State) (x : Shard) (slice : Nat) : Option (Status × List FVal) :=
  match (s.grp x.group).bind fun g => s.sliceEnds g x.sliceChunks slice with
  | none => none
  | some es => some ((es.map (·.status)).foldl Status.join .ok, es.flatMap (·.vals))

/-- The contexts of a slice are freed when its sum is delivered (R299). -/
def State.freeSlice (s : State) (x : Shard) (slice : Nat) : State :=
  { s with coll := { s.coll with sams := s.coll.sams.map fun y =>
      { y with ctxs := y.ctxs.filter fun c => !(c.held && decide (c.key.group = x.group ∧ c.key.chunk / x.sliceChunks = slice)) } } }

end Sys2Proof.Machine
end

