-- ==== Sys2Proof/Machine/SipFlits.lean ====
section
/-! DEFINITION. The bytes of a Sip flit (R312, R358, R359): reduction flits and link control flits. -/

namespace Sys2Proof.Machine

/-- 60 bytes closed by their CRC-32C (R358). -/
def sipClose (bs : List Byte) : FlitBytes :=
  let head := padTo 60 bs
  head ++ leBytes 4 (crc32c head).toNat

/-- A reduction flit's bytes (R312). -/
def sipBytes (f : SipFlit) : FlitBytes :=
  sipClose (leBytes 2 f.job.toNat ++ leBytes 1 f.group.toNat ++ leBytes 1 f.epoch.toNat ++ leBytes 2 f.seq.toNat ++
    leBytes 1 (f.op.toNat + 16 * b2n f.down + 32 * f.words) ++ leBytes 1 f.status.code ++ leBytes 4 f.count.toNat ++ zeros 4 ++
    (f.payload.take (f.words + 1)).flatMap fun w => leBytes 4 w.toNat)

/-- A flit's CRC-32C holds. -/
def sipOk (b : FlitBytes) : Bool := decide (leAt b 60 4 = (crc32c (b.take 60)).toNat)

/-- A reduction flit as its bytes give it. -/
def sipOf (b : FlitBytes) : SipFlit :=
  { job := BitVec.ofNat 16 (leAt b 0 2), group := BitVec.ofNat 8 (leAt b 2 1), epoch := BitVec.ofNat 8 (leAt b 3 1)
    seq := BitVec.ofNat 16 (leAt b 4 2), op := BitVec.ofNat 4 (bitsAt b 6 3 0), down := decide (bitsAt b 6 4 4 = 1)
    words := bitsAt b 6 7 5, status := (Status.ofCode (bitsAt b 7 3 0)).getD .malformed
    count := BitVec.ofNat 32 (leAt b 8 4), payload := (List.range 8).map fun k => BitVec.ofNat 32 (leAt b (16 + 4 * k) 4) }

/-- A reduction flit holds no reserved status or operation, and zero in its rsvd fields and unused words (R8, R12, R312). -/
def sipClean (b : FlitBytes) : Bool :=
  (Status.ofCode (bitsAt b 7 3 0)).isSome && decide (bitsAt b 6 3 0 ≤ 3) && decide (bitsAt b 7 7 4 = 0) && decide (leAt b 12 4 = 0) &&
  (((b.take 60).drop (16 + 4 * (bitsAt b 6 7 5 + 1))).all fun x => decide (x = 0))

/-- The kind of a link control flit (R359). -/
def sipKind (b : FlitBytes) : Nat := leAt b 2 1

/-- A link control flit (R359). -/
def sipControl (kind slot rank port : Nat) : FlitBytes :=
  sipClose (leBytes 2 0 ++ leBytes 1 kind ++ leBytes 1 slot ++ leBytes 2 rank ++ leBytes 1 port)

/-- A NAK of the flit in slot `n`. -/
def sipNakFlit (n : Nat) : FlitBytes := sipControl 1 (n % 256) 0 0

/-- What the sender's rank and Sip port are told by. -/
def sipHelloFlit (rank port : Nat) : FlitBytes := sipControl 2 0 rank port

/-- The flit of a slot in which nothing else is sent. -/
def sipIdleFlit : FlitBytes := sipControl 0 0 0 0

/-- A control flit of a kind that R359 assigns, its rsvd fields, and the fields of other kinds, zero. -/
def sipControlClean (b : FlitBytes) : Bool :=
  decide (b.take 60 = (match sipKind b with
    | 0 => sipIdleFlit
    | 1 => sipNakFlit (leAt b 3 1)
    | 2 => sipHelloFlit (leAt b 4 2) (bitsAt b 6 3 0)
    | _ => []).take 60)

end Sys2Proof.Machine
end

