-- ==== Sys2Proof/Machine/Sip.lean ====
section
/-! DEFINITION. Sip groups and the Sip units (R311 to R315, R359, R360): formation, the local combine of a SIPRED, the combine at
the unit, results on their way down, resends, and the governor's exchange over the Sip path (R195, R196). -/

namespace Sys2Proof.Machine

/-! ## Groups -/

def State.sipg (s : State) (g : Nat) : Option SipGrp := Smap.get? s.coll.sips g

def State.setSipg (s : State) (g : Nat) (x : SipGrp) : State := { s with coll := { s.coll with sips := Smap.put s.coll.sips g x } }

/-- The down ports of a group. -/
def SipGroupCfg.downs (c : SipGroupCfg) : List Nat := below 16 c.downMask.testBit

/-- The ports of a Sip group: its up port, which a root has not, and its down ports (R311). -/
def SipGroupCfg.ports (c : SipGroupCfg) : List Nat := ((if c.root then [] else [c.upPort]) ++ c.downs).eraseDups

def State.sipUp (s : State) (p : Nat) : Bool := s.rflag .lnkPort p Reg.LNK_STATUS 11

/-- Ask the partner at a port for its view of group `n`, once. -/
def State.sipFormAsk (n : Nat) (s : State) (p : Nat) : State :=
  match s.sipg n with
  | none => s
  | some g =>
    if g.confirmed.contains p ∨ g.asked.any (fun a => decide (a.1 = p)) ∨ ¬ s.formPort g.job p then s
    else
      let r := s.askForm p n g.epoch g.formView
      match r.1 with
      | none => r.2
      | some t => r.2.setSipg n { g with asked := g.asked ++ [(p, t)] }

/-- Go on with the formation of a Sip group: every Sip port trained, and every neighbour's GFORM answered (R311). -/
def State.sipFormOne (s : State) (n : Nat) : State :=
  match s.sipg n with
  | none => s
  | some g =>
    if g.st ≠ .forming ∨ ¬ g.cfg.ports.all s.sipUp then s
    else
      let s := g.cfg.ports.foldl (State.sipFormAsk n) s
      match s.sipg n with
      | none => s
      | some g => if g.cfg.ports.all g.confirmed.contains then s.setSipg n { g with st := .formed, asked := [] } else s

/-- Go on with every formation under way. -/
def State.formAll (s : State) : State :=
  let s := s.coll.groups.foldl (fun s g => s.formOne g.1) s
  s.coll.sips.foldl (fun s g => s.sipFormOne g.1) s

/-- A Sip group takes a new epoch: its combines are dropped and it forms anew. -/
def State.sipNewEpoch (s : State) (n epoch : Nat) : State :=
  match s.sipg n with
  | none => s
  | some g =>
    let s := s.holdEpoch (256 + n) epoch
    let s := { s with coll := { s.coll with combines := s.coll.combines.filter fun c => !decide (c.group = n) } }
    (s.setSipg n { g with
      st := .forming, epoch := epoch, asked := [], confirmed := [], base := none, moved := false, done := [] }).keepSip n |>.sipFormOne n

/-- The ports a group uses lost what they had asked: GFORM goes out again once the port is back. -/
def State.formAgain (s : State) (p : Nat) : State :=
  let cut (xs : List (Nat × Nat)) : List (Nat × Nat) := xs.filter fun a => !decide (a.1 = p)
  { s with coll := { s.coll with
      groups := s.coll.groups.map (fun g => (g.1, { g.2 with asked := cut g.2.asked }))
      sips := s.coll.sips.map fun g => (g.1, { g.2 with asked := cut g.2.asked }) } }

/-! ## Flits -/

/-- Combine two payloads (R313). -/
def sipCombine (op : Nat) (a b : List (BitVec 32)) : List (BitVec 32) :=
  let wide (xs : List (BitVec 32)) : List Nat := (chunksOf 2 xs).map fun p => (nth 0 p 0).toNat + 2 ^ 32 * (nth 0 p 1).toNat
  match op with
  | 0 => ((wide a).zipWith (· + ·) (wide b)).flatMap fun v => [BitVec.ofNat 32 v, BitVec.ofNat 32 (v / 2 ^ 32)]
  | 1 => a.zipWith (fun x y => if x.toNat < y.toNat then y else x) b
  | 2 => a.zipWith (fun x y => if y.toNat < x.toNat then y else x) b
  | _ => a.zipWith (· ||| ·) b

/-- The payload of a flit, cut or padded to its words. -/
def sipPayload (n : Nat) (xs : List (BitVec 32)) : List (BitVec 32) := (List.range n).map (nth 0 xs)

/-- The next slot of a Sip port, counted from link-up: a slot takes 4 ns, and one that nothing else is sent in carries IDLE (R358,
R360). -/
def State.sipNext (s : State) (p : Nat) : Nat := max (s.port p).sipSlot ((s.now - (s.port p).sipUpAt) / 4)

/-- Send 64 bytes in the next slot. -/
def State.sendSlot (s : State) (p : Nat) (b : FlitBytes) : State :=
  let n := s.sipNext p
  (s.setPort p { s.port p with sipSlot := n + 1 }).send (.sip p (n % 256) b)

/-- Send a reduction flit on a Sip port that is up; those of the last 64 slots are kept for resends (R360). `naks`: NAKs it has met
already. -/
def State.sendSip (s : State) (p : Nat) (f : SipFlit) (naks : Nat) : State :=
  if ¬ s.sipUp p then s
  else
    let x := s.port p
    let n := s.sipNext p
    let x := { x with
      sipSent := Smap.put (Smap.keep (fun k _ => decide (n < k + 64)) x.sipSent) n f
      sipNaks := Smap.set 0 (Smap.keep (fun k _ => decide (n < k + 64)) x.sipNaks) n naks }
    (s.setPort p x).sendSlot p (sipBytes f)

def State.sipStale (s : State) (p : Nat) : State := (s.bump .sipPort p Reg.SIP_STALE 1).raise .sipPort p Reg.SIP_EVENT 1

/-- Remove a waiter and answer whether it was there. -/
def State.dropSipWait (s : State) (w : SipWait) : State :=
  { s with coll := { s.coll with sipWaits := s.coll.sipWaits.filter fun x => !decide (x = w) } }

/-- A SIPRED completes at a core: on OK its result is written first. -/
def State.sipredDone (s : State) (i seq : Nat) (st : Status) (payload : List (BitVec 32)) : State :=
  let i := s.seat i
  match s.headOf i 3 with
  | none => s
  | some e =>
    if e.seq ≠ seq ∨ iOpcode e.word ≠ 0x48 then s
    else
      let s : State := match s.tensorAt e.d 0 with
        | some t => if st = .ok then s.tsWrite i t.base (payload.flatMap fun w => leBytes 4 w.toNat) else s
        | none => s
      s.retire i 3 st false

/-- A result reaches the module (R313): the contributing cores' SIPREDs complete, and a reduction of the exchange is kept for
GOV_EXCHANGE_RESULT. -/
def State.sipResult (s : State) (group seq : Nat) (st : Status) (payload : List (BitVec 32)) : State :=
  let mine := s.coll.sipWaits.filter fun w => decide (w.group = group ∧ w.seq = seq)
  let s := { s with coll := { s.coll with
    sipWaits := s.coll.sipWaits.filter (fun w => !decide (w.group = group ∧ w.seq = seq))
    locals := s.coll.locals.filter fun l => !decide (l.group = group ∧ l.seq = seq) } }
  mine.foldl (fun s w => match w.core with
    | some c => s.sipredDone c.1 c.2 st payload
    | none => match s.coll.exch with
      | none => s
      | some x =>
        let layers := s.layers
        match x.open_.find? fun k => decide ((2 * layers * x.step + k) % 65536 = seq) with
        | none => s
        | some k =>
          { s with coll := { s.coll with exch := some { x with
              open_ := x.open_.filter (fun j => !decide (j = k)), results := x.results ++ [(k, st, payload)] } } }) s

/-- A down flit at a unit (R313, R315): on to the down ports that are up and not fenced, and to the cores. -/
def State.sipDown (s : State) (g : SipGrp) (f : SipFlit) : State :=
  let u := g.cfg.unit
  let s := g.cfg.downs.foldl (fun s q =>
    if s.sipUp q ∧ s.portState q ≠ psFenced then (s.sendSip q { f with down := true } 0).bump .sipPort u Reg.SIP_FLITS_DOWN 1 else s) s
  (s.bump .sipPort u Reg.SIP_FLITS_DOWN 1).sipResult g.cfg.group f.seq.toNat f.status (sipPayload (f.words + 1) f.payload)

/-- Inputs a combine waits for: the module's own, and each down port (R313). -/
def SipGroupCfg.inputs (c : SipGroupCfg) : List Nat := 16 :: c.downs

/-- The oldest open sequence number after combines have completed. -/
def sipAdvance : Nat → Nat → List Nat → Nat × List Nat
  | 0, o, done => (o, done)
  | fuel + 1, o, done => if done.contains o then sipAdvance fuel ((o + 1) % 65536) (done.filter fun d => !decide (d = o)) else (o, done)

/-- All inputs of a combine are in: the flit goes up, or the root checks the count and turns it around. `faults`: how often in a row
the two copies of the combiner differ; after the second time the status is CHECK_FAIL (R313). -/
def State.sipComplete (s : State) (g : SipGrp) (c : Combine) (faults : Nat) : State :=
  let faults := min faults 2
  let n := g.cfg.group
  let u := g.cfg.unit
  let r := sipAdvance 17 (g.base.getD c.seq) (g.done ++ [c.seq])
  let s := s.setSipg n { g with base := some r.1, done := r.2, moved := true }
  let s := { s with coll := { s.coll with combines := s.coll.combines.filter fun d => !decide (d.group = n ∧ d.seq = c.seq) } }
  let s := (s.bump .sipPort u Reg.SIP_OPS 1).bump .sipPort u Reg.SIP_COMBINES (min (faults + 1) 2)
  let s := if faults = 0 then s else (s.bump .sipPort u Reg.SIP_COMBINE_FAILS faults).raise .sipPort u Reg.SIP_EVENT 0
  let c := { c with status := if faults = 2 then c.status.join .checkFail else c.status }
  let miscount := g.cfg.root && !decide (c.count % 2 ^ 32 = g.cfg.modules)
  let s := if miscount then s.raise .sipPort u Reg.SIP_EVENT 3 else s
  let f : SipFlit :=
    { job := BitVec.ofNat 16 g.job, group := BitVec.ofNat 8 n, epoch := BitVec.ofNat 8 g.epoch, seq := BitVec.ofNat 16 c.seq
      op := BitVec.ofNat 4 c.op, down := g.cfg.root, words := c.words - 1
      status := if miscount then c.status.join .checkFail else c.status, count := BitVec.ofNat 32 c.count, payload := c.payload }
  if g.cfg.root then s.sipDown g f
  else if s.sipUp g.cfg.upPort then (s.sendSip g.cfg.upPort f 0).bump .sipPort u Reg.SIP_FLITS_UP 1 else s

/-- The window of open sequence numbers after a number arrives (R315): the oldest open one, or none where it is refused. -/
def State.sipWindow (s : State) (g : SipGrp) (seq : Nat) : Option Nat :=
  match g.base with
  | none => some seq
  | some o =>
    if (seq + 65536 - o) % 65536 ≤ 15 then some o
    else
      let openSeqs := (s.coll.combines.filter fun c => decide (c.group = g.cfg.group)).map (·.seq)
      let below := (o + 65536 - seq) % 65536
      if ¬ g.moved ∧ 1 ≤ below ∧ below ≤ 15 ∧ openSeqs.all (fun q => decide ((q + 65536 - seq) % 65536 ≤ 15)) then some seq else none

/-- An input of a combine: from a down port, or the module's own (16) (R313, R315). Combines stand in the order they opened. -/
def State.sipInput (s : State) (n src : Nat) (f : SipFlit) (faults : Nat) : State :=
  match s.sipg n with
  | none => s
  | some g =>
    let at_ := if src = 16 then g.cfg.unit else src
    let seq := f.seq.toNat
    match s.sipWindow g seq with
    | none => s.sipStale at_
    | some o =>
      let old := s.coll.combines.find? fun c => decide (c.group = n ∧ c.seq = seq)
      let again : Bool := match old with | some c => c.arrived.contains src | none => false
      if g.done.contains seq ∨ again ∨ (old.isNone ∧ 256 ≤ s.sipOpen g.cfg.unit) then s.sipStale at_
      else
        let s := s.setSipg n { g with base := some o }
        let words := f.words + 1
        let c := old.getD
          { group := n, seq := seq, op := f.op.toNat, words := words, payload := [], count := 0, status := .ok, arrived := [] }
        let agree := decide (f.op.toNat = c.op ∧ words = c.words ∧ c.op ≤ 3)
        let p := sipPayload c.words f.payload
        let c := { c with
          arrived := c.arrived ++ [src], count := c.count + f.count.toNat
          status := (c.status.join f.status).join (if agree then .ok else .malformed)
          payload := if c.arrived.isEmpty then p else sipCombine c.op c.payload p }
        if g.cfg.inputs.all c.arrived.contains then s.sipComplete { g with base := some o } c faults
        else
          let put (d : Combine) : Combine := if d.group = n ∧ d.seq = seq then c else d
          { s with coll := { s.coll with
              combines := if old.isSome then s.coll.combines.map put else s.coll.combines ++ [c] } }

/-! ## SIPRED (R167) -/

def sipOp (w : BitVec 128) : Nat := iFunc w % 16
def sipWords (w : BitVec 128) : Nat := bitsOf (iFunc w) 6 4 + 1
def sipGroupOf (w : BitVec 128) : Nat := iImm w % 256
def sipExpected (w : BitVec 128) : Nat := bitsOf (iImm w) 15 8 + 1
def sipSeq (w : BitVec 128) : Nat := iImm w / 65536

/-- What SIPRED checks at issue. -/
def sipredCheck (s : State) (i : Nat) (w : BitVec 128) (d : List (BitVec 256)) : Status :=
  let fits (k : Nat) : Bool := match s.tensorAt d k with
    | some t => ownRange i t.base (4 * sipWords w)
    | none => false
  firstStatus [(decide (3 < sipOp w) || (iFunc w).testBit 7 || (decide (sipOp w = 0) && decide (sipWords w % 2 = 1)) || !fits 0 || !fits 1,
    .malformed), (decide (sipGroupOf w = s.rfield .govMod 0 Reg.GOV_CTRL 31 24), .denied)]

/-- The flit of the module's own contribution. -/
def ownFlit (seq op words : Nat) (payload : List (BitVec 32)) : SipFlit :=
  { job := 0, group := 0, epoch := 0, seq := BitVec.ofNat 16 seq, op := BitVec.ofNat 4 op, down := false, words := words - 1
    status := .ok, count := 1, payload := payload }

/-- The cores that have joined a local combine. -/
def State.joined (s : State) (group seq : Nat) : List (Nat × Nat) :=
  (s.coll.sipWaits.filter fun w => decide (w.group = group ∧ w.seq = seq)).filterMap (·.core)

/-- A SIPRED reaches the head of its stream queue: it waits while the group is FORMING, and otherwise joins its local
combine. -/
def State.startSipred (s : State) (i : Nat) (e : QEntry) : State :=
  let w := e.word
  let n := sipGroupOf w
  let seq := sipSeq w
  match (s.sipg n).map (·.st) with
  | some GrpSt.forming => s
  | some GrpSt.formed =>
    let t := (s.tensorAt e.d 1).getD Tensor.nil
    let payload := (chunksOf 4 (getBytes s.mem t.base (4 * sipWords w))).map fun b => BitVec.ofNat 32 (ofLe b)
    let s := s.tsReads i (sipWords w) [] false
    let s := s.setHead i 3 { e with aux := 1 }
    let old : Option LocalSip := s.coll.locals.find? fun l => decide (l.group = n ∧ l.seq = seq)
    let l : LocalSip := old.getD
      { group := n, seq := seq, op := sipOp w, words := sipWords w, payload := [], expected := sipExpected w, got := 0
        malformed := false }
    let agree := decide (l.op = sipOp w ∧ l.words = sipWords w ∧ l.expected = sipExpected w ∧ l.got < l.expected) && !l.malformed
    let l : LocalSip := { l with
      got := l.got + 1, malformed := !agree
      payload := if l.got = 0 then payload else if agree then sipCombine l.op l.payload payload else l.payload }
    let rest := s.coll.locals.filter fun x => !decide (x.group = n ∧ x.seq = seq)
    if ¬ agree then
      let all := s.joined n seq ++ [(i, e.seq)]
      let s := { s with coll := { s.coll with
        locals := if l.got < l.expected then rest ++ [l] else rest
        sipWaits := s.coll.sipWaits.filter fun x => !decide (x.group = n ∧ x.seq = seq) } }
      all.foldl (fun s c => s.sipredDone c.1 c.2 .malformed []) s
    else
      let s := { s with coll := { s.coll with
        locals := rest ++ [l], sipWaits := s.coll.sipWaits ++ [{ group := n, seq := seq, core := some (i, e.seq) }] } }
      if l.got = l.expected then s.sipInput n 16 (ownFlit seq l.op l.words l.payload) 0 else s
  | _ => s.retire i 3 .unavailable false

/-! ## The exchange (R195, R196) -/

/-- GOV_STATUS shows the exchange (R211). -/
def State.showExchange (s : State) : State :=
  match s.coll.exch with
  | none => s.rbit .govMod 0 Reg.GOV_STATUS 15 false
  | some x =>
    ((s.rset .govMod 0 Reg.GOV_STATUS 63 32 x.step).rbit .govMod 0 Reg.GOV_STATUS 15 true).rset .govMod 0 Reg.GOV_STATUS 11 0
      (x.next / 2)

/-- The operation and words of reduction `k`, from this module's summary of its layer. -/
def Exchange.words (x : Exchange) (k : Nat) : Nat × List (BitVec 32) :=
  let e := GovEntry.ofBytes (nth [] x.summaries (k / 2))
  let w (v : Nat) : List (BitVec 32) := [BitVec.ofNat 32 v, BitVec.ofNat 32 (v / 2 ^ 32)]
  if k % 2 = 0 then (1, [BitVec.ofNat 32 e.gexp, BitVec.ofNat 32 e.wexp])
  else (0, w e.nonzero ++ w e.underE4m3 ++ w e.underE5m2)

/-- A reduction of the exchange has ended non-OK (R196): so has the exchange, and the step FAILED. -/
def State.exchangeFail (s : State) (st : Status) : State :=
  let s := (s.add .govMod 0 Reg.GOV_EXCH_FAILS 1).raise .govMod 0 Reg.GOV_EVENT 2
  let s := { s with coll := { s.coll with
    exch := none, sipWaits := s.coll.sipWaits.filter fun w => w.core.isSome } }
  s.showExchange.stepFail csSip lvRollback st 0

/-- Send the reductions that may be outstanding, at most 16, while a step runs: once the group is FORMED; for a group that is NONE or
FAILED the first ends UNAVAILABLE (R311). -/
def State.pumpExchange (s : State) : Nat → State
  | 0 => s
  | fuel + 1 =>
    match s.coll.exch with
    | none => s
    | some x =>
      let n := s.rfield .govMod 0 Reg.GOV_CTRL 31 24
      let st := ((s.sipg n).map (·.st)).getD .none
      if s.job.st ≠ .running ∨ 2 * s.layers ≤ x.next ∨ 16 ≤ x.open_.length ∨ st = .forming then s
      else if st ≠ .formed then s.exchangeFail .unavailable
      else
        let k := x.next
        let seq := (2 * s.layers * x.step + k) % 65536
        let w := x.words k
        let s : State := { s with coll := { s.coll with
          exch := some { x with next := k + 1, open_ := x.open_ ++ [k] }
          sipWaits := s.coll.sipWaits ++ [{ group := n, seq := seq, core := none }] } }
        (s.sipInput n 16 (ownFlit seq w.1 w.2.length w.2) 0).showExchange.pumpExchange fuel

/-- The exchange's entries go to the governor log, one block of the ring (R194). -/
def State.enterLog (s : State) (x : Exchange) : Status × State :=
  let n := s.layers
  let nat (ws : List Nat) (i : Nat) : Nat := nth 0 ws (2 * i) + 2 ^ 32 * nth 0 ws (2 * i + 1)
  let bytes := (List.range n).flatMap fun l =>
    let a := Smap.get [] x.got (2 * l)
    let b := Smap.get [] x.got (2 * l + 1)
    GovEntry.bytes l { step := x.step % 2 ^ 32, gexp := nth 0 a 0 % 256, wexp := nth 0 a 1 % 256, nonzero := nat b 0
                       underE4m3 := nat b 1, underE5m2 := nat b 2 }
  match areaAddr s.blend.areas 7 (32 * n * (x.step % 17)) with
  | none => (.ok, s)
  | some a => s.memWrite a bytes

/-- A reduction of the exchange has ended. -/
def State.exchangeEnd (s : State) (k : Nat) (st : Status) (payload : List (BitVec 32)) : State :=
  match s.coll.exch with
  | none => s
  | some x =>
    if st ≠ .ok then s.exchangeFail st
    else
      let s := s.add .govMod 0 Reg.GOV_EXCH_REDUCTIONS 1
      let x := { x with got := Smap.put x.got k (payload.map BitVec.toNat) }
      if x.got.length < 2 * s.layers then
        ({ s with coll := { s.coll with exch := some x } }.pumpExchange 16).showExchange
      else
        let r := s.enterLog x
        let s := { r.2 with coll := { r.2.coll with exch := none }, job := { r.2.job with entered := x.step } }
        let s := s.showExchange
        if r.1 = .ok then s else s.stepFail csMemory lvReform r.1 0

end Sys2Proof.Machine
end

