-- ==== Sys2Proof/Machine/Areas.lean ====
section
/-! DEFINITION. The tail of a generation area (R509). -/

namespace Sys2Proof.Machine

/-! ## The tail (R509) -/

def tailBytes : Nat := 0x800000

/-- What a tail holds. `epochs`: the held epochs of groups 0 to 511; `log`: the governor log. -/
structure Tail where
  step : Nat
  dataPos : Nat
  jobEpoch : Nat
  job : Nat
  seed : List Byte
  version : Nat
  root : List Byte
  epochs : List (List Nat)
  counters : List Nat
  summaries : List (List Byte)
  log : List Byte
deriving DecidableEq, Repr

def tailMagic : Nat := 0x4C494154

/-- The first 128 bytes of a tail. -/
def Tail.head (t : Tail) : List Byte :=
  leBytes 4 tailMagic ++ leBytes 1 1 ++ zeros 3 ++ leBytes 8 t.step ++ leBytes 8 t.dataPos ++ leBytes 4 t.jobEpoch ++
  leBytes 2 t.job ++ zeros 2 ++ padTo 32 t.seed ++ leBytes 4 t.version ++ zeros 28 ++ padTo 32 t.root

/-- A bitmap of epochs, 32 bytes. -/
def epochMap (es : List Nat) : List Byte := leBytes 32 (es.eraseDups.foldl (fun a e => a + 2 ^ e) 0)

/-- The physical cores, in core-index order. -/
def physCores : List Nat := (List.range 256).flatMap fun c => (List.range 12).map (coreIdx c)

/-- The parts of a tail that are not all zero, by offset, in whole granules. -/
def Tail.parts (t : Tail) : List (Nat × List Byte) :=
  let whole (bs : List Byte) : List Byte := padTo (alignUp bs.length 64) bs
  [(0, t.head), (0x1000, t.epochs.flatMap epochMap), (0x8000, t.counters.flatMap (leBytes 8)),
   (0x10000, whole (t.summaries.flatMap (padTo 32))), (0x40000, whole t.log)]

/-- Write the parts, and zeros between them and up to the end of the tail. `at_`: what is written so far. -/
def State.writeParts (s : State) (kind base : Nat) : Nat → List (Nat × List Byte) → State
  | at_, [] => s.zeroArea kind (base + at_) (tailBytes - at_)
  | at_, (o, bs) :: ps =>
    let s := s.zeroArea kind (base + at_) (o - at_)
    (s.writeArea kind (base + o) bs).2.writeParts kind base (o + bs.length) ps

/-- The offset of the tail in its generation area; none where the layout gives the area no place for it. -/
def State.tailAt (s : State) (g : Nat) : Option Nat :=
  let n := areaSize s.blend.areas (genKind g)
  if n < tailBytes then none else some (n - tailBytes)

/-- Write the tail of generation area `g`, and mark the area as holding the tail's step (R509, R510). -/
def State.writeTail (s : State) (g : Nat) (t : Tail) : State :=
  match s.tailAt g with
  | none => s
  | some base =>
    ((s.writeParts (genKind g) base 0 t.parts).markArea g (some t.step)).markVersion g t.version

/-- Read the tail of generation area `g`, with a governor log of `layers` layers. -/
def State.readTail (s : State) (g layers : Nat) : Status × Tail × State :=
  let base := (s.tailAt g).getD 0
  let k := genKind g
  let h := s.readArea k base 128
  let e := h.2.2.readArea k (base + 0x1000) 0x4000
  let c := e.2.2.readArea k (base + 0x8000) 0x6000
  let m := c.2.2.readArea k (base + 0x10000) (32 * layers)
  let l := m.2.2.readArea k (base + 0x40000) (544 * layers)
  let b := h.2.1
  (((h.1.join e.1).join c.1).join (m.1.join l.1),
   { step := leAt b 8 8, dataPos := leAt b 0x10 8, jobEpoch := leAt b 0x18 4, job := leAt b 0x1C 2
     seed := (b.drop 0x20).take 32, version := leAt b 0x40 4, root := (b.drop 0x60).take 32
     epochs := (chunksOf 32 e.2.1).map fun x => below 256 (ofLe x).testBit
     counters := (chunksOf 8 c.2.1).map ofLe, summaries := chunksOf 32 m.2.1, log := l.2.1 },
   l.2.2)

/-- The head of a tail is the tail of this job and step (R516). -/
def Tail.fits (b : List Byte) (step job : Nat) : Bool :=
  decide (leAt b 0 4 = tailMagic) && decide (leAt b 8 8 = step) && decide (leAt b 0x1C 2 = job)

/-- A write into a run of a generation area waits under copy-before-overwrite (R513). -/
def State.tailHeld (s : State) (g : Nat) : Bool :=
  match s.tailAt g with
  | none => false
  | some base => s.runsHeld (areaRuns s.blend.areas (genKind g) base tailBytes)

end Sys2Proof.Machine
end

