-- ==== Sys2Proof/Machine/StreamQ.lean ====
section
/-! DEFINITION. The stream queue: the issue of WREQ, WDONE, PUBLISH, RXWAIT and SIPRED (R151, R166, R167, R271), the start of what
stands at the head of a stream queue, and the settling of everything that waits inside the module for what a command changed. -/

namespace Sys2Proof.Machine

/-- An instruction at the head of a stream queue that has not been started and can be. -/
def State.startable (s : State) (i : Nat) : Option (Op × QEntry) :=
  if ¬ s.coreWorks i then none
  else match s.headOf i 3 with
  | none => none
  | some e =>
    if e.aux ≠ 0 ∨ e.status ≠ Status.ok then none
    else match Op.ofCode (iOpcode e.word) with
    | some .wreq => some (.wreq, e)
    | some .publish => some (.publish, e)
    | some .rxwait => some (.rxwait, e)
    | some .sipred =>
      if (s.sipg (sipGroupOf e.word)).map (·.st) = some GrpSt.forming then none else some (.sipred, e)
    | _ => none

/-- Start the instruction at the head of a core's stream queue. -/
def State.startStream (s : State) (i : Nat) : State :=
  match s.startable i with
  | some (.wreq, e) => ((s.setHead i 3 { e with aux := 1 }).startWreq i e).tryDecide
  | some (.publish, e) => (s.setHead i 3 { e with aux := 1 }).startPublish i e
  | some (.rxwait, e) =>
    let s := s.setHead i 3 { e with aux := 1 }
    match parseShard (nth 0 e.d 1) with
    | some x => s.noteSlice x (iImm e.word)
    | none => s
  | some (.sipred, e) => s.startSipred i e
  | _ => s

/-- Start what can be started, at most `fuel` rounds: a queue holds eight instructions. -/
def State.startStreams (s : State) : Nat → State
  | 0 => s
  | fuel + 1 =>
    let cs := s.programCores.filter fun i => (s.startable i).isSome
    if cs.isEmpty then s else (cs.foldl State.startStream s).startStreams fuel

/-- What waited inside the module for a command's effect goes on: inputs that waited for a context, heads of the stream queues, the version decision, WPUBs that
waited for a tag, HELLO on ports bound anew, formations and the exchange. -/
def State.settleStreams (s : State) : State :=
  let s := ((s.rebindAll.samServe.startStreams 9).tryDecide).startStreams 9
  ((s.pumpPubs).formAll.pumpExchange 16).startStreams 9

/-- What WDONE checks at issue: its STREAM. -/
def wdoneCheck (s : State) (_ : Nat) (_ : BitVec 128) (d : List (BitVec 256)) : Status :=
  if (parseStream s.govFormat (nth 0 d 1)).isSome then .ok else .malformed

/-- WREQ (R151, R258). -/
def execWreq (core : Nat) (o : IssueObs) (s : State) : Next := .next (s.issueQ .wreq wreqCheck core o).settleStreams

/-- WDONE (R151): its slots are released when it completes. -/
def execWdone (core : Nat) (o : IssueObs) (s : State) : Next := .next (s.issueQ .wdone wdoneCheck core o).settleStreams

/-- PUBLISH (R151, R271). -/
def execPublish (core : Nat) (o : IssueObs) (s : State) : Next := .next (s.issueQ .publish publishCheck core o).settleStreams

/-- RXWAIT (R166). -/
def execRxwait (core : Nat) (o : IssueObs) (s : State) : Next := .next (s.issueQ .rxwait rxwaitCheck core o).settleStreams

/-- SIPRED (R167). -/
def execSipred (core : Nat) (o : IssueObs) (s : State) : Next := .next (s.issueQ .sipred sipredCheck core o).settleStreams

/-- The common part of every message row: the message arrives on its port (R349) if it is of the row's types, and what waited
goes on. -/
def State.message (s : State) (p : Nat) (m : Msg) (types : List Nat) (handle : State → State) : State :=
  if 16 ≤ p ∨ ¬ types.contains m.type.toNat then s else (s.arrive p m handle).settleStreams

end Sys2Proof.Machine
end

