-- ==== Sys2Proof/Machine/Volts.lean ====
section
/-! DEFINITION. Core voltages and the beat rates they give (R29, R557, R559, R560), and the KTL_DIE registers that show them (R572). -/

namespace Sys2Proof.Machine

/-- The user offset of a calibration item (R445). -/
def State.calibOf (s : State) (item index : Nat) : Int :=
  ((s.blend.calib.find? fun c => decide (c.1 = item ∧ c.2.1 = index)).map fun c => c.2.2).getD 0

/-- The dies that carry a region. -/
def State.regionDies (s : State) (r : Nat) : List Nat := ((s.regionClusters r).map fun c => c / 4).eraseDups

/-- The voltage a die would run at on its own; the ramp of a step start bounds it too (R560). -/
def State.ownVolts (s : State) (d : Nat) : Nat :=
  max s.blend.power.vMin (min (min (min s.ktl.vCap s.ktl.ramp) s.blend.power.vMax) (s.die d).limit)

/-- Every die of each set of dies down to the lowest of the set. -/
def levelSets (sets : List (List Nat)) (vs : List Nat) : List Nat :=
  sets.foldl (fun vs ds =>
    let m := (ds.map fun d => nth 800 vs d).foldl min 800
    ds.foldl (fun vs d => setNth vs d m) vs) vs

/-- Level until nothing changes: dies may be joined through several regions. -/
def levelFuel (sets : List (List Nat)) : Nat → List Nat → List Nat
  | 0, vs => vs
  | fuel + 1, vs =>
    let next := levelSets sets vs
    if next = vs then vs else levelFuel sets fuel next

/-- The core voltage setting of every die, in mV. -/
def State.dieVolts (s : State) : List Nat :=
  levelFuel (s.blend.regions.map fun r => s.regionDies r.1) 64 ((List.range 64).map s.ownVolts)

/-- The beat rates of R557 in M beats/s, by voltage in mV and the six temperatures. -/
def rateTable : List (Nat × List Nat) :=
  [(550, [700, 700, 710, 720, 720, 720]), (600, [850, 860, 870, 880, 880, 870]), (650, [1000, 1010, 1020, 1030, 1020, 1010]),
   (700, [1150, 1160, 1170, 1180, 1160, 1140]), (720, [1220, 1230, 1240, 1250, 1230, 1210]),
   (750, [1310, 1320, 1330, 1340, 1320, 1290]), (800, [1440, 1450, 1460, 1450, 1430, 1400])]

/-- The temperatures of the table, in 1/16 degrees. -/
def rateTemps : List Nat := [160, 400, 720, 1040, 1360, 1600]

/-- The value at `x` between two points, as a fraction: numerator and denominator. -/
def between (x0 x1 : Nat) (x : Nat) (y0 y1 : Int × Int) : Int × Int :=
  -- y0 + (y1 - y0) (x - x0) / (x1 - x0)
  let w : Int := (x1 - x0 : Nat)
  let t : Int := (x - x0 : Nat)
  ((y0.1 * y1.2 * (w - t)) + (y1.1 * y0.2 * t), y0.2 * y1.2 * w)

/-- The rate of a row of the table at a temperature. -/
def rowRate (row : List Nat) (t : Nat) : Int × Int :=
  let k := ((List.range 5).find? fun k => decide (t ≤ nth 0 rateTemps (k + 1))).getD 4
  between (nth 0 rateTemps k) (nth 0 rateTemps (k + 1)) t ((nth 0 row k : Nat), 1) ((nth 0 row (k + 1) : Nat), 1)

/-- The least beat rate R557 promises at a voltage and a temperature inside the table. -/
def leastRate (mv t : Nat) : Int × Int :=
  let k := ((List.range 6).find? fun k => decide (mv ≤ (nth (0, []) rateTable (k + 1)).1)).getD 5
  let a := nth (0, []) rateTable k
  let b := nth (0, []) rateTable (k + 1)
  between a.1 b.1 mv (rowRate a.2 t) (rowRate b.2 t)

/-- The beat rate of a die's factory curve: a free value, at least the table's and at most 4 % above it inside the table (R557). -/
def beatRate (d : Nat) (mv t : Int) : Nat :=
  let free := Config.dieRate d mv t
  if mv < 550 ∨ 800 < mv ∨ t < 160 ∨ 1600 < t then free % 65536
  else
    let r := leastRate mv.toNat t.toNat
    let lo := ((r.1 + r.2 - 1) / r.2).toNat
    let hi := (104 * r.1 / (100 * r.2)).toNat
    lo + free % (hi - lo + 1)

/-- The core rail of a die is on. -/
def Die.coreOn (d : Die) : Bool := d.rails.testBit 3

/-- A power trip awaits release. -/
def State.powerTripped (s : State) : Bool := s.rflag .ktlMod 0 Reg.KTL_STATUS 12

/-- KTL_DIE of a die at a core voltage setting (R572). Without a core rail, voltage and rate read 0. -/
def State.dieWord (s : State) (d set : Nat) : Word :=
  let x := s.die d
  let old := s.peek .ktlMod 0 (Reg.KTL_DIE + 8 * d)
  let mv : Int := (set : Int) + s.calibOf 2 d + Config.dieTrim d
  let t := toSigned 16 (fld old 31 16)
  let on := x.coreOn
  mkWord [(if on then beatRate d mv t else 0, 48), (if on then ofSigned 16 mv else 0, 32), (fld old 31 16, 16), (fld old 15 8, 8),
    (b2n (x.tripped || s.powerTripped), 3), (b2n x.throttled, 2),
    (b2n (on && decide (set = s.ktl.vCap) && decide (s.ktl.vCap < s.blend.power.vMax)), 1), (b2n on, 0)]

/-- The KTL_DIE registers follow the voltages. -/
def State.showDies (s : State) : State :=
  let vs := s.dieVolts
  s.dies.foldl (fun s e => s.poke .ktlMod 0 (Reg.KTL_DIE + 8 * e.1) (s.dieWord e.1 (nth 0 vs e.1))) s

end Sys2Proof.Machine
end

