-- ==== Sys2Proof/Machine/Governor.lean ====
section
/-! DEFINITION. The step from boundary to boundary (R125, R192 to R206): summaries, the choice of formats, the step key, c1 and
c2 of the parameter records, the closing of a step and the start of the next. -/

namespace Sys2Proof.Machine

/-! ## Binary64 (R203) -/

/-- A value rounded to binary64, nearest even. -/
def r64 : FVal → FVal
  | .nan => .nan
  | .inf s => .inf s
  | .fin s 0 _ => .fin s 0 0
  | .fin s m e =>
    let (q, u) := roundMag 52 (-1074) none m e
    if q = 0 then .fin s 0 0
    else if magLt (2 ^ 53 - 1) 971 q u then .inf s
    else .fin s q u

/-- The exact power of a value. -/
def FVal.powX (k : Nat) : FVal → FVal
  | .nan => .nan
  | .inf s => if k = 0 then .fin false 1 0 else .inf (s && k % 2 == 1)
  | .fin s m e => .fin (s && k % 2 == 1) (m ^ k) (e * k)

/-- 1 / x in binary64. -/
def recip64 : FVal → FVal
  | .nan => .nan
  | .inf s => .fin s 0 0
  | .fin s m e =>
    if m = 0 then .inf s
    else
      let sh := 160 + Nat.log2 m
      match r64 (sticky (2 ^ sh / m) (decide (2 ^ sh % m ≠ 0)) (-e - sh)) with
      | .fin _ q u => .fin s q u
      | .inf _ => .inf s
      | v => v

/-- 1 / (1 − beta^s): power, difference and quotient each rounded to binary64, then FP32 (R203). DEDUCED, log entry 41. -/
def biasFactor (beta : FVal) (step : Nat) : FVal :=
  r32 (recip64 (r64 ((FVal.fin false 1 0).addX (r64 (beta.powX step)).neg)))

/-! ## Summaries and choices (R194, R197) -/

/-- A sum of counts of 64 bits, saturating. -/
def satSum (xs : List Nat) : Nat := xs.foldl (satAdd 64) 0

/-- The module's summary of a layer for the step at hand. -/
def State.summaryOf (s : State) (l : Nat) : GovEntry :=
  let gs := s.clusters.map fun c => Smap.get GovAcc.zero c.2.gov l
  { step := s.job.step % 2 ^ 32, gexp := (gs.map (·.gexp)).foldl max 0, wexp := (gs.map (·.wexp)).foldl max 0
    nonzero := satSum (gs.map (·.nonzero)), underE4m3 := satSum (gs.map (·.underE4m3)), underE5m2 := satSum (gs.map (·.underE5m2)) }

/-- Some count of a layer's summary saturates. -/
def State.summarySat (s : State) (l : Nat) : Bool :=
  let gs := s.clusters.map fun c => Smap.get GovAcc.zero c.2.gov l
  let over_ (f : GovAcc → Nat) : Bool := decide (2 ^ 64 ≤ (gs.map f).foldl (· + ·) 0)
  over_ (·.nonzero) || over_ (·.underE4m3) || over_ (·.underE5m2)

/-- The cluster governors hand over: the summaries, by layer, and cleared accumulations. -/
def State.handOver (s : State) : List (List Byte) × State :=
  let sums := (List.range s.layers).map fun l => (s.summaryOf l).bytes l
  let s := if (List.range s.layers).any s.summarySat then s.raise .govMod 0 Reg.GOV_EVENT 3 else s
  (sums, { s with clusters := s.clusters.map fun c => (c.1, { c.2 with gov := [] }) })

/-- The log block of step `k`, read for the choices: its entries by layer, those of another step left out. -/
def State.logBlock (s : State) (k : Nat) : Status × List (Option GovEntry) × State :=
  let n := s.layers
  let r := s.readArea aLog (32 * n * (k % 17)) (32 * n)
  (r.1, (List.range n).map fun l =>
    let bs := (r.2.1.drop (32 * l)).take 32
    let e := GovEntry.ofBytes bs
    if bs.length = 32 ∧ e.step = k % 2 ^ 32 then some e else none, r.2.2)

/-- The log blocks of the window for step `k`: steps k − 17 to k − 2. -/
def State.window (s : State) (k : Nat) : Status × List (List (Option GovEntry)) × State :=
  ((List.range 16).filter fun j => decide (j + 3 ≤ k)).foldl (fun (acc : Status × List (List (Option GovEntry)) × State) j =>
    let r := acc.2.2.logBlock (k - 2 - j)
    (acc.1.join r.1, acc.2.1 ++ [r.2.1], r.2.2)) (Status.ok, [], s)

/-- The choice for one layer (R197). -/
def State.chooseLayer (s : State) (blocks : List (List (Option GovEntry))) (l : Nat) : State :=
  let win := blocks.filterMap fun b => nth none b l
  let o := Reg.GOV_LAYER + 8 * l
  let w := s.peek .govMod 0 o
  let c := s.peek .govMod 0 Reg.GOV_CTRL
  let r := if flag w 63 then (fld w 51 48, fld w 47 40)
    else govChoose (fld c 63 48) (fld c 47 32) (fld c 19 16) (fld w 51 48) (fld w 47 40) win
  let s := if r.1 = fld w 3 0 then s else (s.add .govMod 0 Reg.GOV_FORMAT_CHANGES 1).raise .govMod 0 Reg.GOV_EVENT 0
  s.poke .govMod 0 o (setFld (setFld (setFld w 3 0 r.1) 23 16 r.2) 36 32 win.length)

/-- The governor cannot read its log, or a parameter record: the failure is logged, and no step starts before orders (R484). -/
def State.boundaryFault (s : State) (level : Nat) (st : Status) (item : Nat) : State :=
  let s := s.stepFail csMemory level st item
  { s with job := { s.job with st := .stopped } }

/-- The choices for step `k`. -/
def State.choose (s : State) (k : Nat) : State :=
  let r := s.window k
  let s := (List.range r.2.2.layers).foldl (fun s l => s.chooseLayer r.2.1 l) r.2.2
  let used := (r.2.1.filter fun b => b.any Option.isSome).length
  let s := s.rset .govMod 0 Reg.GOV_STATUS 20 16 used
  if r.1 = .ok then s else s.boundaryFault lvReform r.1 0

/-- Register values written during a step take effect (R17, R206). -/
def State.applyPending (s : State) : State :=
  let s := s.pendRegs.foldl (fun s e => s.pokeAddr e.1 e.2) s
  { s with pendRegs := [] }

/-- c1 and c2 of step `k` in one parameter record. -/
def State.writeBias (s : State) (k : Nat) (a : Area) : State :=
  let r := s.memRead a.base 16
  let at_ (o : Nat) : FVal := biasFactor (val32 (BitVec.ofNat 32 (leAt r.2.1 o 4))) k
  let fr := r.2.2.freeIx
  let bs := leBytes 4 (bits32 fr (at_ 4)).toNat ++ leBytes 4 (bits32 (fr + 1) (at_ 12)).toNat
  let w := if r.1 = .ok then (r.2.2.useFree 2).memWrite (a.base + 0x1C) bs else (r.1, r.2.2)
  if w.1 = .ok then w.2 else w.2.boundaryFault lvRollback w.1 a.inst

/-- Firmware opens step `k` (R203, R204, R88): the factor of ENG_TAU, parameter records, step key, and the generator counters it
keeps. -/
def State.openStep (s : State) (k : Nat) : State :=
  let s := s.rset .engMod 0 Reg.ENG_TAU 41 32 (s.rfield .engMod 0 Reg.ENG_TAU 9 0)
  let s := (s.blend.areas.filter fun a => decide (a.kind = aParams)).foldl (fun s a => s.writeBias k a) s
  let key := hashBytes (shake256 (stepKeyInput s.job.seed k))
  { s with job := { s.job with
      key0 := BitVec.ofNat 64 (leAt key 0 8), key1 := BitVec.ofNat 64 (leAt key 8 8)
      counters := (s.cores.filter fun e => decide (e.2.srCounter ≠ 0)).map fun e => (e.1, e.2.srCounter) } }

/-- The counters kept, for every physical core in core-index order. -/
def Job.counterList (j : Job) : List Nat :=
  physCores.map fun i => ((j.counters.find? fun c => decide (c.1 = i)).map (·.2)).getD 0

/-- The tail of the step at hand (R509), with the summaries given. -/
def State.tailOf (s : State) (summaries : List (List Byte)) (log : List Byte) : Tail :=
  let v := s.wts.firstPub.getD 0
  { step := s.job.step, dataPos := s.job.dataPos, jobEpoch := s.job.epoch, job := s.job.id, seed := s.job.seed, version := v
    root := if s.stageState = 2 ∧ s.stagedVersion = v then ((s.manifestOf v).map (·.root)).getD (zeros 32) else zeros 32
    epochs := (List.range 512).map fun k => Smap.get [] s.coll.epochs k
    counters := s.job.counterList, summaries := summaries, log := log }

/-- An exchange about to run; one without layers is over at once. -/
def State.holdExchange (s : State) (step : Nat) (summaries : List (List Byte)) : State :=
  if s.layers = 0 then { s with coll := { s.coll with exch := none }, job := { s.job with entered := step } }
  else { s with coll := { s.coll with
    exch := some { step := step, summaries := summaries, next := 0, open_ := [], results := [], got := [] } } }

/-- What the reductions of a step have left goes at its boundary, the retained chunks with it (R306). -/
def Coll.endStep (c : Coll) : Coll :=
  { c with
    ended := [], sent := [], reported := [], owned := [], shape := []
    sams := c.sams.map fun x => { x with ctxs := x.ctxs.filter (fun y => !y.held), retained := [], full := false, ctxFull := false } }

/-- The boundary's tail is written, the record cut, and the step counter advanced; what the reductions left goes (R206 step 2). -/
def State.cutStep (s : State) (summaries : List (List Byte)) (log : List Byte) : State :=
  let n := s.job.step
  let s : State := s.writeTail n (s.tailOf summaries log)
  let s : State := (s.cut 1 .ok).stepEnd 1 .ok
  let body := (s.record.slots.getLast?.map (·.body)).getD []
  State.keepJob { s with
    ckp := { s.ckp with shard := setNth s.ckp.shard (n % 2) (padTo 32 (body.drop 0xB0)) }
    job := { s.job with step := n + 1, st := .boundary, sliceHashes := [], slices := [] }
    coll := s.coll.endStep, wts := { s.wts with firstPub := none } }

/-- The slot of the next record is not free (R61). -/
def State.ringFull (s : State) : Bool := s.record.slots.any fun r => decide (r.slot = s.record.nextSlot)

/-- A full ring of records is reported (R61). -/
def State.ringAlert (s : State) : State := if s.ringFull then s.mgtAlert 16 7 0 else s

/-- Steps 2 to 5 of R206 for the module's own state. -/
def State.closeStep (s : State) : State :=
  let c := s.known kwStep (BitVec.ofNat 64 s.job.step)
  let s := c.2
  if s.job.st = .stopped then s
  else
  let n := c.1.toNat
  let h : List (List Byte) × State := s.handOver
  let l : Status × List Byte × State := h.2.readArea aLog 0 (544 * h.2.layers)
  let s : State := (l.2.2.cutStep h.1 l.2.1).holdExchange n h.1
  let s : State := (s.applyPending.choose (n + 1)).openStep (n + 1)
  (if l.1 = .ok then s else s.boundaryFault lvReform l.1 0).ringAlert

/-! ## Step start (R125, R206 step 6) -/

/-- A core as it begins a step (R124). -/
def Core.begin_ (c : Core) : Core :=
  { c with work := c.image, tok := c.initTok, lc := List.replicate 4 0, pc := c.entry, st := .running, waits := .none
           queues := [[], [], [], []], ending := false, batches := [] }

/-- The regions that hold a program. -/
def State.programRegions (s : State) : List Nat := (s.programCores.filterMap s.coreRegion).eraseDups

/-- A fenced core's program waits for a spare. -/
def State.takeoversDue (s : State) : Bool := s.programCores.any fun i => (s.core i).fenced

/-- The module's state; in WARM_IDLE, the state it was entered from (R413, R565). -/
def State.workState (s : State) : Nat := if s.topState = stWarm then s.ktl.warmFrom else s.topState

/-- WARM_IDLE ends (R565). -/
def State.leaveWarm (s : State) : State :=
  if s.topState = stWarm then (s.rbit .ktlMod 0 Reg.KTL_STATUS 10 false).setState s.ktl.warmFrom else s

/-- Step start is held by nothing (R61, R206, R207, R491, R501, R523). Regions that are reset or tripped hold it only with a
program in them (DEDUCED, log entry 42). -/
def State.canStart (s : State) : Bool :=
  let j := s.job
  j.isOpen && decide (j.st = .none ∨ j.st = .boundary) && !j.closing && !j.fencedJob && !s.ckp.stopped &&
  decide (s.health ≠ 2) && !s.ringFull && (j.data.any fun d => decide (d.1 = j.step)) &&
  decide (s.workState = stRunning ∨ s.workState = stDraining) &&
  (s.regions.all fun r => !r.2.draining && (!r.2.drained || r.2.released)) &&
  (s.programRegions.all fun r => !(s.region r).resetting && !(s.region r).tripped) && !s.takeoversDue

/-- The SEQ_EXC registers of a block are cleared. -/
def State.clearExc (s : State) (b : RBlk) (i : Nat) : State :=
  ((s.poke b i Reg.SEQ_EXC 0).poke b i Reg.SEQ_EXC_WORD_LO 0).poke b i Reg.SEQ_EXC_WORD_HI 0

/-- The module controller starts the step at hand on every core that holds a program. -/
def State.startStep (s : State) : State :=
  let n := s.job.step
  let pos := ((s.job.data.find? fun d => decide (d.1 = n)).map (·.2)).getD 0
  let calm (r : Region) : Region :=
    { r with drained := r.drained && !r.released, released := false, barOpen := false, barId := 0, barArrived := [] }
  let clean (c : Cluster) : Cluster :=
    { c with barOpen := false, barId := 0, barArrived := 0, endedMask := 0, batchReps := [], batchDecl := [] }
  let go (c : Core) : Core :=
    let c := { c with excValid := false, recovered := 0 }
    if c.hasProg ∧ ¬ c.fenced ∧ c.powered then c.begin_ else c
  let s : State := s.cores.foldl (fun s e => s.clearExc .seqCore e.1) s
  let s : State := (s.clearExc .seqMod 0).poke .seqMod 0 Reg.SEQ_EXC_CORE 0
  let s : State := { s with
    regions := s.regions.map fun e => (e.1, calm e.2)
    cores := s.cores.map fun e => (e.1, go e.2)
    clusters := s.clusters.map fun e => (e.1, clean e.2)
    job := { s.job with st := .running, data := s.job.data.filter fun d => !decide (d.1 = n), dataPos := pos }
    wts := { s.wts with firstPub := none } }
  s.restState.showExchange

/-- The cores of a step begin together: their voltage ramps up from POWER.v_min (R560). -/
def State.beginRamp (s : State) : State := ({ s with ktl := { s.ktl with ramp := s.blend.power.vMin } } : State).showDies

/-- STEP_START (R125, R206, R560). -/
def execStepStart (s : State) : Next := .next (if s.canStart then s.leaveWarm.startStep.beginRamp.settleStreams else s)

end Sys2Proof.Machine
end

