-- ==== Sys2Proof/Machine/Resume.lean ====
section
/-! DEFINITION. How a job begins, resumes and ends on the module (R203, R413, R497, R515): opening it, returning to a generation
area, closing it, and the rollback order. -/

namespace Sys2Proof.Machine

/-! ## Opening and closing -/

/-- The job seed stands in ENG_SR_SEED. -/
def State.loadSeed (s : State) (seed : List Byte) : State :=
  (List.range 4).foldl (fun s k => s.poke .engMod 0 (Reg.ENG_SR_SEED + 8 * k) (BitVec.ofNat 64 (leAt seed (8 * k) 8))) s

/-- The module state follows a job that opened or closed; the manager hears of the job (R578). -/
def State.jobChanged (s : State) : State :=
  let t := s.restState
  if t.topState = s.topState then t.sendStatus else t

/-- The version decision is due at the next WREQ (R269). -/
def State.decideAgain (s : State) : State := { s with wts := { s.wts with open_ := true, between := false, waitFrom := none } }

/-- A job of this Blend with its step, seed and epoch, nothing run yet. -/
def State.beginJob (s : State) (step : Nat) (seed : List Byte) (epoch entered : Nat) : State :=
  let j : Job := { Job.closed with
    isOpen := true, id := s.blend.job, step := step, seed := seed, epoch := epoch, entered := entered
    lastHash := if s.record.slots.any (fun r => !r.signed) then s.job.lastHash else zeros 32 }
  let s : State := { s with job := j, ckp := { s.ckp with stopped := false } }
  (s.keepJob.keepChain.applyPending.loadSeed seed).decideAgain

/-- The governor log holds nothing (R203). -/
def State.clearLog (s : State) : State :=
  let n := (areaSize s.blend.areas aLog) / 64 * 64
  s.zeroArea aLog 0 (min n (alignUp (544 * s.layers) 64))

/-- JOB_OPEN (R203): the tail of area f − 1, the log, and what firmware does for step f. -/
def State.openJob (s : State) (f : Nat) (seed : List Byte) : State :=
  let s : State := s.beginJob f seed 0 (f - 1)
  let t : Tail :=
    { step := f - 1, dataPos := 0, jobEpoch := 0, job := s.job.id, seed := seed, version := 0, root := zeros 32
      epochs := (List.range 512).map fun k => Smap.get [] s.coll.epochs k
      counters := physCores.map fun i => (s.core i).srCounter, summaries := [], log := zeros (544 * s.layers) }
  let s : State := (s.writeTail (f - 1) t).clearLog
  ((s.choose f).openStep f).jobChanged

/-- The job is closed on the module: held data goes, and the manager hears of it. -/
def State.endJob (s : State) : State :=
  let s : State := { s with
    job := { Job.closed with recordSeq := s.job.recordSeq, lastHash := s.job.lastHash, step := s.job.step }
    coll := { s.coll with exch := none, sipWaits := s.coll.sipWaits.filter fun w => w.core.isSome }
    ckp := { s.ckp with stopped := false } }
  s.keepJob.applyPending.showExchange.jobChanged

/-! ## Resuming from a generation area (R515) -/

/-- The pointers after a return to a generation: its version, with its root if the tail holds one (R273, R515). Version 0
stands for none. -/
def State.setActive (s : State) (version : Nat) (root : List Byte) : State :=
  let s : State := s.cancelWreqs fun _ => true
  let s : State := { s with wts := { s.wts with
    active := if version = 0 then none else some version, activeRoot := root, prior := none, priorRoot := zeros 32, pubs := []
    firstPub := none } }
  ((((s.dropMan false).dropMan true).setStage 0 0 s.stagedVersion []).keepPointers).decideAgain

/-- Epoch sets joined with those held. -/
def State.joinEpochs (s : State) (sets : List (List Nat)) : State :=
  sets.zipIdx.foldl (fun s x => x.1.foldl (fun s e => s.holdEpoch x.2 e) s) s

/-- The generator counters are set from a tail. -/
def State.setCounters (s : State) (cs : List Nat) : State :=
  (physCores.zip cs).foldl (fun s x =>
    let c := s.core x.1
    if c.srCounter = x.2 % 2 ^ 50 then s else s.setCore x.1 { c with srCounter := x.2 % 2 ^ 50 }) s

/-- Take the state of step `r` from the tail of the area that holds step r − 1 (R515 steps 1 to 5), for a job that is open:
step counter, counters, seed, epoch sets, active version; then what firmware does at the boundary that opens step r, and the
exchange of step r − 1 held ready. -/
def State.resumeAt (s : State) (r : Nat) (t : Tail) : State :=
  let s : State := { s with job := { s.job with
    step := r, st := .boundary, seed := t.seed, data := [], dataPos := t.dataPos, sliceHashes := [], slices := []
    entered := r - 2 } }
  let s : State := ((s.keepJob.applyPending.loadSeed t.seed).joinEpochs t.epochs).setCounters t.counters
  let s : State := s.setActive t.version t.root
  let s : State := { s with coll := s.coll.endStep }
  ((s.holdExchange (r - 1) t.summaries).choose r).openStep r

/-- Entries of step `r` and later leave the governor log (R200). -/
def State.trimLog (s : State) (r : Nat) : State :=
  let n := 32 * s.layers
  (List.range 17).foldl (fun s b =>
    let h := s.readArea aLog (n * b) (min n 32)
    let st := leAt h.2.1 4 4
    let stale := decide (h.2.1.length = 32) && decide (r % 2 ^ 32 ≤ st)
    if stale then (h.2.2.writeArea aLog (n * b) (zeros n)).2 else h.2.2) s

/-! ## The rollback order (R497) -/

/-- What a core has under way is dropped, and it stands drained. Its ring slots are free. -/
def Core.halt (c : Core) : Core :=
  if c.hasProg then
    { c with queues := [[], [], [], []], waits := .none, ringHeld := []
             st := match c.st with | .running | .waiting | .draining | .ready => SeqSt.drained | x => x }
  else c

/-- The next epoch a group has not held, counting up from the one in force (R289). -/
def State.nextEpoch (s : State) (k epoch : Nat) : Option Nat :=
  ((List.range 255).map fun i => (epoch + 1 + i) % 256).find? fun e => !(s.heldEpochs k).contains e

/-- Every group of the job forms again under its next epoch, its members unchanged (R309, R497). A group that has held every
epoch cannot, and is FAILED. -/
def State.reformAll (s : State) : State :=
  let s : State := s.coll.groups.foldl (fun s e =>
    match s.grp e.1 with
    | none => s
    | some g => match s.nextEpoch e.1 g.epoch with
      | some x => s.newEpoch e.1 x g.cfg
      | none => ((s.dropGroup e.1).setGrp e.1 { g with st := .failed }).raise .samPort (s.groupHome g) Reg.SAM_EVENT 9) s
  s.coll.sips.foldl (fun s e =>
    match s.sipg e.1 with
    | none => s
    | some g => match s.nextEpoch (256 + e.1) g.epoch with
      | some x => s.sipNewEpoch e.1 x
      | none => s.setSipg e.1 { g with st := .failed }) s

/-- Everything of the step's attempt goes: instructions under way, signals in flight, local combines, the exchange, and what the cluster
governors have gathered (R200). Failures that await their recovery are escalated (R43, R49, R306). -/
def State.dropAttempt (s : State) : State :=
  let s := (s.cores.map (·.1)).foldl State.giveUp s
  let s := s.coll.fails.foldl (fun s f => s.settleFails f.1 false) s
  let s : State := { s with
    cores := s.cores.map fun e => (e.1, e.2.halt)
    clusters := s.clusters.map (fun e => (e.1, { e.2 with held := [], gov := [] }))
    sigs := []
    coll := { s.coll with exch := none, locals := [], sipWaits := [] } }
  s.showExchange

/-- Carry out a rollback order for step `r`: the area of step r − 1 holds it. -/
def State.rollback (s : State) (r : Nat) : State :=
  let s : State := s.abandonStep.dropAttempt.reformAll
  let s : State := s.trimLog r
  let x : Status × Tail × State := s.readTail (r - 1) s.layers
  let v := x.2.2.known (kwVersion (r - 1)) (kwMark (some x.2.1.version))
  let s : State := { v.2 with job := { v.2.job with epoch := v.2.job.epoch + 1 } }
  let s : State := s.resumeAt r { x.2.1 with version := v.1.toNat % 2 ^ 32 }
  let s : State := { s with record := { s.record with rolledBack := true } }
  let s : State := s.add .topMod 0 Reg.TOP_ROLLBACKS 1
  if x.1 = .ok then s else s.boundaryFault lvReform x.1 0
end Sys2Proof.Machine
end

