-- ==== Sys2Proof/Machine/Buddy.lean ====
section
/-! DEFINITION. Buddy copies and handover (R511 to R517, R536): blocks sent and answered, the copy held, and a job taken over by a
spare module. -/

namespace Sys2Proof.Machine

/-- The bytes of a block of an area: 64 KiB, the last as long as the area allows. -/
def blockLen (size block : Nat) : Nat := min 65536 (size - 65536 * block)

/-- The blocks of an area. -/
def blockCount (size : Nat) : Nat := (size + 65535) / 65536

/-- The body of a BCOPY (R355, R512). -/
def bcopyBody (handover : Bool) (off step : Nat) (data : List Byte) : List Byte :=
  leBytes 8 (off + 2 ^ 63 * b2n handover) ++ leBytes 4 (step % 2 ^ 32) ++ zeros 4 ++ data

/-- Show a copy in CKP_BUDDY_SEND or CKP_BUDDY_HOLD (R535). -/
def State.showCopy (s : State) (o step st blocks : Nat) : State :=
  s.poke .ckpMod 0 o (mkWord [(step % 2 ^ 32, 32), (st, 30), (blocks, 0)])

/-- handover_active of CKP_STATUS. -/
def State.showHand (s : State) : State := s.rbit .ckpMod 0 Reg.CKP_STATUS 13 (s.ckp.hand.isSome || s.ckp.recv.isSome)

/-! ## Sending -/

/-- Put a BCOPY on its port; the tag it took, plus 1, or 0 where it could not be sent. Without a free tag it waits (R347). -/
def State.postBlock (s : State) (x : BlockSend) (body : List Byte) : Nat × State :=
  if s.canSend x.port mBcopy ≠ .ok then (0, s)
  else
    let r := s.takeTag x.port .bcopy
    let m := { s.newMsg x.port mBcopy body with req := true, dst := BitVec.ofNat 16 x.rank }
    match r.1 with
    | none => (tagWaiting, r.2.setPort x.port { r.2.port x.port with tagq := (r.2.port x.port).tagq ++ [(.bcopy, m)] })
    | some t => (t + 1, r.2.post x.port { m with tag := BitVec.ofNat 14 t })

/-- The area a copy is read from: the generation area of its step, or the BUDDY area. -/
def BlockSend.area (x : BlockSend) (handover : Bool) : Nat := if handover then aBuddy else genKind x.step

/-- Send the block that a copy stands at, or the commit past the last. Answers whether the block could be read. -/
def State.sendBlock (s : State) (x : BlockSend) (handover : Bool) : Status × BlockSend × State :=
  let k := x.area handover
  let size := areaSize s.blend.areas k
  if blockCount size ≤ x.block then
    let r := s.postBlock x (bcopyBody handover 0 x.step [])
    (.ok, { x with tag := r.1 }, r.2)
  else
    let d := s.readArea k (65536 * x.block) (blockLen size x.block)
    if d.1 ≠ .ok then (d.1, { x with tag := 0 }, d.2.2)
    else
      let r := d.2.2.postBlock x (bcopyBody handover (65536 * x.block) x.step d.2.1)
      (.ok, { x with tag := r.1 }, r.2)

/-- The module's own copy goes on with the block it stands at. A block that cannot be read ends it (R484). -/
def State.goCopy (s : State) (x : BlockSend) : State :=
  let r : Status × BlockSend × State := s.sendBlock x false
  let s : State := { r.2.2 with ckp := { r.2.2.ckp with send := some r.2.1 } }
  if r.1 = .ok then s
  else
    let s : State := { s with ckp := { s.ckp with send := none } }
    ((s.showCopy Reg.CKP_BUDDY_SEND x.step 0 x.block).raise .ckpMod 0 Reg.CKP_EVENT 10).stepFail csMemory lvReform r.1 x.step

/-- The partner does not take BCOPY: every attempt would complete with VERSION (R350). -/
def State.copyRefused (s : State) : Bool := decide (s.canSend s.blend.buddy.sendPort mBcopy = .version)

/-- Begin the copy of the area of step `n`; its attempts fail at once where the partner does not take BCOPY. -/
def State.beginCopy (s : State) (n : Nat) : State :=
  let b := s.blend.buddy
  if s.copyRefused then (s.showCopy Reg.CKP_BUDDY_SEND n 0 0).raise .ckpMod 0 Reg.CKP_EVENT 10
  else
  (s.showCopy Reg.CKP_BUDDY_SEND n 1 0).goCopy
    { port := b.sendPort, step := n, block := 0, tries := 0, tag := 0, rank := b.sendRank }

/-- The boundary that closes step `n` starts a copy; one that still runs goes first (DEDUCED, log entry 44). -/
def State.boundaryCopy (s : State) (n : Nat) : State :=
  if ¬ s.blend.buddy.hasSend ∨ areaSize s.blend.areas (genKind n) = 0 then s
  else if s.ckp.send.isSome then { s with ckp := { s.ckp with guard := s.ckp.guard ++ [(n, 0)] } }
  else s.beginCopy n

/-- A copy is over; the next that waits begins. -/
def State.nextCopy (s : State) : State :=
  let s : State := { s with ckp := { s.ckp with send := none } }
  match s.ckp.guard with
  | [] => s
  | g :: rest => ({ s with ckp := { s.ckp with guard := if s.copyRefused then [] else rest } } : State).beginCopy g.1

/-- A block of the own copy is acknowledged OK, or the commit is. -/
def State.copyAcked (s : State) (x : BlockSend) : State :=
  let size := areaSize s.blend.areas (genKind x.step)
  if blockCount size ≤ x.block then (s.showCopy Reg.CKP_BUDDY_SEND x.step 2 x.block).nextCopy
  else
    let s : State := s.add .ckpMod 0 Reg.CKP_BCOPY_SENT 1
    (s.showCopy Reg.CKP_BUDDY_SEND x.step 1 (x.block + 1)).goCopy { x with block := x.block + 1, tries := 0 }

/-- An attempt at a block fails: it is sent again; the third failure ends the copy (R511). -/
def State.copyFailed (s : State) (x : BlockSend) : State :=
  if x.tries + 1 < 3 then s.goCopy { x with tries := x.tries + 1 }
  else ((s.showCopy Reg.CKP_BUDDY_SEND x.step 0 x.block).raise .ckpMod 0 Reg.CKP_EVENT 10).nextCopy

/-- This module's holder is lost (R517). -/
def State.holderLost (s : State) : State :=
  let s : State := { s with ckp := { s.ckp with send := none, guard := [] } }
  ((s.rset .ckpMod 0 Reg.CKP_BUDDY_SEND 31 30 0).raise .ckpMod 0 Reg.CKP_EVENT 9).mgtAlert 15 63 9

/-! ## Handover, on the holder -/

/-- A handover ends with a status that is not OK; the copy held is unchanged (R517). -/
def State.handEnds (s : State) (st : Status) : State :=
  let s : State := { s with ckp := { s.ckp with hand := none } }
  let s : State := s.showHand.raise .ckpMod 0 Reg.CKP_EVENT 7
  if st = .dataErr then s.stepFail csMemory lvOperator st 0 else s

/-- Go on with a handover. -/
def State.goHand (s : State) (x : BlockSend) : State :=
  let r : Status × BlockSend × State := s.sendBlock x true
  if r.1 ≠ .ok then r.2.2.handEnds r.1
  else ({ r.2.2 with ckp := { r.2.2.ckp with hand := some r.2.1 } } : State).showHand

/-- The spare answers OK. -/
def State.handAcked (s : State) (x : BlockSend) : State :=
  if blockCount (areaSize s.blend.areas aBuddy) ≤ x.block then
    let s : State := { s with ckp := { s.ckp with hand := none } }
    (s.showHand.add .ckpMod 0 Reg.CKP_HANDOVERS 1).raise .ckpMod 0 Reg.CKP_EVENT 6
  else (s.add .ckpMod 0 Reg.CKP_BCOPY_SENT 1).goHand { x with block := x.block + 1, tries := 0 }

/-- A write of CKP_HANDOVER (R517, R536). A hold state NONE counts as FILLING does (DEDUCED, log entry 44). -/
def State.wrHandover (s : State) (v : Word) : Status × State :=
  let p := fld v 35 32
  let rank := fld v 15 0
  let h := s.peek .ckpMod 0 Reg.CKP_BUDDY_HOLD
  let want := (s.peek .ckpMod 0 Reg.CKP_HANDOVER_STEP).toNat % 2 ^ 32
  if ¬ flag v 63 then (.ok, s)
  else
    let st := firstStatus [(decide (s.canSend p mBcopy = .version), .version),
      (!(decide (s.portRole p = 3) && decide (s.expectRank p = rank)), .denied),
      (decide (fld h 31 30 = 2) && decide (fld h 63 32 ≠ want), .denied), (s.ckp.hand.isSome || s.ckp.recv.isSome, .busy),
      (decide (fld h 31 30 ≠ 2), .unavailable)]
    (st, if st = .ok then
        s.goHand { port := p, step := fld h 63 32, block := 0, tries := 0, tag := 0, rank := rank }
      else s)

/-! ## Answers -/

/-- The request under a tag ends with a status. -/
def State.bcopyEnds (s : State) (p tag : Nat) (st : Status) : State :=
  let mine (x : BlockSend) : Bool := decide (x.port = p ∧ x.tag = tag + 1)
  match s.ckp.send.filter mine, s.ckp.hand.filter mine with
  | some x, _ => if st = .ok then s.copyAcked { x with tag := 0 } else s.copyFailed { x with tag := 0 }
  | none, some x => if st = .ok then s.handAcked { x with tag := 0 } else s.handEnds st
  | none, none => s

/-- BACK (R511). -/
def State.backIn (s : State) (p : Nat) (m : Msg) : State :=
  let t := m.tag.toNat
  if ¬ m.resp ∨ s.tagUse p t ≠ some .bcopy then s.lateReply p m else (s.freeTag p t).bcopyEnds p t m.st

/-- No BACK within 1 ms, for what is being sent on a port (R511). -/
def State.bcopyLate (s : State) (p : Nat) : State :=
  let hold (s : State) (x : BlockSend) : State :=
    if x.tag = 0 then s
    else if x.tag = tagWaiting then s.setPort p { s.port p with tagq := (s.port p).tagq.filter fun q => !decide (q.1 = .bcopy) }
    else s.holdTag p (x.tag - 1)
  match s.ckp.send.filter (fun x => decide (x.port = p)), s.ckp.hand.filter (fun x => decide (x.port = p)) with
  | some x, _ => (hold s x).copyFailed { x with tag := 0 }
  | none, some x =>
    if x.tries + 1 < 3 then (hold s x).goHand { x with tries := x.tries + 1 } else (hold s x).handEnds .timeout
  | none, none => s

/-! ## The copy held (R512) -/

/-- The rank that stands in the place of hold_rank after a re-formation (R309). -/
def State.holdFaces (s : State) : List Nat :=
  let b := s.blend.buddy
  b.holdRank :: s.blend.groups.filterMap fun g => match g.members.findIdx? (fun m => decide (m.rank = b.holdRank)), s.grp g.group with
    | some k, some x => (x.cfg.members[k]?).map (·.rank)
    | _, _ => none

/-- Blocks may come on this port. -/
def State.holdsOn (s : State) (p : Nat) : Bool :=
  let b := s.blend.buddy
  b.hasHold && (decide (p = b.holdPort) || (decide (s.portRole p = 3) && (s.holdFaces.drop 1).contains (s.expectRank p)))

/-- Answer a BCOPY. -/
def State.backTo (s : State) (p : Nat) (m : Msg) (st : Status) : State :=
  if m.req then s.post p (s.replyMsg p m mBack st []) else s

/-- A block, or the commit, of the copy this module holds. -/
def State.holdIn (s : State) (p : Nat) (m : Msg) : State :=
  let off := leAt m.body 0 8 % 2 ^ 49
  let step := leAt m.body 8 4
  let data := m.body.drop 16
  let size := areaSize s.blend.areas aBuddy
  let h := s.peek .ckpMod 0 Reg.CKP_BUDDY_HOLD
  let fresh := decide (fld h 31 30 = 0) || decide (fld h 63 32 ≠ step)
  if ¬ s.holdsOn p then s.backTo p m .denied
  else if size < off + data.length then s.backTo p m .malformed
  else if data.isEmpty then
    if fresh ∨ ¬ (List.range (blockCount size)).all s.ckp.holdBlocks.contains then s.backTo p m .malformed
    else (s.rset .ckpMod 0 Reg.CKP_BUDDY_HOLD 31 30 2).keepHold.backTo p m .ok
  else
    let s : State := if fresh then
        ({ s with ckp := { s.ckp with holdBlocks := [] } } : State).showCopy Reg.CKP_BUDDY_HOLD step 1 0 |>.keepHold else s
    let w := s.writeArea aBuddy off data
    if w.1 ≠ .ok then w.2.backTo p m w.1
    else
      let s : State := w.2.add .ckpMod 0 Reg.CKP_BCOPY_RECV 1
      let k := off / 65536
      let whole := decide (off % 65536 = 0) && decide (data.length = blockLen size k)
      let s : State := if whole && !s.ckp.holdBlocks.contains k then
          { s with ckp := { s.ckp with holdBlocks := s.ckp.holdBlocks ++ [k] } } else s
      (s.rset .ckpMod 0 Reg.CKP_BUDDY_HOLD 29 0 s.ckp.holdBlocks.length).backTo p m .ok

/-! ## Handover, on the spare (R516) -/

/-- Open the Blend's job at step `r` from a tail: the log comes with it. -/
def State.openFrom (s : State) (r : Nat) (t : Tail) : State :=
  let s : State := s.beginJob r t.seed (t.jobEpoch + 1) (r - 2)
  ((s.writeArea aLog 0 t.log).2.resumeAt r t).jobChanged

/-- The commit of a handover: the tail decides. -/
def State.takeJob (s : State) (p : Nat) (m : Msg) (step : Nat) : State :=
  let s : State := ({ s with ckp := { s.ckp with recv := none } } : State).showHand
  let base := (s.tailAt step).getD 0
  let h : Status × List Byte × State := s.readArea (genKind step) base 128
  let full := leAt h.2.1 8 8
  if h.1 ≠ .ok then h.2.2.backTo p m h.1
  else if full % 2 ^ 32 ≠ step ∨ ¬ Tail.fits h.2.1 full s.blend.job then h.2.2.backTo p m .checkFail
  else
    let x : Status × Tail × State := h.2.2.readTail step s.layers
    if x.1 ≠ .ok then x.2.2.backTo p m x.1
    else
      let s : State := x.2.2.openFrom (full + 1) x.2.1
      ((s.markArea full (some full)).markVersion full x.2.1.version).backTo p m .ok

/-- A block, or the commit, with the handover flag. -/
def State.handIn (s : State) (p : Nat) (m : Msg) : State :=
  let off := leAt m.body 0 8 % 2 ^ 49
  let step := leAt m.body 8 4
  let data := m.body.drop 16
  let cfg := s.peek .cfgMod 0 Reg.CFG_STATUS
  if s.topState ≠ stReady ∨ s.job.isOpen ∨ s.blend.job = 0 ∨ flag cfg 0 then s.backTo p m .denied
  else if areaSize s.blend.areas (genKind step) < off + data.length then s.backTo p m .malformed
  else if data.isEmpty then s.takeJob p m step
  else
    let blocks := match s.ckp.recv with | some (q, t, bs) => if q = p ∧ t = step then bs else [] | none => []
    let w := s.writeArea (genKind step) off data
    let s : State := w.2.markArea step none
    let s : State := { s with ckp := { s.ckp with recv := some (p, step, blocks ++ [off / 65536]) } }
    let s : State := if w.1 = .ok then s.add .ckpMod 0 Reg.CKP_BCOPY_RECV 1 else s
    s.showHand.backTo p m w.1

/-- BCOPY, with or without the flag. -/
def State.bcopyIn (s : State) (p : Nat) (m : Msg) : State :=
  if leAt m.body 0 8 / 2 ^ 63 % 2 = 1 then s.handIn p m else s.holdIn p m

/-- A BCOPY carries the handover flag. -/
def showsHandover (m : Msg) : Bool := decide (leAt m.body 0 8 / 2 ^ 63 % 2 = 1)

/-- BCOPY (R512). -/
def execBcopy (port : Nat) (m : Msg) (s : State) : Next :=
  .next (if showsHandover m then s else s.message port m [mBcopy] fun s => s.holdIn port m)

/-- BCOPY_HANDOVER (R516). -/
def execBcopyHandover (port : Nat) (m : Msg) (s : State) : Next :=
  .next (if ¬ showsHandover m then s else s.message port m [mBcopy] fun s => s.handIn port m)

/-- BACK (R511). -/
def execBack (port : Nat) (m : Msg) (s : State) : Next := .next (s.message port m [mBack] fun s => s.backIn port m).flushErr.settleStreams

/-- BCOPY_TIMEOUT (R511). -/
def execBcopyTimeout (port : Nat) (s : State) : Next := .next (if 16 ≤ port then s else (s.bcopyLate port).flushErr.settleStreams)

/-- CKP_HANDOVER (R516, R517, R536). -/
def execCkpHandover (_ : Writer) (v : Word) (s : State) : Next :=
  .next (let r := s.wrHandover v; r.2.answer r.1)

end Sys2Proof.Machine
end

