-- ==== Sys2Proof/Machine/Controls.lean ====
section
/-! DEFINITION. The control registers that the Blend loads or that software writes as a whole (R446): which values their tables
accept, and when a write takes effect (R17, R207). -/

namespace Sys2Proof.Machine

/-- A write under mask `m` puts 0 into field [hi:lo] of `w`. -/
def putsZero (w m : Word) (hi lo : Nat) : Bool := flag m lo && decide (fld w hi lo = 0)

/-- What a control register answers to becoming `w`, where the write covers the bits of `m`. `role`: the role of each port. -/
def ctrlStatus (role : Nat → Nat) (b : RBlk) (o : Nat) (w m : Word) : Status :=
  let zero (hi lo : Nat) : Bool := putsZero w m hi lo
  let bad : Bool := match b with
    | .hifMod => decide (o = Reg.HIF_CTRL) && flag m 32 && !(decide (1 ≤ fld w 39 32) && decide (fld w 39 32 ≤ 64))
    | .topMod => decide (o = Reg.TOP_FAULT_CTRL) && (zero 55 48 || decide (fld w 47 16 = 0) || zero 11 0)
    | .seqMod => decide (o = Reg.SEQ_CTRL) && zero 31 0
    | .engMod => decide (o = Reg.ENG_TAU) && zero 9 0
    | .govMod => decide (o = Reg.GOV_CTRL) && flag m 16 && decide (8 < fld w 19 16)
    | .infMod => decide (o = Reg.INF_CTRL) && (zero 55 48 || zero 47 32 || zero 19 16 || zero 15 0)
    | .samMod => decide (o = Reg.SAM_CTRL) && (zero 31 16 || zero 15 0)
    | .sipMod => decide (o = Reg.SIP_CTRL) && zero 31 0
    | .lnkMod => decide (o = Reg.LNK_CTRL) && (zero 47 32 || zero 31 24 || zero 23 16 || zero 15 8)
    | .memMod => decide (o = Reg.MEM_CTRL) && (zero 55 48 || zero 47 32 || zero 31 0)
    | .scrMod => decide (o = Reg.SCR_CTRL) && (zero 31 16 || zero 15 0)
    | .ckpMod => decide (o = Reg.CKP_CTRL) && (zero 31 16 || zero 7 0)
    | .ktlMod => decide (o = Reg.KTL_CTRL) &&
        (zero 39 32 || decide (fld w 15 8 ≤ fld w 23 16) || decide (100 < fld w 15 8) || decide (fld w 15 8 < 60))
    | .mgtMod => decide (o = Reg.MGT_CTRL) && (zero 47 32 || zero 31 16 || zero 15 0)
    | _ => false
  if bad then .malformed
  else if b = .infMod ∧ o = Reg.INF_CTRL ∧ flag m 28 ∧ role (fld w 31 28) ≠ 2 then .denied
  else .ok

/-- Registers loaded from the Blend whose writes wait for the step boundary (R87, R175, R208, R278, R318, R325). -/
def heldToBoundary (b : RBlk) (o : Nat) : Bool :=
  match b with
  | .engMod => decide (o = Reg.ENG_CTRL)
  | .seqMod => decide (o = Reg.SEQ_CTRL)
  | .govMod => decide (o = Reg.GOV_CTRL)
  | .infMod => decide (o = Reg.INF_CTRL)
  | .samMod => decide (o = Reg.SAM_CTRL)
  | .sipMod => decide (o = Reg.SIP_CTRL)
  | _ => false

/-- A step runs, or its boundary has passed and the next has not started (R17, R207). -/
def State.inStep (s : State) : Bool := decide (s.job.st = .running) || decide (s.job.st = .boundary)

/-- A control register takes the value `w`, at the next step boundary, or at once: then no older value is pending any more. -/
def State.putCtrl (s : State) (b : RBlk) (o : Nat) (w : Word) : State :=
  let a := blockBase b 0 + o
  if heldToBoundary b o ∧ s.inStep then { s with pendRegs := Smap.put s.pendRegs a w }
  else { s with pendRegs := Smap.del s.pendRegs a }.poke b 0 o w

/-- A write under mask `m` of a control register by host software or firmware. One that is refused changes nothing. -/
def State.wrCtrl (s : State) (b : RBlk) (r : RegDef) (v m : Word) : Status × State :=
  let w := r.written (s.shown b 0 r.off) v m
  let st := ctrlStatus s.portRole b r.off w m
  if st ≠ .ok then (st, s) else (.ok, s.putCtrl b r.off w)

/-- The module-level registers that a Blend's CONTROLS may name, by block index and offset (R446). -/
def blendControls : List (RBlk × Nat) :=
  [(.engMod, Reg.ENG_CTRL), (.engMod, Reg.ENG_TAU), (.seqMod, Reg.SEQ_CTRL), (.govMod, Reg.GOV_CTRL), (.infMod, Reg.INF_CTRL),
   (.samMod, Reg.SAM_CTRL), (.sipMod, Reg.SIP_CTRL), (.lnkMod, Reg.LNK_CTRL), (.memMod, Reg.MEM_CTRL), (.scrMod, Reg.SCR_CTRL)]

end Sys2Proof.Machine
end

