-- ==== Sys2Proof/Machine/BlendImage.lean ====
section
/-! DEFINITION. The Blend image (R426 to R447): its header, its sections, what makes each of them MALFORMED, and the Blend it
describes. -/

namespace Sys2Proof.Machine

/-! ## Faults of a load (R449, R458) -/

/-- The reasons of CFG_ERR. -/
def rnHeader : Nat := 0x1
def rnVersion : Nat := 0x2
def rnRead : Nat := 0x3
def rnCheck : Nat := 0x4
def rnSign : Nat := 0x5
def rnOrder : Nat := 0x6
def rnField : Nat := 0x7
def rnCross : Nat := 0x8
def rnScope : Nat := 0x9
def rnEpoch : Nat := 0xA

/-- The first fault of a load: how it ends, and what CFG_ERR records. -/
structure LoadFault where
  status : Status
  reason : Nat
  offset : Nat
  section_ : Nat
  type : Nat
deriving DecidableEq, Repr

/-- CFG_ERR for a fault. -/
def LoadFault.word (f : LoadFault) : Word :=
  mkWord [(f.offset % 2 ^ 32, 32), (f.section_ % 65536, 16), (f.type % 256, 8), (f.reason, 0)]

/-- A fault of the header or the trailer. -/
def headFault (st : Status) (reason offset : Nat) : LoadFault :=
  { status := st, reason := reason, offset := offset, section_ := 0, type := 0 }

/-- A rule: whether it holds, and the reason and place (within the payload) of the fault if it does not. -/
abbrev Rule := Bool × Nat × Nat

/-- The first rule broken. -/
def firstBroken (rs : List Rule) : Option (Nat × Nat) := (rs.find? fun r => !r.1).map (·.2)

/-! ## Header (R426, R427, R432) -/

/-- Bytes after the body: the check word, and the key and signature of a signed image. -/
def trailerBytes (signed : Bool) : Nat := if signed then 5293 else 32

def imgPartial (h : List Byte) : Bool := decide (bitsAt h 5 4 4 = 1)
def imgSigned (h : List Byte) : Bool := decide (bitsAt h 5 5 5 = 1)
def imgSections (h : List Byte) : Nat := leAt h 6 2

/-- The body end B. -/
def imgBody (h : List Byte) : Nat := leAt h 8 4 - trailerBytes (imgSigned h)

/-- The fault of a header, for a command that names `length` bytes and loads a partial Blend or a full one. -/
def headerFault (h : List Byte) (length : Nat) (partial_ : Bool) : Option LoadFault :=
  let lo := bitsAt h 5 1 0
  let hi := bitsAt h 5 3 2
  let rules : List (Bool × Nat) :=
    [(decide (leAt h 0 4 = 0x444E4C42), 0), (decide (bitsAt h 5 7 6 = 0), 5), (allZero ((h.drop 0x0C).take 20), 0x0C),
     (decide (imgSections h ≠ 0), 6),
     (decide (leAt h 8 4 = length ∧ length ≤ 0x40000000 ∧ 0x20 + trailerBytes (imgSigned h) ≤ length), 8),
     (decide (lo ≠ 0 ∧ hi ≠ 0 ∧ lo ≤ hi), 5), (decide (imgPartial h = partial_), 5)]
  match rules.find? fun r => !r.1 with
  | some r => some (headFault .malformed rnHeader r.2)
  | none =>
    if leAt h 4 1 ≠ 1 then some (headFault .version rnVersion 4)
    else if 1 < lo then some (headFault .version rnVersion 5)
    else none

/-- The check word over a body (R430). -/
def imgCheck (img : List Byte) : List Byte := hashBytes (shake256 (img.take (imgBody img)))

/-- The context of a Blend's signature, ASCII "CW1-BLD". -/
def blendContext : List Byte := [0x43, 0x57, 0x31, 0x2D, 0x42, 0x4C, 0x44]

/-- The fault of the check word, then of key and signature, with the owner key hash of a sealed module (R430). -/
def sealFault (img : List Byte) (owner : Option Hash) : Option LoadFault :=
  let b := imgBody img
  let key := (img.drop (b + 32)).take 1952
  let sig := (img.drop (b + 1984)).take 3309
  if (img.drop b).take 32 ≠ imgCheck img then some (headFault .checkFail rnCheck b)
  else if ¬ imgSigned img then (if owner.isSome then some (headFault .denied rnSign b) else none)
  else if owner.isSome ∧ owner ≠ some (shake256 key) then some (headFault .denied rnSign (b + 32))
  else if ¬ Config.mldsaVerify key blendContext (img.take (b + 32)) sig then some (headFault .denied rnSign (b + 1984))
  else none

/-! ## Sections (R428, R429) -/

/-- A section: position from 1, type, offset of its payload in the image, payload. -/
structure Sect where
  pos : Nat
  type : Nat
  at_ : Nat
  body : List Byte
deriving DecidableEq, Repr

def Sect.fault (x : Sect) (reason rel : Nat) : LoadFault :=
  { status := .malformed, reason := reason, offset := x.at_ + rel, section_ := x.pos, type := x.type }

def tTopology : Nat := 0x1
def tRegions : Nat := 0x2
def tStages : Nat := 0x3
def tProgram : Nat := 0x4
def tRoutes : Nat := 0x5
def tPorts : Nat := 0x6
def tGroups : Nat := 0x7
def tSipGroups : Nat := 0x8
def tBuddy : Nat := 0x9
def tMemory : Nat := 0xA
def tPower : Nat := 0xB
def tCalibration : Nat := 0xC
def tControls : Nat := 0xD

/-- The sections that lie in the bytes from `off` to the body end, without gaps; or the one whose header fails. -/
def walkSections (img : List Byte) (stop : Nat) : Nat → Nat → Nat → Except LoadFault (List Sect)
  | 0, _, _ => .ok []
  | fuel + 1, pos, off =>
    if stop ≤ off then .ok []
    else
      let n := leAt img (off + 4) 4
      let x : Sect := { pos := pos, type := leAt img off 2, at_ := off + 8, body := (img.drop (off + 8)).take n }
      let f (reason rel : Nat) : LoadFault := { x.fault reason 0 with offset := off + rel }
      if stop < off + 8 ∨ n % 8 ≠ 0 ∨ stop < off + 8 + n then .error (f rnOrder 4)
      else if leAt img (off + 2) 2 ≠ 0 then .error (f rnField 2)
      else match walkSections img stop fuel (pos + 1) (off + 8 + n) with
        | .error e => .error e
        | .ok xs => .ok (x :: xs)

/-- The order key within a type that may repeat: core index or die. -/
def Sect.sub (x : Sect) : Nat :=
  if x.type = tProgram then bitsAt x.body 0 13 0 else if x.type = tRoutes then bitsAt x.body 0 5 0 else 0

/-- A section may follow another. -/
def Sect.follows (x prev : Sect) : Bool :=
  decide (prev.type < x.type) ||
    (decide (prev.type = x.type ∧ (x.type = tProgram ∨ x.type = tRoutes)) && decide (prev.sub < x.sub))

/-- The first section that breaks the order of R428. -/
def orderFault (partial_ : Bool) (xs : List Sect) : Option LoadFault :=
  let known (x : Sect) : Bool :=
    decide (1 ≤ x.type ∧ x.type ≤ 13) && (!partial_ || [tTopology, tRegions, tProgram, tRoutes].contains x.type)
  let pairs := xs.zip (none :: xs.map some)
  match pairs.find? fun p => !known p.1 || !(match p.2 with | some q => p.1.follows q | none => true) with
  | some p => some { p.1.fault rnOrder 0 with offset := p.1.at_ - 8 }
  | none =>
    let must := if partial_ then [tRegions] else [tTopology, tRegions, tPorts, tMemory, tPower]
    if must.all fun t => xs.any fun x => decide (x.type = t) then none else some (headFault .malformed rnOrder 0)

/-- The payload of a section that appears at most once. -/
def payloadOf (xs : List Sect) (t : Nat) : Option Sect := xs.find? fun x => decide (x.type = t)

/-! ## TOPOLOGY (R433) -/

/-- The entries of a TOPOLOGY payload. -/
def topoEntries (p : List Byte) : List TopoEntry :=
  (chunksOf 8 (p.drop 16)).map fun e =>
    { cluster := leAt e 0 2, active := bitsAt e 4 11 0, spare := bitsAt e 4 15 12, borrow := decide (bitsAt e 4 16 16 = 1)
      lender := bitsAt e 4 18 17, core := bitsAt e 4 22 19 }

/-- The lender cluster of a borrower. -/
def TopoEntry.from_ (e : TopoEntry) : Nat := 4 * (e.cluster / 4) + e.lender

/-- The entry that borrows from a cluster. -/
def borrowerOf (topo : List TopoEntry) (c : Nat) : Option TopoEntry := topo.find? fun e => e.borrow && decide (e.from_ = c)

def entryFor (topo : List TopoEntry) (c : Nat) : Option TopoEntry := topo.find? fun e => decide (e.cluster = c)

/-- The entries in force once those of a partial Blend replace the loaded ones. -/
def mergeTopo (old new : List TopoEntry) : List TopoEntry := old.map fun e => (entryFor new e.cluster).getD e

/-- What one entry must satisfy on its own. -/
def TopoEntry.ok (e : TopoEntry) : Bool :=
  decide (popcount 12 e.active ≤ 11) && (decide (e.spare = 15) || (decide (e.spare < 12) && !e.active.testBit e.spare)) &&
  (!e.borrow || (decide (e.core < 12) && (decide (e.lender = (e.cluster % 4) ^^^ 1) || decide (e.lender = (e.cluster % 4) ^^^ 2))))

/-- What the borrowers of a topology must satisfy. -/
def borrowsOk (topo : List TopoEntry) : Bool :=
  let bs := topo.filter (·.borrow)
  decide ((bs.map TopoEntry.from_).eraseDups.length = bs.length) &&
  bs.all fun b => match entryFor topo b.from_ with
    | some l => !l.borrow && decide (l.spare = b.core)
    | none => false

/-- Numbers that rise strictly. -/
def rising : List Nat → Bool
  | a :: b :: r => decide (a < b) && rising (b :: r)
  | _ => true

/-- The rules of TOPOLOGY. `scope`: the clusters of a partial Blend's scope, and the head and entries of the loaded Blend. -/
def topoRules (p : List Byte) (scope : Option (List Nat × List Byte × List TopoEntry)) : List Rule :=
  let es := topoEntries p
  let cs := es.map (·.cluster)
  let raw := chunksOf 8 (p.drop 16)
  let clean := raw.all fun e => decide (leAt e 2 2 = 0 ∧ bitsAt e 4 31 23 = 0 ∧ leAt e 0 2 < 256)
  let own : List Rule := match scope with
    | none => [(decide (es.length = 256), rnField, 16), (borrowsOk es, rnField, 16)]
    | some (cl, head, old) =>
      [(decide (p.take 16 = head), rnScope, 0), (decide (cs = cl), rnScope, 16), (borrowsOk (mergeTopo old es), rnField, 16)]
  [(decide (16 ≤ p.length ∧ leAt p 4 4 = 0), rnField, 4), (clean && rising cs, rnField, 16), (es.all TopoEntry.ok, rnField, 16)] ++ own

/-- The cores that lie in a scope of clusters: its own but those lent, and those borrowed (R103). -/
def scopeCores (topo : List TopoEntry) (cl : List Nat) : List Nat :=
  cl.flatMap fun c =>
    let lent := match borrowerOf topo c with | some b => [b.core] | none => []
    let borrowed := match entryFor topo c with | some e => if e.borrow then [coreIdx e.from_ e.core] else [] | none => []
    (((List.range 12).filter fun k => !lent.contains k).map (coreIdx c)) ++ borrowed

/-- TOP_XBAR_CFG of a cluster, where its spare is in service or not (R22, R120, R433). -/
def xbarWord (topo : List TopoEntry) (e : TopoEntry) (spareIn : Bool) : Word :=
  let lent := borrowerOf topo e.cluster
  let spare := if lent.isSome ∨ ¬ spareIn then 15 else e.spare
  let b := if e.borrow then [(1, 29), (e.lender, 27), (e.core, 23)] else []
  let l := match lent with | some x => [(1, 22), (x.cluster % 4, 20), (x.core, 16)] | none => []
  mkWord (b ++ l ++ [(e.active, 4), (spare, 0)])

/-! ## REGIONS, STAGES (R434, R435) -/

def regionEntries (p : List Byte) : List (Nat × Nat) := (chunksOf 40 p).map fun e => (leAt e 0 2, leAt e 8 32)

/-- The clusters of the regions listed, in ascending number. -/
def clustersOf (rs : List (Nat × Nat)) : List Nat := below 256 fun c => rs.any fun r => r.2.testBit c

def regionRules (p : List Byte) (old : Option (List (Nat × Nat))) : List Rule :=
  let rs := regionEntries p
  let clean := (chunksOf 40 p).all fun e => decide (e.length = 40 ∧ leAt e 2 6 = 0 ∧ leAt e 0 2 ≤ 65534)
  let own : List Rule := match old with
    | some loaded => [(rs.all loaded.contains, rnScope, 0)]
    | none =>
      let each := (List.range 256).all fun c => decide ((rs.filter fun r => r.2.testBit c).length = 1)
      [(each && rs.all (fun r => decide (r.2 ≠ 0)), rnField, 0)]
  [(clean && rising (rs.map (·.1)), rnField, 0)] ++ own

def stageEntries (p : List Byte) : List StageCfg :=
  (chunksOf 8 p).map fun e =>
    { resident := decide (bitsAt e 2 0 0 = 1), pinned := decide (bitsAt e 2 1 1 = 1), initFormat := bitsAt e 3 3 0
      savedFormat := bitsAt e 3 7 4, initScale := leAt e 4 1, region := leAt e 6 2 }

def stageRules (p : List Byte) (regions : List (Nat × Nat)) : List Rule :=
  let ls := stageEntries p
  let clean := (chunksOf 8 p).zipIdx.all fun e => decide (leAt e.1 0 2 = e.2 ∧ bitsAt e.1 2 7 2 = 0 ∧ leAt e.1 5 1 = 0)
  let good := ls.all fun l => [1, 3, 4].contains l.initFormat && [1, 3, 5, 6].contains l.savedFormat &&
    decide (l.initScale ≤ 254) && (l.resident || decide (l.region = 0))
  [(decide (1 ≤ ls.length ∧ ls.length ≤ 4096), rnField, 0), (clean, rnField, 0), (good, rnField, 0),
   (ls.all fun l => !l.resident || regions.any fun r => decide (r.1 = l.region), rnCross, 0)]

/-! ## PROGRAM, ROUTES (R436, R437) -/

def progCore (p : List Byte) : Nat := bitsAt p 0 13 0
def progDescs (p : List Byte) : Nat := leAt p 8 2
def progWords (p : List Byte) : Nat := bitsAt p 4 13 0 + 1

/-- The core of a PROGRAM payload, holding it. -/
def Core.withProgram (c : Core) (p : List Byte) : Core :=
  let n := progDescs p
  let image : Smap (BitVec 256) := (List.range n).foldl (fun m i =>
    Smap.set 0 m i (BitVec.ofNat 256 (leAt p (48 + 32 * i) 32))) []
  let words := (List.range (progWords p)).map fun i => BitVec.ofNat 128 (leAt p (48 + 32 * n + 16 * i) 16)
  let tokens := (List.range 16).map fun i => leAt p (16 + 2 * i) 2
  { c with hasProg := true, prog := words, image := image, work := image, initTok := tokens, tok := tokens
           entry := bitsAt p 2 13 0, evaluation := decide (bitsAt p 6 0 0 = 1), pc := bitsAt p 2 13 0 }

/-- A core without a program. -/
def Core.withoutProgram (c : Core) : Core :=
  { c with hasProg := false, prog := [], image := [], work := [], initTok := List.replicate 16 0, tok := List.replicate 16 0
           entry := 0, evaluation := false, pc := 0 }

/-- The rules of PROGRAM, under the topology in force; `scope`: the clusters of a partial Blend. -/
def progRules (p : List Byte) (topo : List TopoEntry) (scope : Option (List Nat)) : List Rule :=
  let i := progCore p
  let clean := decide (bitsAt p 0 15 14 = 0 ∧ bitsAt p 2 15 14 = 0 ∧ bitsAt p 4 15 14 = 0 ∧ bitsAt p 6 15 1 = 0 ∧ leAt p 10 6 = 0)
  let sized := decide (progDescs p ≤ 256 ∧ p.length = 48 + 32 * progDescs p + 16 * progWords p)
  let active := match entryFor topo (coreCluster i) with | some e => e.active.testBit (coreVal i) | none => false
  let borrowed := topo.any fun e => e.borrow && decide (coreIdx e.from_ e.core = i)
  let inScope := match scope with | some cl => (scopeCores topo cl).contains i | none => true
  [(clean, rnField, 0), (sized, rnField, 8), (isCore i && decide (bitsAt p 2 13 0 < progWords p), rnField, 0),
   (active || borrowed, rnCross, 0), (inScope, rnScope, 0)]

/-- The bits of a tree entry that a partial Blend may change on a die: core_mask of the clusters of its scope. -/
def scopeMask (die : Nat) (cl : List Nat) : Nat :=
  (below 4 fun c => cl.contains (4 * die + c)).foldl (fun m c => m + 0xFFF * 2 ^ (12 * c)) 0

def routeRules (p : List Byte) (scope : Option (List Nat × List Byte)) : List Rule :=
  let entries := (List.range 64).filterMap (routeEntry p)
  let clean := decide (bitsAt p 0 7 6 = 0 ∧ leAt p 1 7 = 0 ∧ p.length = 32 + 8 * popcount 64 (routeTrees p))
  let inScope : Bool := match scope with
    | none => true
    | some (cl, old) =>
      let m := scopeMask (routeDie p) cl
      decide (leAt p 8 24 = leAt old 8 24) && (List.range 64).all fun t => match routeEntry p t, routeEntry old t with
        | some a, some b => decide (a ||| m = b ||| m)
        | none, none => true
        | _, _ => false
  [(clean, rnField, 0), ((List.range 64).all fun d => decide (routeMode p d ≠ 3), rnField, 8),
   (entries.all fun e => e.testBit 63 && decide (bitsOf e 62 56 = 0) && !e.testBit 48, rnField, 0x20), (inScope, rnScope, 8)]

/-- The routers that the out_dirs of tree `t` name at a router, a port that leads nowhere as 64. -/
def treeNext (rs : List (Nat × List Byte)) (t d : Nat) : List Nat :=
  match routeEntry (routesOf rs d) t with
  | none => []
  | some e => (below 6 fun p => e.testBit (49 + p)).map fun p => (meshNext d p).getD 64

/-- The routers reached from `d` in `fuel` hops. -/
def treeReach (rs : List (Nat × List Byte)) (t : Nat) : Nat → Nat → List Nat
  | 0, d => [d]
  | fuel + 1, d => d :: (treeNext rs t d).flatMap (treeReach rs t fuel)

/-- Tree `t` is well formed over all dies: one root, on a die with a link chiplet; every other router named once; every port
leads to a router that holds the tree; every router reached (R122, R437). -/
def treeOk (rs : List (Nat × List Byte)) (t : Nat) : Bool :=
  let holders := (List.range 64).filter fun d => (routeTrees (routesOf rs d)).testBit t
  let named := holders.flatMap (treeNext rs t)
  let roots := holders.filter fun d => !named.contains d
  holders.isEmpty ||
    (decide (roots.length = 1) && roots.all (fun d => (diePort d).isSome) && named.all holders.contains &&
     decide (named.eraseDups.length = named.length) &&
     roots.all fun r => holders.all fun d => (treeReach rs t 64 r).contains d)

/-! ## PORTS (R438, R283, R284) -/

def portEntries (p : List Byte) : List PortCfg :=
  (List.range 16).map fun n =>
    let e := (p.drop (48 * n)).take 48
    { role := bitsAt e 0 3 0, expRole := bitsAt e 0 7 4, expPort := bitsAt e 1 3 0, expRank := leAt e 2 2, passon := leAt e 8 8
      servers := (List.range 4).map fun k => leAt e (16 + 8 * k) 8 }

def keyHashes (p : List Byte) : List (List Byte) := (List.range 4).map fun i => (p.drop (0x300 + 32 * i)).take 32

/-- The role of a port in a list of entries. -/
def roleIn (ps : List PortCfg) (p : Nat) : Nat := ((ps[p]?).map (·.role)).getD 0

def portRules (p : List Byte) : List Rule :=
  let ps := portEntries p
  let raw := (List.range 16).map fun n => (p.drop (48 * n)).take 48
  let named (e : PortCfg) : List Nat := below 16 e.passon.testBit ++ (if e.passon.testBit 63 then [bitsOf e.passon 51 48] else [])
  [(decide (p.length = 896), rnField, 0),
   (raw.all fun e => decide (bitsAt e 1 7 4 = 0 ∧ leAt e 4 4 = 0), rnField, 0),
   (ps.all fun e => decide (e.role ≤ 3), rnField, 0),
   (ps.all fun e => decide (e.role = 1 ∨ e.role = 3 → e.expRole = e.role), rnField, 0),
   (ps.all fun e => decide (e.role = 2 → e.expRole = 4), rnField, 0),
   (ps.all fun e => decide (bitsOf e.passon 62 52 = 0 ∧ bitsOf e.passon 47 16 = 0) &&
      (named e).all fun q => decide (roleIn ps q = 1), rnField, 8),
   (ps.all fun e => e.servers.all fun w => decide (bitsOf w 62 52 = 0 ∧ bitsOf w 47 16 = 0) &&
      (!w.testBit 63 || decide (roleIn ps (bitsOf w 51 48) = 2)), rnField, 16)]

/-! ## GROUPS, SIP_GROUPS, BUDDY (R439 to R441, R311) -/

/-- The group entries of a payload with their offsets; none where an entry does not fit, or padding or rsvd is not zero. -/
def groupEntries (p : List Byte) : Nat → Nat → Option (List (Nat × GroupCfg))
  | 0, _ => some []
  | fuel + 1, off =>
    if p.length ≤ off then some []
    else
      let e := p.drop off
      let n := leAt e 2 2 + 1
      let up := bitsAt e 5 2 0
      let size := alignUp (16 + 4 * n) 8
      let ups := leAt e 6 2
      let clean := decide (16 ≤ e.length ∧ size ≤ e.length ∧ bitsAt e 4 7 3 = 0 ∧ bitsAt e 5 7 3 = 0 ∧ up ≤ 4 ∧
        ups / 16 ^ up = 0 ∧ leAt e 11 5 = 0) && allZero ((e.drop (16 + 4 * n)).take (size - 16 - 4 * n))
      let members := (List.range n).map fun m =>
        { rank := leAt e (16 + 4 * m) 2, board := bitsAt e (18 + 4 * m) 13 0, position := bitsAt e (18 + 4 * m) 15 14 : Member }
      let g : GroupCfg :=
        { group := leAt e 0 1, epoch := leAt e 1 1, formats := bitsAt e 4 2 0
          uplinks := (List.range up).map fun i => bitsOf ups (4 * i + 3) (4 * i)
          gatherer := leAt e 8 1, job := leAt e 9 2, members := members }
      if ¬ clean then none else (groupEntries p fuel (off + size)).map fun r => (off, g) :: r

/-- Every board has a member at each position that gathers for an owner of another board (R296). -/
def gatherersOk (g : GroupCfg) : Bool :=
  let boards := (g.members.map (·.board)).eraseDups
  let places := ((g.members.map fun m => (m.board, m.position)).eraseDups)
  places.all fun o => boards.all fun b =>
    decide (b = o.1) || g.members.any fun m => decide (m.board = b ∧ m.position = bitsOf g.gatherer (2 * o.2 + 1) (2 * o.2))

/-- The rules of one group entry at offset `o`, with the job and rank of TOPOLOGY and the port entries. -/
def groupRules (o : Nat) (g : GroupCfg) (job rank : Nat) (ps : List PortCfg) : List Rule :=
  let ranks := g.members.map (·.rank)
  let places := g.members.map fun m => (m.board, m.position)
  let multi := decide (1 < ((g.members.map (·.board)).eraseDups).length)
  let mine := (g.members.find? fun m => decide (m.rank = rank)).map (·.board)
  let mates := g.members.filter fun m => decide (some m.board = mine ∧ m.rank ≠ rank)
  [(decide (g.job = job), rnCross, o + 9), (decide (ranks.eraseDups.length = ranks.length), rnField, o + 16),
   (ranks.contains rank, rnCross, o + 16), (decide (places.eraseDups.length = places.length), rnField, o + 16),
   (gatherersOk g, rnField, o + 8), (decide (g.formats.testBit 2 → g.members.length ≤ 32767), rnField, o + 4),
   (!multi || !g.uplinks.isEmpty, rnField, o + 5), (g.uplinks.all fun u => decide (roleIn ps u = 2), rnCross, o + 6),
   (mates.all fun m => ps.any fun e => decide (e.role = 1 ∧ e.expRank = m.rank), rnCross, o + 16)]

/-- The rules of GROUPS. -/
def groupsRules (p : List Byte) (job rank : Nat) (ps : List PortCfg) : List Rule :=
  match groupEntries p p.length 0 with
  | none => [(false, rnField, 0)]
  | some gs => (rising (gs.map fun g => g.2.group), rnField, 0) :: gs.flatMap fun g => groupRules g.1 g.2 job rank ps

def sipEntries (p : List Byte) : List SipGroupCfg :=
  (chunksOf 8 p).map fun e =>
    { group := leAt e 0 1, epoch := leAt e 1 1, upPort := bitsAt e 2 3 0, root := decide (bitsAt e 2 4 4 = 1)
      downMask := leAt e 4 2, modules := leAt e 6 2 + 1 }

def sipRules (p : List Byte) (ps : List PortCfg) : List Rule :=
  let gs := sipEntries p
  let named (g : SipGroupCfg) : List Nat := below 16 g.downMask.testBit ++ (if g.root then [] else [g.upPort])
  [((chunksOf 8 p).all fun e => decide (bitsAt e 2 15 5 = 0), rnField, 0), (rising (gs.map (·.group)), rnField, 0),
   (gs.all fun g => !g.root || decide (g.upPort = 0), rnField, 2),
   (gs.all fun g => (named g).all fun q => decide (roleIn ps q = 1 ∨ roleIn ps q = 2), rnCross, 0)]

def buddyOf (p : List Byte) : BuddyCfg :=
  { sendRank := leAt p 0 2, holdRank := leAt p 2 2, sendPort := bitsAt p 4 3 0, holdPort := bitsAt p 4 7 4
    hasSend := decide (bitsAt p 5 0 0 = 1), hasHold := decide (bitsAt p 5 1 1 = 1), writer := decide (bitsAt p 5 2 2 = 1)
    replicaGroup := leAt p 6 2 }

def buddyRules (p : List Byte) (ps : List PortCfg) : List Rule :=
  let b := buddyOf p
  let faces (port rank : Nat) : Bool := match ps[port]? with | some e => decide (e.role = 3 ∧ e.expRank = rank) | none => false
  [(decide (p.length = 8 ∧ bitsAt p 5 7 3 = 0), rnField, 5), (!b.hasSend || faces b.sendPort b.sendRank, rnCross, 4),
   (!b.hasHold || faces b.holdPort b.holdRank, rnCross, 4)]

/-! ## MEMORY (R442, R443) -/

def areaEntries (p : List Byte) : List Area :=
  (chunksOf 24 p).map fun e => { kind := leAt e 0 1, inst := leAt e 2 2, base := leAt e 8 8, size := leAt e 16 8 }

def aActivations : Nat := 0x04
def aCritSeq : Nat := 0x0F

/-- Instances a kind may have; extents of one area are numbered without a limit of their own. -/
def areaLimit (kind : Nat) : Nat :=
  if kind = 0 ∨ aCritSeq < kind then 0
  else if kind ≤ aInput then 65536
  else if kind = aUrnLog ∨ kind = aParams ∨ kind = aErrmem then 256
  else if kind = aCache ∨ kind = aRetain then 16
  else if kind = aCritSeq then 64
  else 1

/-- The rule on the size of one entry. -/
def areaSized (a : Area) : Bool :=
  if a.kind = aGen0 ∨ a.kind = aActivations ∨ a.kind = aInput ∨ a.kind = aErrmem then decide (a.size % 4096 = 0)
  else if a.kind = aRing then decide (a.size = 262144)
  else if a.kind = aManifest then decide (a.size = 786432)
  else if a.kind = aUrnLog then decide (a.size % 136 = 0)
  else if a.kind = aCache then decide (a.size % 65600 = 0)
  else if a.kind = aRetain then decide (a.size % 4160 = 0)
  else if a.kind = aParams then decide (a.size = 64)
  else true

/-- Where an entry may lie. For CRIT_SEQ base and size count words of a stack's critical window. -/
def areaPlaced (gen : Nat) (a : Area) : Bool :=
  if a.kind = aErrmem then decide (a.base % 4096 = 0 ∧ a.base + a.size ≤ gen)
  else if a.kind = aCritSeq then decide (8 * a.base % 4096 = 0 ∧ 65536 ≤ a.base ∧ a.base + a.size ≤ 2097152)
  else
    let al := if a.kind = aParams ∨ a.kind = aUrnLog ∨ a.kind = aCache then 64 else 4096
    decide (a.base % al = 0 ∧ a.base < 0x80000000000 ∧ stackOff a.base + a.size ≤ stackBytes)

/-- Two areas share a byte. -/
def Area.meets (a b : Area) : Bool := decide (a.base < b.base + b.size ∧ b.base < a.base + a.size)

/-- No two areas of a list share a byte. -/
def noneMeet : List Area → Bool
  | [] => true
  | a :: r => r.all (fun b => !a.meets b) && noneMeet r

/-- The rules of MEMORY, with what other sections need of it. -/
def memoryRules (p : List Byte) (layers progBytes : Nat) (hasHold : Bool) (gs1 : List Nat) : List Rule :=
  let xs := areaEntries p
  let clean := (chunksOf 24 p).all fun e => decide (e.length = 24 ∧ leAt e 1 1 = 0 ∧ leAt e 4 4 = 0 ∧ leAt e 8 8 < 2 ^ 49)
  let has (k : Nat) : Bool := xs.any fun a => decide (a.kind = k)
  let total (k : Nat) : Nat := areaSize xs k
  let extents (k : Nat) : Bool :=
    let is := (xs.filter fun a => decide (a.kind = k)).map (·.inst)
    decide (is = List.range is.length)
  let gen := min (total aGen0) (total (aGen0 + 1))
  [(clean, rnField, 0), (xs.all fun a => decide (a.inst < areaLimit a.kind), rnField, 0),
   (rising (xs.map fun a => 65536 * a.kind + a.inst), rnField, 0), ([1, 2, 3, 4, 5].all extents, rnField, 2),
   (xs.all areaSized, rnField, 16), (xs.all (areaPlaced gen), rnField, 8),
   (!has (aGen0 + 1) || decide (total (aGen0 + 1) = total aGen0), rnField, 16),
   (!hasHold || decide (total aBuddy = total aGen0), rnCross, 16),
   (!has aLog || decide (544 * layers ≤ total aLog), rnCross, 16), (!has aStore || decide (progBytes ≤ total aStore), rnCross, 16),
   (noneMeet (xs.filter fun a => !decide (a.kind = aErrmem ∨ a.kind = aCritSeq)), rnField, 8),
   (noneMeet (xs.filter fun a => decide (a.kind = aErrmem)), rnField, 8),
   (gs1.all fun g => xs.any fun a => decide (a.kind = aErrmem ∧ a.inst = g), rnCross, 0)]

/-! ## POWER, CALIBRATION, CONTROLS (R444 to R446) -/

def powerOf (p : List Byte) : PowerCfg :=
  { liquid := decide (bitsAt p 0 0 0 = 1), keepWarm := leAt p 2 2, cap := leAt p 4 4, vMin := leAt p 8 2, vMax := leAt p 10 2 }

def powerRules (p : List Byte) : List Rule :=
  let c := powerOf p
  [(decide (p.length = 16 ∧ bitsAt p 0 15 1 = 0 ∧ leAt p 12 4 = 0), rnField, 0),
   (decide (c.cap ≤ if c.liquid then 34000 else 5000), rnField, 4),
   (decide (550 ≤ c.vMin ∧ c.vMin ≤ c.vMax ∧ c.vMax ≤ 800), rnField, 8),
   (decide (c.keepWarm = 0 ∨ (400 ≤ c.keepWarm ∧ c.keepWarm ≤ 850)), rnField, 2)]

def calibEntries (p : List Byte) : List (Nat × Nat × Int) :=
  (chunksOf 8 p).map fun e => (leAt e 0 1, leAt e 2 2, toSigned 16 (leAt e 4 2))

/-- Indexes of a calibration item, and the limit of its offset. -/
def calibLimit (item : Nat) : Nat × Nat := nth (0, 0) [(0, 0), (64, 128), (64, 10), (1, 500), (1, 64), (1, 64)] item

def calibRules (p : List Byte) : List Rule :=
  let xs := calibEntries p
  let keys := xs.map fun x => (x.1, x.2.1)
  [((chunksOf 8 p).all fun e => decide (leAt e 1 1 = 0 ∧ leAt e 6 2 = 0), rnField, 0),
   (xs.all fun x => decide (x.2.1 < (calibLimit x.1).1 ∧ x.2.2.natAbs ≤ (calibLimit x.1).2), rnField, 0),
   (decide (keys.eraseDups.length = keys.length), rnField, 0)]

/-- The registers a CONTROLS payload names: the register, if it may be named, and the value. -/
def controlEntries (p : List Byte) : List (Option (RBlk × Nat) × Word) :=
  (chunksOf 16 p).map fun e =>
    (blendControls.find? fun c => decide (c.1.index = leAt e 0 1 ∧ c.2 = leAt e 4 4), BitVec.ofNat 64 (leAt e 8 8))

/-- A register after a CONTROLS value is written over its reset value. -/
def controlWord (b : RBlk) (o : Nat) (v : Word) : Word :=
  match findReg b o with
  | some r => r.written r.resetWord v (BitVec.allOnes 64)
  | none => v

def controlRules (p : List Byte) (ps : List PortCfg) : List Rule :=
  let xs := controlEntries p
  let keys := xs.map (·.1)
  [((chunksOf 16 p).all fun e => decide (e.length = 16 ∧ leAt e 1 3 = 0), rnField, 1),
   (keys.all Option.isSome && decide (keys.eraseDups.length = keys.length), rnField, 0),
   (xs.all fun x => match x.1 with
      | some (b, o) => decide (ctrlStatus (roleIn ps) b o (controlWord b o x.2) (BitVec.allOnes 64) = .ok)
      | none => true, rnField, 8)]

/-! ## The whole image -/

/-- A Blend as read from an image, and what is needed beside it to apply it. -/
structure Parsed where
  blend : Blend
  controls : List (RBlk × Nat × Word)
  shape : List Byte
  regions : List (Nat × Nat)       -- the regions listed: the scope of a partial Blend
deriving DecidableEq, Repr

/-- Before any section is read. -/
def Parsed.start (old : Option Blend) : Parsed :=
  { blend := old.getD Blend.none, controls := [], shape := [], regions := [] }

/-- The 8 bytes of a group in the shape (R447). -/
def groupShape (g : GroupCfg) (rank : Nat) : List Byte :=
  leBytes 1 g.group ++ leBytes 2 (g.members.length - 1) ++ leBytes 1 g.formats ++
  leBytes 4 ((g.members.findIdx? fun m => decide (m.rank = rank)).getD 0)

/-- The rules of a section, given the sections before it and, for a partial Blend, the loaded Blend and the scope's clusters. -/
def sectRules (a : Parsed) (old : Option (Blend × List Nat)) (x : Sect) : List Rule :=
  let b := a.blend
  let p := x.body
  let cl := old.map (·.2)
  if x.type = tTopology then topoRules p (old.map fun o => (o.2, o.1.topoHead, o.1.topo))
  else if x.type = tRegions then regionRules p (old.map fun o => o.1.regions)
  else if x.type = tStages then stageRules p b.regions
  else if x.type = tProgram then progRules p b.topo cl
  else if x.type = tRoutes then routeRules p (old.map fun o => (o.2, routesOf o.1.routes (routeDie p)))
  else if x.type = tPorts then portRules p
  else if x.type = tGroups then groupsRules p b.job b.rank b.ports
  else if x.type = tSipGroups then sipRules p b.ports
  else if x.type = tBuddy then buddyRules p b.ports
  else if x.type = tMemory then
    memoryRules p b.stages.length ((b.store.map fun e => e.2.length).foldl (· + ·) 0) b.buddy.hasHold
      ((b.groups.filter fun g => g.formats.testBit 2).map (·.group))
  else if x.type = tPower then powerRules p
  else if x.type = tCalibration then calibRules p
  else controlRules p b.ports

/-- A section joins the Blend read so far. -/
def addSect (a : Parsed) (x : Sect) : Parsed :=
  let b := a.blend
  let p := x.body
  let new (b : Blend) : Parsed := { a with blend := b }
  if x.type = tTopology then
    new { b with topoHead := p.take 16, topo := if b.topo.isEmpty then topoEntries p else mergeTopo b.topo (topoEntries p) }
  else if x.type = tRegions then
    { a with blend := { b with regions := if b.regions.isEmpty then regionEntries p else b.regions }, regions := regionEntries p }
  else if x.type = tStages then { new { b with stages := stageEntries p } with shape := a.shape ++ p }
  else if x.type = tProgram then new { b with store := Smap.put b.store (progCore p) p }
  else if x.type = tRoutes then
    new { b with routes := (b.routes.filter fun r => !decide (r.1 = routeDie p)) ++ [(routeDie p, p)] }
  else if x.type = tPorts then new { b with ports := portEntries p, keyHashes := keyHashes p }
  else if x.type = tGroups then
    let gs := ((groupEntries p p.length 0).getD []).map (·.2)
    { new { b with groups := gs } with shape := a.shape ++ gs.flatMap fun g => groupShape g b.rank }
  else if x.type = tSipGroups then new { b with sipGroups := sipEntries p }
  else if x.type = tBuddy then new { b with buddy := buddyOf p }
  else if x.type = tMemory then { new { b with areas := areaEntries p } with shape := a.shape ++ p }
  else if x.type = tPower then new { b with power := powerOf p }
  else if x.type = tCalibration then new { b with calib := calibEntries p }
  else { a with controls := (controlEntries p).filterMap fun c => c.1.map fun k => (k.1, k.2, c.2) }

/-- Read sections in order; the first fault stops it. After the last ROUTES of a full Blend every tree is judged. -/
def readSects (old : Option (Blend × List Nat)) : Parsed → List Sect → Except LoadFault Parsed
  | a, [] => .ok a
  | a, x :: rest =>
    match firstBroken (sectRules a old x) with
    | some f => .error (x.fault f.1 f.2)
    | none =>
      let a' := addSect a x
      let last := decide (x.type = tRoutes) && !(rest.any fun y => decide (y.type = tRoutes))
      if last ∧ old.isNone ∧ ¬ (List.range 64).all (treeOk a'.blend.routes) then .error (x.fault rnCross 0x20)
      else readSects old a' rest

/-- The scope's clusters, as the REGIONS section of a partial image lists them. -/
def imgScope (xs : List Sect) : List (Nat × Nat) := match payloadOf xs tRegions with | some x => regionEntries x.body | none => []

/-- The programs of a partial Blend's scope are dropped before its own are read (R436). -/
def dropScope (b : Blend) (xs : List Sect) (cl : List Nat) : Blend :=
  let topo := match payloadOf xs tTopology with | some x => mergeTopo b.topo (topoEntries x.body) | none => b.topo
  let gone := scopeCores b.topo cl ++ scopeCores topo cl
  { b with store := Smap.keep (fun i _ => !gone.contains i) b.store }

/-- Parse an image whose header holds: the sections, their order, and every rule. `old`: the loaded Blend, for a partial image. -/
def parseImage (img : List Byte) (old : Option Blend) : Except LoadFault Parsed :=
  match walkSections img (imgBody img) (imgBody img) 1 0x20 with
  | .error f => .error f
  | .ok xs =>
    if xs.length ≠ imgSections img then .error (headFault .malformed rnHeader 6)
    else match orderFault old.isSome xs with
      | some f => .error f
      | none =>
        let cl := clustersOf (imgScope xs)
        readSects (old.map fun b => (b, cl)) (Parsed.start (old.map fun b => dropScope b xs cl)) xs

/-- The first group whose initial epoch is among those held (R289, R449), or any group of a Blend without a job (R14, R286). -/
def epochFault (img : List Byte) (b : Blend) (held : Nat → List Nat) : Option LoadFault :=
  let xs := match walkSections img (imgBody img) (imgBody img) 1 0x20 with | .ok xs => xs | .error _ => []
  let f (t : Nat) : LoadFault := match payloadOf xs t with
    | some x => { x.fault rnEpoch 0 with status := .denied }
    | none => headFault .denied rnEpoch 0
  if b.groups.any fun g => decide (b.job = 0) || (held g.group).contains g.epoch then some (f tGroups)
  else if b.sipGroups.any fun g => decide (b.job = 0) || (held (256 + g.group)).contains g.epoch then some (f tSipGroups)
  else none

end Sys2Proof.Machine
end

