-- ==== Sys2Proof/Machine/ReduceCmds.lean ====
section
/-! DEFINITION. The commands of reductions and of the Sip path: chunks, re-sends, RDONE, formation, timeouts and Sip flits (R285 to
R315, R358 to R360). -/

namespace Sys2Proof.Machine

/-- The group a reduction message names, if its epoch is in force (R306). -/
def State.redGroup (s : State) (m : Msg) : Option Grp :=
  match s.grp m.group.toNat with
  | none => none
  | some g => if g.epoch = m.epoch.toNat ∧ (g.st = .forming ∨ g.st = .formed) then some g else none

/-- An input for an epoch not in force is dropped (R306). -/
def State.redStale (s : State) (p : Nat) : State := (s.bump .samPort p Reg.SAM_STALE 1).raise .samPort p Reg.SAM_EVENT 5

/-- RCHUNK (R295 to R306): a contribution or partial enters the context of its key. -/
def State.rchunkIn (s : State) (p : Nat) (m : Msg) : State :=
  match s.redGroup m with
  | none => s.redStale p
  | some g =>
    let c := m.chunk.toNat
    match s.roleOf g c with
    | some (.peer _ _) => s
    | _ =>
      let src := if s.portRole p = 2 then pathUplink else (0, m.src.toNat)
      s.redInput (s.samFor g c p) g (g.key c) src m.st m.body

def execRchunk (port : Nat) (m : Msg) (s : State) : Next := .next (s.message port m [mRchunk] fun s => s.rchunkIn port m)

/-- SAMOVAR_ACCEPT (R154, R302): the chunk a core offers is accepted, waits, or ends its instruction. -/
def execSamovarAccept (x : OfferObs) (s : State) : Next := .next (s.samovarAccept x.core x.obs).settleStreams

/-- RRESEND (R305): the adder clears its context and forwards; the contributor encodes again. -/
def State.rresendIn (s : State) (p : Nat) (m : Msg) : State :=
  match s.redGroup m with
  | none => s.redStale p
  | some g =>
    let k := g.key m.chunk.toNat
    let a := bitsAt m.body 0 1 0
    let h := decide (bitsAt m.body 0 2 2 = 1)
    match s.roleOf g k.chunk with
    | some (.owner _) => s
    | some (.gather home) =>
      let s := (s.dropCtx k).fanOut g mRresend k k.chunk m.body none
      let x := s.reencode k a h
      x.2.2.2.redInput home g k pathLocal x.2.1 x.1.bytes
    | r =>
      let x := (s.dropCtx k).reencode k a h
      let dst : Nat × Nat := match x.2.2.1, r with
        | some d, _ => d
        | none, some (.peer (some q) rank) => (q, rank)
        | none, _ => (p, m.src.toNat)
      x.2.2.2.sendRed dst.1 mRchunk dst.2 k k.chunk x.2.1 x.1.bytes

def execRresend (port : Nat) (m : Msg) (s : State) : Next := .next (s.message port m [mRresend] fun s => s.rresendIn port m)

/-- The statuses an RDONE carries, chunk by chunk (R355). -/
def rdoneStatuses (b : List Byte) : List Status :=
  (List.range (leAt b 0 4)).map fun i => (Status.ofCode (nibbleAt b 8 i)).getD .malformed

/-- RDONE (R303, R307): forwarded by the gatherer; retained chunks are released and error memories written. -/
def State.rdoneIn (s : State) (p : Nat) (m : Msg) : State :=
  match s.redGroup m with
  | none => s.redStale p
  | some g =>
    let k := g.key m.chunk.toNat
    match s.roleOf g k.chunk with
    | some (.owner _) => s
    | r =>
      let s := match r with
        | some (.gather _) => s.fanOut g mRdone k k.chunk m.body none
        | _ => s
      (rdoneStatuses m.body).zipIdx.foldl (fun s x => s.chunkDone { k with chunk := k.chunk + x.2 } x.1) s

def execRdone (port : Nat) (m : Msg) (s : State) : Next := .next (s.message port m [mRdone] fun s => s.rdoneIn port m)

/-- A context whose input has not come goes on without it: a partial of the gatherer, the end of the owner's chunk. -/
def State.ctxLate (s : State) (p : Nat) (c : Ctx) : State :=
  match s.grp c.key.group with
  | none => s.dropCtx c.key
  | some g =>
    (match s.roleOf g c.key.chunk with
    | some (.gather _) => s.sendPartial p c
    | some (.owner _) => s.endChunk p g c .timeout
    | _ => s.dropCtx c.key).settleStreams

/-- CTX_TIMEOUT (R301): context number `ctx` of a Samovar has been open too long: TIMEOUT at the owner, and a partial with status
TIMEOUT at a gatherer; a context whose chunk is neither's is freed. -/
def execCtxTimeout (port ctx : Nat) (s : State) : Next :=
  .next (match (s.sam port).ctxs[ctx]? with
  | none => s
  | some c =>
    if c.held then s
    else
      State.ctxLate ((s.bump .samPort port Reg.SAM_CTX_TIMEOUTS 1).raise .samPort port Reg.SAM_EVENT 4) port { c with status := .timeout })

/-- GS1_RDONE_TIMEOUT (R307): the RDONE of a GS1 chunk sent by the Samovar of a port has not come: the step ends FAILED. -/
def execGs1RdoneTimeout (port : Nat) (s : State) : Next :=
  .next (if (s.sam port).retained.any (fun r => decide (r.format = 0xB) && !r.final) ∧ s.job.st = .running then
    s.stepFail csReduce lvRollback .timeout 0
  else s)

/-- A GFORM request is answered with this module's own view (R287). -/
def State.formAnswer (s : State) (p : Nat) (m : Msg) : State :=
  let n := m.group.toNat
  let sip := decide (bitsAt m.body 12 0 0 = 1)
  let view : Nat × List Byte :=
    if sip then (match s.sipg n with | some g => (g.epoch, g.formView) | none => (0, formBody [] 0 true))
    else (match s.grp n with | some g => (g.epoch, g.formView) | none => (0, formBody [] 0 false))
  s.post p { s.replyMsg p m mGform .ok view.2 with group := m.group, epoch := BitVec.ofNat 8 view.1 }

/-- A GFORM answer: the neighbour confirms when job, group, epoch and view are equal. -/
def State.formConfirm (s : State) (p : Nat) (m : Msg) : State :=
  let t := m.tag.toNat
  if s.tagUse p t ≠ some .gform then s.lateReply p m
  else
    let s := s.freeTag p t
    let n := m.group.toNat
    let eq (job epoch : Nat) (view : List Byte) : Bool :=
      decide (m.st = .ok) && decide (m.job.toNat = job) && decide (m.epoch.toNat = epoch) && decide (m.body = view)
    if bitsAt m.body 12 0 0 = 1 then
      match s.sipg n with
      | some g => if g.st = .forming ∧ g.asked.contains (p, t) ∧ eq g.job g.epoch g.formView then
          s.setSipg n { g with confirmed := g.confirmed ++ [p] } else s
      | none => s
    else match s.grp n with
      | some g => if g.st = .forming ∧ g.asked.contains (p, t) ∧ eq g.cfg.job g.epoch g.formView then
          s.setGrp n { g with confirmed := g.confirmed ++ [p] } else s
      | none => s

/-- GFORM (R287). -/
def State.gformIn (s : State) (p : Nat) (m : Msg) : State :=
  if m.req then s.formAnswer p m else if m.resp then s.formConfirm p m else s

def execGform (port : Nat) (m : Msg) (s : State) : Next := .next (s.message port m [mGform] fun s => s.gformIn port m)

/-- FORM_LIMIT_EXPIRY (R286, R310): a group still FORMING becomes FAILED. -/
def execFormLimitExpiry (sip : Bool) (group : Nat) (s : State) : Next :=
  .next (if sip then
    match s.sipg group with
    | some g => if g.st = .forming then (s.setSipg group { g with st := .failed }).settleStreams else s
    | none => s
  else match s.grp group with
    | some g =>
      if g.st = .forming then
        ((s.setGrp group { g with st := .failed }).raise .samPort (s.groupHome g) Reg.SAM_EVENT 9).settleStreams
      else s
    | none => s)

/-- A member's place has been taken by another rank (R309, R502): if the member held this module's buddy copy, the holder is lost
(R517). -/
def State.memberReplaced (s : State) (old new : Nat) : State :=
  if old = new then s
  else
    let s := s.add .topMod 0 Reg.TOP_REFORMS 1
    if s.blend.buddy.hasSend ∧ s.blend.buddy.sendRank = old then s.holderLost else s

/-- A write of SAM_GRP_CMD (R309, R310, R322); without go nothing happens. No group forms under job 0 (R14). -/
def State.wrGrpCmd (s : State) (v : Word) : Status × State :=
  let n := fld v 47 40
  let e := fld v 55 48
  let member := fld v 31 16
  if ¬ flag v 63 then (.ok, s)
  else if flag v 62 then
    match s.sipg n with
    | none => (.malformed, s)
    | some g =>
      let x := s.epochKept (256 + n) e
      let st := firstStatus [(decide (g.cfg.modules ≤ member), .malformed), (decide (g.job = 0), .denied), (x.1, .denied),
        (decide (g.st = .forming), .busy)]
      (st, if st = .ok then x.2.sipNewEpoch n e else x.2)
  else match s.grp n with
    | none => (.malformed, s)
    | some g =>
      let cfg := reformed g.cfg member (fld v 15 0)
      let x := s.epochKept n e
      let st := firstStatus [(decide (g.cfg.members.length ≤ member), .malformed), (decide (g.cfg.job = 0), .denied), (x.1, .denied),
        (decide (g.st = .forming), .busy)]
      let old := (g.cfg.members[member]?).map (·.rank)
      (st, if st = .ok then (x.2.newEpoch n e cfg).memberReplaced (old.getD (fld v 15 0)) (fld v 15 0) else x.2)

/-- GROUP_REFORM (R309): SAM_GRP_CMD with sip 0. -/
def execGroupReform (_ : Writer) (v : Word) (s : State) : Next :=
  .next (if flag v 62 then s
  else
    let r := s.wrGrpCmd v
    (r.2.answer r.1).settleStreams)

/-- SIP_GROUP_REFORM (R311): SAM_GRP_CMD with sip 1. -/
def execSipGroupReform (_ : Writer) (v : Word) (s : State) : Next :=
  .next (if ¬ flag v 62 then s
  else
    let r := s.wrGrpCmd v
    (r.2.answer r.1).settleStreams)

/-! ## Sip flits -/

/-- A good reduction flit on a Sip port (R313, R315, R360). -/
def State.sipFlitIn (s : State) (p : Nat) (f : SipFlit) (faults : Nat) : State :=
  if f.job.toNat ≠ s.portJob p then s.foreignJob p
  else match s.sipg f.group.toNat with
  | none => s.sipStale p
  | some g =>
    if ¬ (g.st = .forming ∨ g.st = .formed) ∨ g.epoch ≠ f.epoch.toNat then s.sipStale p
    else if f.down then
      (if ¬ g.cfg.root ∧ g.cfg.upPort = p then s.sipDown g f else s)
    else if g.cfg.downs.contains p then s.sipInput g.cfg.group p f faults
    else s

/-- A Sip port goes down (R358, R360). -/
def State.sipGoesDown (s : State) (p : Nat) : State :=
  if ¬ s.sipUp p then s
  else
    let x := s.port p
    let s := if x.sipNakWait = 0 then s else s.check cSip 0 0 0 x.sipNakWait
    ((s.rbit .lnkPort p Reg.LNK_STATUS 11 false).raise .lnkPort p Reg.LNK_EVENT 12).setPort p
      { x with sipSent := [], sipNaks := [], sipNakWait := 0 }

/-- A NAK names a slot, modulo 256, of the last 64: a reduction flit it held is sent again in the next slot; the fourth NAK for one flit
retrains the port, and the flit is lost (R360). -/
def State.sipNakIn (s : State) (p slot : Nat) : State :=
  let x := s.port p
  match x.sipSent.find? fun e => decide (e.1 % 256 = slot ∧ s.sipNext p ≤ e.1 + 64) with
  | none => s
  | some (k, f) =>
    let n := Smap.get 0 x.sipNaks k + 1
    let s := s.setPort p { x with sipSent := Smap.del x.sipSent k, sipNaks := Smap.del x.sipNaks k }
    if n < 4 then (s.sendSip p f n).bump .lnkPort p Reg.LNK_SIP_NAKS 1
    else ((s.check cSip 0 0 0 1).raise .lnkPort p Reg.LNK_EVENT 13).sipGoesDown p

/-- 64 bytes arrive in slot `slot` of a Sip port (R358, R359, R360). A flit that fails its CRC is asked for again by NAK; the next good
reduction flit is its resend (DEDUCED, log entry 38). A control flit that is reserved or holds a non-zero rsvd field is dropped and
counts in LNK_MALFORMED. -/
def State.sipSlotIn (s : State) (p slot : Nat) (b : FlitBytes) (faults : Nat) : State :=
  let x := s.port p
  if ¬ sipOk b then
    let s := ((s.check cSip 1 1 0 0).bump .lnkPort p Reg.LNK_SIP_CRC_FAILS 1).setPort p { x with sipNakWait := x.sipNakWait + 1 }
    s.sendSlot p (sipNakFlit slot)
  else if leAt b 0 2 = 0 then
    let s := s.check cSip 1 0 0 0
    if ¬ sipControlClean b then (s.bump .lnkPort p Reg.LNK_MALFORMED 1).raise .lnkPort p Reg.LNK_EVENT 11
    else if sipKind b = 1 then s.sipNakIn p (leAt b 3 1)
    else if sipKind b = 2 then s.setPort p { x with sipPartner := leAt b 4 2 + 65536 * bitsAt b 6 3 0 }
    else s
  else
    let s := (s.check cSip 1 0 (b2n (decide (0 < x.sipNakWait))) 0).setPort p { x with sipNakWait := x.sipNakWait - 1 }
    let f := sipOf b
    let f := if sipClean b then f else { f with status := f.status.join .malformed }
    ((s.bump .lnkPort p Reg.LNK_SIP_FLITS_RX 1).sipFlitIn p f faults).settleStreams

/-- A flit is the control flit that a row is for: its CRC holds and its kind is `kind`. -/
def sipIs (kind : Nat) (b : FlitBytes) : Bool := sipOk b && decide (leAt b 0 2 = 0) && decide (sipKind b = kind)

/-- SIP_FLIT_RECEIVE (R313, R358, R360): a flit that is no NAK and no SIPHELLO. `faults`: how often in a row the copies of the combiner
differ, if it completes a combine. -/
def execSipFlitReceive (port slot : Nat) (f : FlitBytes) (faults : Nat) (s : State) : Next :=
  .next (if 16 ≤ port ∨ ¬ s.sipUp port ∨ sipIs 1 f ∨ sipIs 2 f then s else s.sipSlotIn port slot f faults)

/-- SIP_COMBINE_TIMEOUT (R315): the combine that has been open longest at a unit is discarded. -/
def execSipCombineTimeout (port : Nat) (s : State) : Next :=
  .next (
    let mine (c : Combine) : Bool := match s.sipg c.group with
      | some g => decide (g.cfg.unit = port)
      | none => false
    match s.coll.combines.find? mine with
    | none => s
    | some c =>
      let s := { s with coll := { s.coll with combines := s.coll.combines.erase c } }
      (s.bump .sipPort port Reg.SIP_TIMEOUTS 1).raise .sipPort port Reg.SIP_EVENT 2)

/-- SIP_NAK (R359, R360). -/
def execSipNak (port : Nat) (f : SlotFlit) (s : State) : Next :=
  .next (if 16 ≤ port ∨ ¬ s.sipUp port ∨ ¬ sipIs 1 f.bytes then s else s.sipSlotIn port f.slot f.bytes 0)

/-- SIPHELLO (R359): the partner's rank and Sip port. -/
def execSiphello (port slot : Nat) (f : FlitBytes) (s : State) : Next :=
  .next (if 16 ≤ port ∨ ¬ s.sipUp port ∨ ¬ sipIs 2 f then s else s.sipSlotIn port slot f 0)

/-- A Sip port that an entry of SIP_GROUPS names is trained; every other one stays down (R440). -/
def State.sipNamed (s : State) (p : Nat) : Bool := s.coll.sips.any fun g => g.2.cfg.ports.contains p

/-- SIP_TRAIN_COMPLETE (R358, R359): slots are numbered from link-up; the first carries SIPHELLO (DEDUCED, log entry 38). -/
def execSipTrainComplete (port : Nat) (s : State) : Next :=
  .next (if 16 ≤ port ∨ ¬ s.sipNamed port ∨ s.sipUp port ∨ ¬ s.tim.refclk ∨ ¬ (s.die (portDie port)).edgeReady then s
  else
    let s := s.setPort port { s.port port with
      sipSlot := 0, sipUpAt := s.now, sipSent := [], sipNaks := [], sipNakWait := 0, sipPartner := 0 }
    let s := (s.rbit .lnkPort port Reg.LNK_STATUS 11 true).sendSlot port (sipHelloFlit s.blend.rank port)
    (s.funcReady 5 port .ok).settleStreams)

/-- SIP_LANE_LOSS (R358): the port goes down. -/
def execSipLaneLoss (port : Nat) (s : State) : Next := .next (if 16 ≤ port then s else s.sipGoesDown port)

/-- GOV_EXCHANGE_RESULT (R195, R196): a reduction of the exchange ends, with the result delivered, or with TIMEOUT. -/
def execGovExchangeResult (timeout : Bool) (s : State) : Next :=
  .next (match s.coll.exch with
  | none => s
  | some x =>
    if timeout then
      if s.job.st = .running ∧ (!x.open_.isEmpty ∨ x.next < 2 * s.layers) then (s.exchangeFail .timeout).settleStreams else s
    else match x.results with
      | [] => s
      | (k, st, p) :: rest =>
        ({ s with coll := { s.coll with exch := some { x with results := rest } } }.exchangeEnd k st p).settleStreams)

end Sys2Proof.Machine
end

