-- ==== Sys2Proof/Machine/Topology.lean ====
section
/-! DEFINITION. The topology comparison of R469, what it does to health (R501), and the replies of the management port (R577). -/

namespace Sys2Proof.Machine

/-! ## Topology -/

/-- The cores an entry of TOPOLOGY names: active, spare and borrowed. -/
def TopoEntry.cores (e : TopoEntry) : List Nat :=
  ((below 12 e.active.testBit) ++ (if e.spare < 12 then [e.spare] else [])).map (coreIdx e.cluster) ++
  (if e.borrow then [coreIdx (4 * (e.cluster / 4) + e.lender) e.core] else [])

/-- The first cause on which the comparison fails, with its item: 1 CORE, 2 STACK, 3 PARTNER; 4 PORT_WAIT, pending (R478). -/
def State.topoCause (s : State) : Option (Nat × Nat) :=
  let used := below 16 fun p => decide (s.portRole p ≠ 0)
  match (s.blend.topo.flatMap TopoEntry.cores).find? fun i => !s.coreGood i with
  | some i => some (1, i)
  | none => match (List.range 64).find? fun n => s.blend.stackMask.testBit n && !(s.stack n).ready with
    | some n => some (2, n)
    | none => match used.find? fun p => decide (s.portState p = psActive) && !s.topoMatch p with
      | some p => some (3, p)
      | none => (used.find? fun p => !decide (s.portState p = psActive) && !decide (s.portState p = psFast)).map (4, ·)

/-- Health as the conditions of R499 leave it, once the failure is gone. -/
def State.healHealth (s : State) : State :=
  let bad := decide (s.rfield .topMod 0 Reg.TOP_HEALTH 4 0 ≠ 0)
  let s := (s.setHealth (b2n bad)).rset .topMod 0 Reg.TOP_HEALTH 27 24 0
  (s.rbit .topMod 0 Reg.TOP_HEALTH 8 bad).sendStatus

/-- Show a comparison in TOP_TOPO and CFG_STATUS. -/
def State.showTopo (s : State) (ok pending : Bool) (cause item : Nat) : State :=
  (s.poke .topMod 0 Reg.TOP_TOPO (mkWord [(item, 16), (cause, 8), (b2n pending, 1), (b2n ok, 0)])).rbit .cfgMod 0
    Reg.CFG_STATUS 4 ok

/-- The comparison (R469). A load that heals health with any cause is `heal`. -/
def State.judgeTopo (s : State) (heal : Bool) : State :=
  match s.topoCause with
  | some (4, p) => s.showTopo false true 4 p
  | some (c, i) => ((s.showTopo false false c i).raise .topMod 0 Reg.TOP_EVENT 5).failHealth 1
  | none =>
    let s := s.showTopo true false 0 0
    if s.health = 2 ∧ (heal ∨ s.rfield .topMod 0 Reg.TOP_HEALTH 27 24 = 1) then s.healHealth else s

/-- The comparison is made again after a change of readiness, with a Blend loaded and no job open. -/
def State.compareTopo (s : State) : State :=
  if s.job.isOpen ∨ s.blend.topo.isEmpty ∨ ¬ (s.topState = stReady ∨ s.topState = stDraining ∨ s.topState = stWarm) then s
  else s.judgeTopo false

/-! ## Replies of the management port -/

/-- Answer a management request; those to the bound manager are kept (R577). -/
def State.mgtReply (s : State) (src : MgtSrc) (seq : BitVec 32) (type job : Nat) (st : Status) (body : List Byte) : State :=
  let bytes := mgtBytes type st.code true seq.toNat job body
  let s := (s.send (.mgt src bytes)).add .mgtMod 0 Reg.MGT_TX 1
  if s.mgt.manager = some src then
    { s with mgt := { s.mgt with replies := ((src, seq, s.now, bytes) :: s.mgt.replies).take 64 } }
  else s

/-- A port has done its part of a JOB_FENCE (R581); the last one brings the reply. -/
def State.fencePortDone (s : State) (p : Nat) : State :=
  match s.mgt.fence with
  | none => s
  | some f =>
    let left := f.ports.filter fun q => !decide (q = p)
    if left.isEmpty then
      ({ s with mgt := { s.mgt with fence := none } } : State).mgtReply f.src f.seq f.type.toNat f.job .ok []
    else { s with mgt := { s.mgt with fence := some { f with ports := left } } }

end Sys2Proof.Machine
end

