-- ==== Sys2Proof/Machine/WeightCmds.lean ====
section
/-! DEFINITION. The commands of the Infusers and of weight versions: acceptance, requests, answers, pushes, timeouts, deliveries and
staging (R258 to R274). -/

namespace Sys2Proof.Machine

/-- WREQ_ACCEPT (R258): the Infuser of a port takes its oldest waiting WREQ. -/
def execWreqAccept (port : Nat) (s : State) : Next :=
  .next (if 16 ≤ port then s else (s.acceptWreq port).settleStreams)

/-- WGET (R259): the Infuser of a port sends its next requests. -/
def execWget (port : Nat) (s : State) : Next :=
  .next (if 16 ≤ port then s else (s.wget port).settleStreams)

/-- A request type that only a server serves, at this module: answered UNAVAILABLE (DESIGN CHOICE, log entry 39). -/
def State.notServer (s : State) (p : Nat) (m : Msg) : State := s.cplTo p m .unavailable

/-- WDATA reaches the request that its tag names (R268, R274). -/
def State.wdataIn (s : State) (p : Nat) (m : Msg) : State :=
  let t := m.tag.toNat
  if ¬ m.resp ∨ s.tagUse p t ≠ some .infuser then s.lateReply p m
  else
    let s := s.freeTag p t
    match s.chunkOfTag p t with
    | some (inf, c) => if m.st = .ok then s.chunkReply inf c m.body else s.fetchFailed p t false
    | none => match s.manOfTag p t with
      | some f => if m.st = .ok then s.manReply f m.body else s.fetchFailed p t false
      | none => s.lateReply p m

/-- WDATA (R274). -/
def execWdata (port : Nat) (m : Msg) (s : State) : Next := .next (s.message port m [mWdata] fun s => s.wdataIn port m)

/-- The Infuser fed by the pushes that arrive on peer port `q` (R264). -/
def State.follower (s : State) (q : Nat) : Option Nat :=
  (List.range 16).find? fun p =>
    let w := s.peek .infPort p Reg.INF_PASSON
    flag w 63 && decide (fld w 51 48 = q)

/-- A push is dropped (R265). -/
def State.dropPush (s : State) (p : Nat) : State := (s.bump .infPort p Reg.INF_PUSH_DROPS 1).raise .infPort p Reg.INF_EVENT 7

/-- A WPUSH at the Infuser it feeds: used for an outstanding chunk, held, or dropped (R265). -/
def State.pushIn (s : State) (p : Nat) (b : List Byte) : State :=
  let x := s.inf p
  let v := wVersion b
  let same (c : InfChunk) : Bool :=
    decide (c.version = v ∧ c.layer = wLayer b ∧ c.kind = wKind b ∧ c.what = .chunk (wChunk b)) && c.arrived.isNone && c.content.isNone
  let known := decide (s.wts.active = some v) || x.reqs.any fun q => decide (q.version = v)
  match x.chunks.find? same with
  | some c =>
    (s.setChunk p { c with follow := false, arrived := some (b.drop 64), source := 1, hop := wHop b, origin := wOrigin b }).verify p
  | none =>
    if ¬ known ∨ 64 ≤ x.pushes.length ∨ 256 ≤ x.places then s.dropPush p
    else
      let h : HeldPush :=
        { version := v, layer := wLayer b, kind := wKind b, chunk := wChunk b, hop := wHop b, origin := wOrigin b, content := b.drop 64 }
      s.setInf p { x with pushes := x.pushes ++ [h] }

/-- A WPUSH reaches the Infuser that the port's pushes feed; where there is none it goes. -/
def State.wpushIn (s : State) (q : Nat) (m : Msg) : State :=
  match s.follower q with
  | none => s
  | some p => s.pushIn p m.body

/-- WPUSH (R264, R265). -/
def execWpush (port : Nat) (m : Msg) (s : State) : Next := .next (s.message port m [mWpush] fun s => s.wpushIn port m)

/-- A request under a tag has no answer in time: the tag is held (R15), and the request goes on to its next attempt; a WPUB waits
for WPUB_TIMEOUT. -/
def execAttemptTimeout (port tag : Nat) (s : State) : Next :=
  .next (if 16 ≤ port ∨ s.tagUse port tag ≠ some .infuser ∨ (s.pubOfTag port tag).isSome then s
  else ((s.holdTag port tag).fetchFailed port tag true).settleStreams)

/-- FOLLOW_TIMEOUT (R264): no push of the oldest chunk that waits for one: its first request goes to a server. -/
def execFollowTimeout (port : Nat) (s : State) : Next :=
  .next (if 16 ≤ port then s
  else match (s.inf port).chunks.find? (·.follow) with
  | none => s
  | some c => (s.nextAttempt port { c with follow := false }).settleStreams)

/-- PUSH_HOLD_EXPIRY (R265): the oldest held push is dropped. -/
def execPushHoldExpiry (port : Nat) (s : State) : Next :=
  .next (if 16 ≤ port then s
  else
    let x := s.inf port
    match x.pushes with
    | [] => s
    | _ :: rest => (s.setInf port { x with pushes := rest }).dropPush port)

/-- CHUNK_DELIVER (R260): the next verified chunk in order lands in its rings. -/
def execChunkDeliver (x : DeliveryObs) (s : State) : Next :=
  .next (if 16 ≤ x.port then s else (s.deliverNext x.port x.fails).settleStreams)

/-- WACK reaches the WPUB that its tag names (R271). -/
def State.wackIn (s : State) (p : Nat) (m : Msg) : State :=
  let t := m.tag.toNat
  if ¬ m.resp ∨ s.tagUse p t ≠ some .infuser then s.lateReply p m
  else
    let s := s.freeTag p t
    match s.pubOfTag p t with
    | none => s.lateReply p m
    | some w => if m.st = .ok then s.pubAcked w else s.pushPub { w with tag := none }

/-- WACK (R271). -/
def execWack (port : Nat) (m : Msg) (s : State) : Next := .next (s.message port m [mWack] fun s => s.wackIn port m)

/-- WPUB_TIMEOUT (R271): a WPUB without an acknowledgement goes to the next server. -/
def execWpubTimeout (port tag : Nat) (s : State) : Next :=
  .next (match s.pubOfTag port tag with
  | none => s
  | some w => ((s.holdTag port tag).pushPub { w with tag := none }).settleStreams)

/-- STAGE_VERSION (R268, R273): a write of INF_STAGE with cancel 0. -/
def execStageVersion (_ : Writer) (v : Word) (s : State) : Next :=
  .next (if flag v 32 then s
  else
    let r := s.wrStage v
    (r.2.answer r.1).settleStreams)

/-- STAGE_CANCEL (R273): a write of INF_STAGE with cancel 1. -/
def execStageCancel (_ : Writer) (v : Word) (s : State) : Next :=
  .next (if ¬ flag v 32 then s
  else
    let r := s.wrStage v
    (r.2.answer r.1).settleStreams)

/-- MANIFEST_RETRY (R268): a fetch whose WMAN was answered UNAVAILABLE, timed out or could not be sent is tried again. -/
def execManifestRetry (s : State) : Next :=
  .next ((s.wts.man.filter fun f => f.tag.isNone).foldl State.sendMan s).settleStreams

/-- STAGE_LIMIT_EXPIRY (R269, R515): the limit since the first waiting WREQ has passed. -/
def execStageLimitExpiry (s : State) : Next :=
  .next (if s.wts.waitFrom.isNone then s
  else match s.stageState with
  | 1 => ((((s.dropMan false).setStage 3 5 s.stagedVersion []).stageEvent 2).stageEvent 3).failWaiting.settleStreams
  | 2 => s
  | _ =>
    if s.wts.active.isNone then (s.stageEvent 3).failWaiting.settleStreams
    else if s.wts.man.any (·.forActive) then (((s.dropMan true).stageEvent 10).failWaiting).settleStreams
    else s)

end Sys2Proof.Machine
end

