-- ==== Sys2Proof/Machine/Ports.lean ====
section
/-! DEFINITION. The life of a stream port (R334 to R371): training, HELLO, lane swaps, retry, fences, job fences on a link, and the
commands and tests of a port. -/

namespace Sys2Proof.Machine

/-! ## Requests that end without an answer -/

/-- The request under a tag ends with a status other than its reply (R357): TIMEOUT holds the tag out of use (R15). -/
def State.endRequest (s : State) (p : Nat) (t : Nat × TagUse) (st : Status) : State :=
  let s := if st = .timeout then s.holdTag p t.1 else s.freeTag p t.1
  match t.2 with
  | .infuser => match s.pubOfTag p t.1 with
    | some w => s.pushPub { w with tag := none }
    | none => s.fetchFailed p t.1 (decide (st = .timeout))
  | .bcopy => s.bcopyEnds p t.1 (if st = .ok then .malformed else st)
  | .jfence => (s.setPort p { s.port p with jfence := none }).fencePortDone p
  | .gform => s

/-- A request that waits for a tag ends (R347, R357). -/
def State.endWaiting (s : State) (p : Nat) (q : TagUse × Msg) (st : Status) : State :=
  match q.1 with
  | .bcopy => s.bcopyEnds p (tagWaiting - 1) st
  | .jfence => (s.setPort p { s.port p with jfence := none }).fencePortDone p
  | _ => s

/-- Every request pending on a port ends. -/
def State.endPending (s : State) (p : Nat) (st : Status) : State :=
  let x := s.port p
  let s := s.setPort p { x with tagq := [], tagWait := false }
  (x.tags.foldl (fun s t => s.endRequest p t st) (x.tagq.foldl (fun s q => s.endWaiting p q st) s)).formAgain p

/-! ## Fences -/

/-- A port whose link layer is up. -/
def linkedStates : List Nat := [psLinkUp, psActive, psFast, psNoVersion, psRoleMismatch]

/-- The port takes a state in which it sends and receives nothing; its requests end. -/
def State.closePort (s : State) (p v : Nat) : State :=
  let was := s.portState p
  let x := s.port p
  let s := (s.setPort p { x.fresh with credits := [0, 0, 0, 0], txq := [], jfAnswer := none, rebind := false }).setPortState p v
  let s := s.rbit .lnkPort p Reg.LNK_STATUS 9 false
  let s := if was = psActive ∨ was = psFast ∨ v = psFenced then s.raise .lnkPort p Reg.LNK_EVENT 1 else s
  s.endPending p .unavailable

/-- A server entry of some Infuser can still be used once port `p` is fenced: its port is neither fenced nor disabled. -/
def State.serversLeft (s : State) (p : Nat) : Bool :=
  (List.range 16).all fun i =>
    let es := s.servers i
    !(es.any fun e => decide (e.1 = p)) ||
      es.any fun e => decide (s.portState e.1 ≠ psFenced) && decide (s.portState e.1 ≠ psDisabled)

/-- A fenced port is a failure (R484): a server port while other entries remain, or a port that nothing replaces. -/
def State.portFailed (s : State) (p : Nat) : State :=
  let role := s.portRole p
  let uplink := s.coll.groups.any fun g => g.2.cfg.uplinks.contains p
  if role = 0 then s
  else if role = 2 ∧ ¬ uplink ∧ s.serversLeft p then s.faultLog csPort lvUnit .unavailable p
  else (s.failHealth 4).stepFail csPort lvReform .unavailable p

/-- A port is fenced (R334, R337, R342, R357). -/
def State.fencePort (s : State) (p : Nat) : State :=
  (((s.closePort p psFenced).funcReady 1 p .unavailable).portFailed p).compareTopo

/-! ## Retry (R341, R342) -/

/-- A full retrain, with what it interrupts: formations ask again. -/
def State.retrain (s : State) (p : Nat) : State := ((s.fullRetrain p).formAgain p).compareTopo

/-- Send every unacknowledged flit again, from the oldest. -/
def State.resend (s : State) (p : Nat) : State :=
  let x := s.port p
  if x.unacked.isEmpty then s
  else
    let s := (s.setPort p { x with replays := x.replays + 1 }).bump .lnkPort p Reg.LNK_REPLAYS 1
    let s := (s.rbit .lnkPort p Reg.LNK_STATUS 9 true).bump .lnkPort p Reg.LNK_FLITS_TX x.unacked.length
    s.sendPairs p (x.acked + 1) (x.unacked.map (·.bytes))

/-- Replay from the oldest unacknowledged flit; after retry_limit replays in a row the port full-retrains. During a lane swap the replay
waits for its end (R336). -/
def State.replay (s : State) (p : Nat) : State :=
  let x := s.port p
  if x.unacked.isEmpty ∨ s.portState p = psFast then s
  else if s.rfield .lnkMod 0 Reg.LNK_CTRL 15 8 ≤ x.replays then
    let s := (s.check cLink 0 0 0 1).bump .lnkPort p Reg.LNK_RETRY_LIMIT 1
    (s.raise .lnkPort p Reg.LNK_EVENT 5).retrain p
  else s.resend p

/-- ACK_TIMEOUT (R341, R342). -/
def execAckTimeout (port : Nat) (s : State) : Next :=
  .next (if 16 ≤ port ∨ ¬ linkedStates.contains (s.portState port) then s else (s.replay port).settleStreams)

/-! ## Lanes (R330, R336, R337) -/

/-- The physical lanes in use under an exclusion mask: the 32 lowest that are not excluded. -/
def lanesInUse (w : Word) : List Nat := (below 34 fun l => !flag w l).take 32

/-- Begin a fast retrain that excludes the receive lanes of `mask`: the pair headers carry retrain from here on (R336). -/
def State.fastRetrain (s : State) (p mask : Nat) : State :=
  let x := s.port p
  let st := s.portState p
  if st = psFast then s.setPort p { x with fastFail := x.fastFail ||| mask }
  else
    let s := (s.setPort p { x with fastFail := mask, fastFrom := st }).setPortState p psFast
    ((s.bump .lnkPort p Reg.LNK_LANE_SWAPS 1).raise .lnkPort p Reg.LNK_EVENT 3).sendPair p x.txSeq 0 0 []

/-- LANE_SYM_THRESHOLD (R336, R337, R357): a receive lane in use is swapped for a spare; without one the port is fenced. -/
def execLaneSymThreshold (port lane : Nat) (s : State) : Next :=
  .next (
    let w := s.peek .lnkPort port Reg.LNK_LANES_RX
    let going := (s.port port).fastFail
    if 16 ≤ port ∨ ¬ linkedStates.contains (s.portState port) ∨ ¬ (lanesInUse w).contains lane ∨ going.testBit lane then s
    else if 34 - popcount 34 (fld w 33 0 ||| going ||| 2 ^ lane) < 32 then (s.fencePort port).settleStreams
    else s.fastRetrain port (2 ^ lane))

/-- A receive lane of a port carries a test pattern: a spare not in use does at all times while the link is up, and a lane named by
LNK_TEST while its test runs (R336, R361). -/
def State.patternLane (s : State) (p l : Nat) : Bool :=
  let w := s.peek .lnkPort p Reg.LNK_LANES_RX
  let test := s.peek .lnkPort p Reg.LNK_TEST
  decide (l < 34) &&
    ((linkedStates.contains (s.portState p) && !flag w l && !(lanesInUse w).contains l) || (decide (fld test 37 36 ≠ 0) && flag test l))

/-- Errors that the pattern checker of a lane has counted (R336, R361). -/
def State.prbsErrors (p : Nat) (s : State) (e : Nat × Nat) : State :=
  if ¬ s.patternLane p e.1 ∨ e.2 = 0 then s
  else (s.add .lnkPort p (Reg.LNK_PRBS_ERRS + 8 * e.1) e.2).raise .lnkPort p Reg.LNK_EVENT 14

/-- SPARE_PRBS_EXCLUDE (R336): a spare receive lane is excluded. Its error count is a free value above the limit. -/
def execSparePrbsExclude (port lane : Nat) (s : State) : Next :=
  .next (
    let w := s.peek .lnkPort port Reg.LNK_LANES_RX
    if 16 ≤ port ∨ 34 ≤ lane ∨ ¬ linkedStates.contains (s.portState port) ∨ flag w lane ∨ (lanesInUse w).contains lane then s
    else
      let n := 30721 + Config.freeValue s.freeIx
      let s := (s.useFree 1).add .lnkPort port (Reg.LNK_PRBS_ERRS + 8 * lane) n
      ((s.raise .lnkPort port Reg.LNK_EVENT 14).excludeLanes port Reg.LNK_LANES_RX (2 ^ lane)).judgeLanes port)

/-- A direction would be left with fewer than 32 lanes. -/
def tooFew (mask : Nat) : Bool := decide (34 - popcount 34 mask < 32)

/-- FAST_RETRAIN_COMPLETE (R330, R336): the failing lanes are excluded, with those of the mask `tx` that the partner asks for; the
transmitter replays from the last acknowledged flit. -/
def execFastRetrainComplete (port tx : Nat) (s : State) : Next :=
  .next (if 16 ≤ port ∨ s.portState port ≠ psFast then s
  else
    let x := s.port port
    let out_ := tx ||| s.rfield .lnkPort port Reg.LNK_LANES_TX 33 0
    let s := (s.setPort port { x with fastFail := 0 }).setPortState port x.fastFrom
    let s := (s.excludeLanes port Reg.LNK_LANES_RX x.fastFail).excludeLanes port Reg.LNK_LANES_TX (tx % 2 ^ 34)
    if tooFew out_ then (s.fencePort port).settleStreams
    else
      let s := s.judgeLanes port
      (((s.resend port).pump port).compareTopo).settleStreams)

/-- FAST_RETRAIN_TIMEOUT (R336): the port falls back to a full retrain. -/
def execFastRetrainTimeout (port : Nat) (s : State) : Next :=
  .next (if 16 ≤ port ∨ s.portState port ≠ psFast then s else (s.retrain port).settleStreams)

/-! ## Training (R334) -/

/-- PARTNER_DETECT (R334 step 2). -/
def execPartnerDetect (port : Nat) (s : State) : Next :=
  .next (if 16 ≤ port ∨ s.portState port ≠ psDetect ∨ ¬ s.tim.refclk then s else s.setPortState port psTrain)

/-- Lanes fuses exclude in a direction (R462). -/
def State.fusedLanes (s : State) (p : Nat) (rx : Bool) : Nat := Smap.get 0 (if rx then s.fuse.laneRx else s.fuse.laneTx) p % 2 ^ 34

/-- Set the exclusion mask of a direction, as training leaves it. -/
def State.setLanes (s : State) (p o mask : Nat) : State := (s.rset .lnkPort p o 33 0 0).excludeLanes p o mask

/-- PORT_TRAIN_COMPLETE (R329, R334 steps 3 to 7, R342): training ends with the lanes it excludes in each direction and the transmit
lanes whose precoder the partner asked for, or fails; the third failure in a row fences the port. -/
def execPortTrainComplete (port : Nat) (ok : Bool) (rx : Nat) (tx : TxTraining) (s : State) : Next :=
  .next (if 16 ≤ port ∨ s.portState port ≠ psTrain ∨ ¬ s.tim.refclk then s
  else
    let x := s.port port
    if ¬ ok then
      let s := s.setPort port { x with trainFails := x.trainFails + 1 }
      (if 3 ≤ x.trainFails + 1 then s.fencePort port else s.retrain port).settleStreams
    else
      let r := rx % 2 ^ 34 ||| s.fusedLanes port true
      let t := tx.lanes % 2 ^ 34 ||| s.fusedLanes port false
      let s := (s.setLanes port Reg.LNK_LANES_RX r).setLanes port Reg.LNK_LANES_TX t
      if tooFew r ∨ tooFew t then (s.fencePort port).settleStreams
      else
        let s := (s.setPort port { x.fresh with trainFails := 0, precode := tx.precode % 2 ^ 34 }).setPortState port psLinkUp
        (((s.judgeLanes port).sendHello port).compareTopo).settleStreams)

/-! ## HELLO (R351 to R353, R357) -/

/-- Record a partner's HELLO in LNK_PARTNER, with the generation chosen and the comparison. -/
def State.recordHello (s : State) (p : Nat) (b : List Byte) (gen : Nat) (matched : Bool) : State :=
  let w := mkWord [(1, 63), (gen, 58), (bitsAt b 0 3 2, 56), (bitsAt b 0 1 0, 54), (bitsAt b 1 3 0, 48), (bitsAt b 1 7 4, 44),
    (leAt b 2 2, 16), (b2n matched, 0)]
  (s.poke .lnkPort p Reg.LNK_PARTNER w).setPort p { s.port p with msgset := leAt b 8 32, partnerJob := leAt b 4 2 }

/-- The partner's role is the one the port's role requires (R348). -/
def rolePair (own partner : Nat) : Bool :=
  decide (own = 1 ∧ partner = 1) || decide (own = 2 ∧ partner = 4) || decide (own = 3 ∧ partner = 3)

/-- The partner is the one LNK_ROLE names (R353). -/
def State.partnerFits (s : State) (p : Nat) (b : List Byte) : Bool :=
  let w := s.peek .lnkPort p Reg.LNK_ROLE
  let role := bitsAt b 1 3 0
  if fld w 31 16 = 0xFFFF ∧ fld w 11 8 = 4 then decide (role = 4)
  else decide (leAt b 2 2 = fld w 31 16) && decide (bitsAt b 1 7 4 = fld w 15 12) && decide (role = fld w 11 8)

/-- A HELLO whose gen_min or gen_max is 0 counts as malformed (R352). -/
def State.helloGens (s : State) (p : Nat) (b : List Byte) : State :=
  if bitsAt b 0 1 0 = 0 ∨ bitsAt b 0 3 2 = 0 then (s.bump .lnkPort p Reg.LNK_MALFORMED 1).raise .lnkPort p Reg.LNK_EVENT 11 else s

/-- Negotiate with a HELLO (R352, R353). -/
def State.negotiate (s : State) (p : Nat) (b : List Byte) : State :=
  let lo := bitsAt b 0 1 0
  let hi := bitsAt b 0 3 2
  let s := s.helloGens p b
  if lo = 0 ∨ hi = 0 ∨ ¬ (max 1 lo ≤ min 1 hi) then
    ((s.recordHello p b 0 false).setPortState p psNoVersion).raise .lnkPort p Reg.LNK_EVENT 6
  else if ¬ rolePair (s.portRole p) (bitsAt b 1 3 0) then
    ((s.recordHello p b 1 false).setPortState p psRoleMismatch).raise .lnkPort p Reg.LNK_EVENT 7
  else
    let fits := s.partnerFits p b
    let s := ((s.recordHello p b 1 fits).setPortState p psActive).raise .lnkPort p Reg.LNK_EVENT 0
    let s := if fits then s else s.raise .lnkPort p Reg.LNK_EVENT 8
    (s.funcReady 1 p .ok).pump p

/-- A HELLO arrives. While ACTIVE it says that the partner has restarted (R357); a port in NO_VERSION or ROLE_MISMATCH records it
and stays there (R352). -/
def State.helloIn (s : State) (p : Nat) (m : Msg) : State :=
  let st := s.rxState p
  if st = psActive then
    let s := (s.bump .lnkPort p Reg.LNK_PARTNER_RESETS 1).raise .lnkPort p Reg.LNK_EVENT 9
    let s := ((s.setPortState p psLinkUp).raise .lnkPort p Reg.LNK_EVENT 1).endPending p .timeout
    ((s.sendHello p).negotiate p m.body).compareTopo
  else if st = psLinkUp then (s.negotiate p m.body).compareTopo
  else (s.helloGens p m.body).recordHello p m.body 0 false

/-- HELLO (R352). -/
def execHello (port : Nat) (m : Msg) (s : State) : Next := .next (s.message port m [mHello] fun s => s.helloIn port m)

/-- HELLO_REPEAT (R334 step 7). -/
def execHelloRepeat (port : Nat) (s : State) : Next :=
  .next (if 16 ≤ port ∨ s.portState port ≠ psLinkUp then s else s.sendHello port)

/-! ## CPL and job fences -/

/-- CPL (R346): a status-only answer to a tagged request. -/
def State.cplIn (s : State) (p : Nat) (m : Msg) : State :=
  match (s.port p).tags.find? fun t => decide (t.1 = m.tag.toNat) with
  | none => s.lateReply p m
  | some t => if m.resp then s.endRequest p t (if m.st = .timeout then .unavailable else m.st) else s.lateReply p m

/-- CPL_RECEIVE (R346). -/
def execCplReceive (port : Nat) (m : Msg) (s : State) : Next :=
  .next (s.message port m [mCpl] fun s => s.cplIn port m).flushErr.settleStreams

/-- The job of a port is fenced (R356): what is not yet placed in flits goes, and the port is unbound. -/
def State.fenceJob (s : State) (p : Nat) : State :=
  let j := s.portJob p
  let x := s.port p
  let s := s.setPort p { x with txq := x.txq.filter fun t =>
    !(decide (t.msg.job.toNat = j) && decide (t.left = msgFlits t.msg)) }
  s.rset .lnkPort p Reg.LNK_ROLE 63 32 0

/-- JFENCE_DONE goes out once every flit of the job sent is acknowledged. -/
def State.answerFence (s : State) (p : Nat) : State :=
  let x := s.port p
  match x.jfAnswer with
  | none => s
  | some (t, j) =>
    if (x.unacked.any fun u => decide (u.job.toNat = j)) ∨ (x.txq.any fun u => decide (u.msg.job.toNat = j)) then s
    else
      let s := s.setPort p { x with jfAnswer := none }
      s.post p { s.newMsg p mJfenceDone [] with job := 0, resp := true, tag := BitVec.ofNat 14 t }

/-- JFENCE (R356). -/
def State.jfenceIn (s : State) (p : Nat) (m : Msg) : State :=
  let j := leAt m.body 0 2
  let bound := decide (s.portJob p = j) && decide (j ≠ 0)
  let s := if bound then s.fenceJob p else s
  if ¬ m.req then s
  else if bound then (s.setPort p { s.port p with jfAnswer := some (m.tag.toNat, j) }).answerFence p
  else s.post p { s.replyMsg p m mJfenceDone .ok [] with job := 0 }

def execJfence (port : Nat) (m : Msg) (s : State) : Next := .next (s.message port m [mJfence] fun s => s.jfenceIn port m)

/-- This module fences its job on a port: JFENCE goes out, or waits for a tag, and the answer is awaited (R347, R356, R581). To a
partner whose message set has no JFENCE none goes, and the port is done (R350). -/
def State.sendFence (s : State) (p j : Nat) : State :=
  let s := s.fenceJob p
  if s.portState p = psActive ∧ ¬ (s.port p).msgset.testBit mJfence then s.fencePortDone p
  else
    let r := s.takeTag p .jfence
    let m := { s.newMsg p mJfence (leBytes 2 j ++ zeros 2) with job := 0, req := true }
    match r.1 with
    | none => r.2.setPort p { r.2.port p with jfence := some (tagWaiting - 1), tagq := (r.2.port p).tagq ++ [(.jfence, m)] }
    | some t => (r.2.setPort p { r.2.port p with jfence := some t }).post p { m with tag := BitVec.ofNat 14 t }

/-- JFENCE_DONE (R581). -/
def State.fenceAnswered (s : State) (p : Nat) (m : Msg) : State :=
  let t := m.tag.toNat
  if ¬ m.resp ∨ s.tagUse p t ≠ some .jfence then s.lateReply p m
  else
    let s := s.freeTag p t
    (s.setPort p { s.port p with jfence := none }).fencePortDone p

def execJfenceDone (port : Nat) (m : Msg) (s : State) : Next :=
  .next (s.message port m [mJfenceDone] fun s => s.fenceAnswered port m)

/-- JFENCE_TIMEOUT (R581): a port without an answer full-retrains, if its link is up, and counts as done. -/
def execJfenceTimeout (port : Nat) (s : State) : Next :=
  .next (if 16 ≤ port then s
  else
    let x := s.port port
    match x.jfence with
    | none => s
    | some t =>
      let s := (s.setPort port { x with jfence := none, tagq := x.tagq.filter fun q => !decide (q.1 = .jfence) }).holdTag port t
      let s := if linkedStates.contains (s.portState port) then s.retrain port else s
      (s.fencePortDone port).settleStreams)

/-! ## Codeword pairs (R332, R333, R338 to R343) -/

/-- The check nibble of a pair header holds. -/
def pairHeaderOk (h : BitVec 40) : Bool :=
  decide (headerCheck h.toNat = fld h 39 36)

/-- A message arrives whole: what its type does. -/
def State.handleMsg (s : State) (p : Nat) (m : Msg) : State :=
  let t := m.type.toNat
  if t = mHello then s.helloIn p m
  else if t = mCpl then s.cplIn p m
  else if t = mJfence then s.jfenceIn p m
  else if t = mJfenceDone then s.fenceAnswered p m
  else if t = mWget ∨ t = mWidx ∨ t = mWman ∨ t = mWpub then s.notServer p m
  else if t = mWdata then s.wdataIn p m
  else if t = mWpush then s.wpushIn p m
  else if t = mWack then s.wackIn p m
  else if t = mRchunk then s.rchunkIn p m
  else if t = mRresend then s.rresendIn p m
  else if t = mRdone then s.rdoneIn p m
  else if t = mGform then s.gformIn p m
  else if t = mBcopy then s.bcopyIn p m
  else if t = mBack then s.backIn p m
  else s

/-- The partner has broken a rule of the link (R357). -/
def State.linkMalformed (s : State) (p : Nat) : State :=
  (s.bump .lnkPort p Reg.LNK_MALFORMED 1).raise .lnkPort p Reg.LNK_EVENT 11

/-- Flits that do not make a message: answered and counted as one whose length disagrees with its flits, by the header in `bs` where it
has come whole (R349). -/
def State.brokenMsg (s : State) (p : Nat) (bs : List Byte) : State :=
  let m := parseMsg bs
  let st := s.rxState p
  let hello := decide (32 ≤ bs.length ∧ m.type.toNat = mHello)
  if st = psActive ∨ hello then (if 32 ≤ bs.length then s.msgMalformed p m else s.linkMalformed p)
  else s.bump .lnkPort p Reg.LNK_ROLE_DENIED 1

/-- A flit received good and in order: its body joins the message in progress in its class (R339, R340). -/
def State.takeFlit (s : State) (p : Nat) (f : FlitBytes) : State :=
  let kind := bitsAt f 0 1 0
  let cls := bitsAt f 0 3 2
  let body := (f.drop 2).take (min 250 (leAt f 1 1 + 1))
  let padded := decide (leAt f 1 1 < 250) && allZero ((f.drop (2 + body.length)).take (250 - body.length))
  let x := s.port p
  let cur := nth none x.rx cls
  let put (s : State) (v : Option (List Byte)) : State := s.setPort p { s.port p with rx := setNth (s.port p).rx cls v }
  if kind = 3 ∨ bitsAt f 0 7 5 ≠ 0 ∨ ¬ padded then (put s none).brokenMsg p (if kind = 1 then body else cur.getD [])
  else
    let s := if kind = 1 then (match cur with | some bs => s.brokenMsg p bs | none => s) else s
    let whole : Option (List Byte) := if kind = 1 then some body else cur.map (· ++ body)
    match whole with
    | none => s.brokenMsg p []
    | some bs =>
      if bitsAt f 0 4 4 = 0 then put s (some bs)
      else if bs.length < 32 then (put s none).brokenMsg p bs
      else
        let m := parseMsg bs
        (put s none).arrive p m fun s => s.handleMsg p m

/-- One flit of a good pair. `acc`: the sequence number it takes, credit owed by class, and the state. -/
def takePairFlit (p : Nat) (acc : Nat × List Nat × State) (f : FlitBytes) : Nat × List Nat × State :=
  let (q, owed, s) := acc
  let x := s.port p
  if ¬ decide (leAt f 0xFC 4 = (crc32 (f.take 0xFC)).toNat) then
    let s := (s.bump .lnkPort p Reg.LNK_CRC_FAILS 1).check cLink 0 1 0 0
    ((q + 1) % 4096, owed, s.setPort p { s.port p with naking := true })
  else if bitsAt f 0 1 0 = 0 then (q, owed, s)
  else
    let s := (s.bump .lnkPort p Reg.LNK_FLITS_RX 1).check cLink 1 0 0 0
    let next := (q + 1) % 4096
    if q ≠ x.rxSeq then
      let ahead := decide ((q + 4096 - x.rxSeq) % 4096 < 2048)
      (next, owed, s.setPort p { s.port p with naking := x.naking || ahead })
    else
      let s := if x.naking then s.check cLink 0 0 1 0 else s
      let s := s.setPort p { s.port p with naking := false, rxSeq := next }
      (next, modNth owed (bitsAt f 0 3 2) (· + 1), s.takeFlit p f)

/-- A port acknowledges what it has, or asks for a replay, and returns credit: a pair for each class that is owed some. -/
def State.sendAck (s : State) (p : Nat) (owed : List Nat) : State :=
  let q := (s.port p).txSeq
  if owed.all (fun n => decide (n = 0)) then s.sendPair p q 0 0 []
  else owed.zipIdx.foldl (fun s c => if c.1 = 0 then s else s.sendPair p q c.2 c.1 []) s

/-- The header of a good pair: credit, acknowledgement, a replay asked for, a fast retrain asked for. Answers false where the
partner broke the rules of R357. -/
def State.pairHeader (s : State) (p : Nat) (h : BitVec 40) : Bool × State :=
  let x := s.port p
  match (x.credit (fld h 27 26) (fld h 35 28)).bind fun y => y.ackTo (fld h 23 12) with
  | none => (false, (s.linkMalformed p).retrain p)
  | some y =>
    let s := s.setPort p y
    let s := if y.unacked.length < x.unacked.length then s.rbit .lnkPort p Reg.LNK_STATUS 9 false else s
    let s := s.answerFence p
    let asked := flag h 24 && !(s.port p).nakSeen
    let s := s.setPort p { s.port p with nakSeen := flag h 24 }
    let s := if asked then s.replay p else s
    let s := if flag h 25 ∧ linkedStates.contains (s.portState p) then s.fastRetrain p 0 else s
    (linkedStates.contains (s.portState p), s.pump p)

/-- A pair arrives. -/
def State.pairIn (s : State) (p : Nat) (o : PairObs) : State :=
  let s := o.corrected.foldl (fun s c =>
    if 34 ≤ c.1 then s
    else (s.add .lnkPort p (Reg.LNK_LANE_SYMS + 8 * c.1) c.2).bump .lnkPort p Reg.LNK_FEC_CORRECTED c.2) s
  if o.uncorrectable ∨ ¬ pairHeaderOk o.header then
    let s := (s.bump .lnkPort p Reg.LNK_FEC_UNCORR 1).check cLink 0 1 0 0
    (s.setPort p { s.port p with naking := true }).sendAck p []
  else
    let r := s.pairHeader p o.header
    if ¬ r.1 then r.2
    else
      let a := (o.flits.take 5).foldl (takePairFlit p) (fld o.header 11 0, [0, 0, 0, 0], r.2)
      if linkedStates.contains (a.2.2.portState p) then a.2.2.sendAck p a.2.1 else a.2.2

/-- PAIR_RECEIVE (R332 to R343), with what the pattern checkers of the port's lanes have counted. -/
def execPairReceive (port : Nat) (o : PairObs) (s : State) : Next :=
  .next (if 16 ≤ port then s
  else
    let s := o.prbs.foldl (State.prbsErrors port) s
    if ¬ linkedStates.contains (s.portState port) then s else (s.pairIn port o).flushErr.settleStreams)

/-! ## Commands of a port (R367) -/

/-- A port begins to look for its partner (R334 step 2). -/
def State.startPort (s : State) (p : Nat) : State :=
  let x := s.port p
  ((s.setPort p { x.fresh with credits := [0, 0, 0, 0], trainFails := 0, txq := [] }).setPortState p psDetect).rset .lnkPort p Reg.LNK_PARTNER 63 0 0

/-- A write of LNK_PORT_CMD. -/
def State.wrPortCmd (s : State) (p : Nat) (v : Word) : Status × State :=
  let c := fld v 3 0
  let st := s.portState p
  if ¬ flag v 63 then (.ok, s)
  else if c = 0 ∨ 5 < c then (.malformed, s)
  else if st = psTrain then (.busy, s)
  else if c ≠ 4 ∧ (st = psDisabled ∨ st = psFenced) then (.denied, s)
  else
    (.ok, match c with
      | 1 => s.retrain p
      | 2 => if linkedStates.contains st then s.fastRetrain p 0 else s
      | 3 => (s.closePort p psDisabled).compareTopo
      | 4 => if st = psDisabled ∧ s.portRole p ≠ 0 then s.startPort p else s
      | _ => s.sipGoesDown p)

/-- A write of LNK_PORT_CMD with the command `c` of the row; a write without go does nothing. -/
def State.portRow (s : State) (p : Nat) (v : Word) (mine : Nat → Bool) : State :=
  if 16 ≤ p ∨ ¬ mine (fld v 3 0) then s
  else
    let r := s.wrPortCmd p v
    (r.2.answer r.1).settleStreams

/-- FULL_RETRAIN (R367): command 0x1. -/
def execFullRetrain (port : Nat) (v : Word) (s : State) : Next := .next (s.portRow port v fun c => decide (c = 1))

/-- FAST_RETRAIN (R367): command 0x2. -/
def execFastRetrain (port : Nat) (v : Word) (s : State) : Next := .next (s.portRow port v fun c => decide (c = 2))

/-- PORT_DISABLE (R357, R367): command 0x3. -/
def execPortDisable (port : Nat) (v : Word) (s : State) : Next := .next (s.portRow port v fun c => decide (c = 3))

/-- PORT_ENABLE (R367): command 0x4. -/
def execPortEnable (port : Nat) (v : Word) (s : State) : Next := .next (s.portRow port v fun c => decide (c = 4))

/-- SIP_RETRAIN (R367): command 0x5. -/
def execSipRetrain (port : Nat) (v : Word) (s : State) : Next := .next (s.portRow port v fun c => decide (c = 5))

/-! ## Tests (R361, R371) -/

/-- The lanes of a port that are in use in either direction. -/
def State.usedLanes (s : State) (p : Nat) : List Nat :=
  lanesInUse (s.peek .lnkPort p Reg.LNK_LANES_RX) ++ lanesInUse (s.peek .lnkPort p Reg.LNK_LANES_TX)

/-- A write of LNK_TEST. -/
def State.wrLnkTest (s : State) (p : Nat) (v : Word) : Status × State :=
  let mode := fld v 37 36
  let st := s.portState p
  let named := fld v 33 0
  let quiet := decide (st = psDisabled ∨ st = psTest ∨ st = psFenced)
  if mode = 3 ∨ fld v 39 38 = 3 then (.malformed, s)
  else if mode = 2 ∧ ¬ quiet then (.denied, s)
  else if mode ≠ 0 ∧ (st = psLinkUp ∨ st = psActive ∨ st = psFast) ∧ (s.usedLanes p).any named.testBit then (.busy, s)
  else
    let s := s.rset .lnkPort p Reg.LNK_TEST 39 36 (fld v 39 36)
    let s := s.rset .lnkPort p Reg.LNK_TEST 33 0 named
    let all := decide (mode ≠ 0) && decide (named = 2 ^ 34 - 1)
    (.ok, if all ∧ st ≠ psFenced then (s.closePort p psTest).compareTopo
      else if st = psTest ∧ ¬ all then s.setPortState p psDisabled else s)

/-- LNK_TEST (R361). -/
def execLnkTest (port : Nat) (v : Word) (s : State) : Next :=
  .next (if 16 ≤ port then s
  else
    let r := s.wrLnkTest port v
    (r.2.answer r.1).settleStreams)

/-- TAG_HOLD_EXPIRY (R15): a tag held out of use is free again. -/
def execTagHoldExpiry (port tag : Nat) (s : State) : Next :=
  .next (if 16 ≤ port then s
  else
    let x := s.port port
    ((s.setPort port { x with heldTags := x.heldTags.filter fun t => !decide (t.1 = tag) }).grantTag port).settleStreams)

end Sys2Proof.Machine
end

