-- ==== Sys2Proof/Machine/HostOps.lean ====
section
/-! DEFINITION. What the host link does for every command (R405 to R419): completions, the command queues, the sending and
acknowledgement of events, and the ring of cupping records (R60, R61). -/

namespace Sys2Proof.Machine

/-! ## Messages as bytes (R405) -/

/-- A message as it arrives. A status, or a queue outside CMD, is judged with the rsvd fields. -/
def hostMsgOf (b : List Byte) : HostMsg :=
  { type := leAt b 0 1, queue := bitsAt b 1 7 4, tag := bitsAt b 2 9 0, length := bitsAt b 4 8 0, arg := BitVec.ofNat 64 (leAt b 8 8)
    rsvd := decide (bitsAt b 1 3 0 ≠ 0) || decide (bitsAt b 2 15 10 ≠ 0) || decide (bitsAt b 4 15 9 ≠ 0) || decide (leAt b 6 2 ≠ 0)
    truncated := decide (b.length < 16 + bitsAt b 4 8 0 * b2n (decide (leAt b 0 1 ≠ 1))), payload := b.drop 16 }

/-- The bytes of a message of the module: its head and its payload. -/
def hostBytes (type status tag arg : Nat) (payload : List Byte) : List Byte :=
  leBytes 1 type ++ leBytes 1 status ++ leBytes 2 tag ++ leBytes 2 payload.length ++ zeros 2 ++ leBytes 8 arg ++ payload

/-- What leaves for the host, as bytes. -/
def Out.hostMsg : Out → Option (List Byte)
  | .cpl tag st payload => some (hostBytes 0x10 st.code tag 0 payload)
  | .evt n code payload => some (hostBytes 0x11 0 0 (n + 2 ^ 32 * code) payload)
  | _ => none

/-! ## Completions -/

/-- A completion leaves for the host, or is discarded with a lost link (R15, R419). -/
def State.sendCpl (s : State) (tag : Nat) (st : Status) (payload : List Byte) : State :=
  let gone := !s.host.linkUp || s.host.stale.contains tag
  let s : State := { s with host := { s.host with
    tags := s.host.tags.filter fun t => !decide (t = tag), stale := s.host.stale.filter fun t => !decide (t = tag) } }
  if gone then (s.add .hifMod 0 Reg.HIF_DISCARDED 1).raise .hifMod 0 Reg.HIF_EVENT 2
  else s.send (.cpl tag st payload)

def State.cmdq (s : State) (q : Nat) : CmdQ := nth CmdQ.blank s.host.queues q

def State.setCmdq (s : State) (q : Nat) (x : CmdQ) : State :=
  { s with host := { s.host with queues := setNth s.host.queues q x } }

/-- The running command of a queue completes (R412). -/
def State.finishCmd (s : State) (q : Nat) (st : Status) (payload : List Byte) : State :=
  let x := s.cmdq q
  match x.running with
  | none => s
  | some c =>
    let s := s.setCmdq q { x with running := none, lastTag := c.tag, lastStatus := st, lastCode := c.code }
    (s.add .hifMod 0 Reg.HIF_CMDS 1).sendCpl c.tag st payload

/-- Commands of several queues complete. -/
def State.finishCmds (s : State) (qs : List Nat) (st : Status) : State := qs.foldl (fun s q => s.finishCmd q st []) s

/-- The codes of R413. -/
def cJobOpen : Nat := 0x01
def cStepData : Nat := 0x02
def cBlendLoad : Nat := 0x03
def cRegionDrain : Nat := 0x04
def cRegionReset : Nat := 0x05
def cSelfTest : Nat := 0x06
def cCheckpoint : Nat := 0x07
def cRestore : Nat := 0x08
def cJobClose : Nat := 0x09
def cAttest : Nat := 0x0A

/-- The queues whose running command satisfies `f`. -/
def State.queuesRunning (s : State) (f : Cmd → Bool) : List Nat :=
  (List.range 16).filter fun q => match (s.cmdq q).running with | some c => f c | none => false

/-- Every running command of a code completes. -/
def State.finishCode (s : State) (code : Nat) (st : Status) : State :=
  s.finishCmds (s.queuesRunning fun c => decide (c.code = code)) st

/-! ## Records in the ring -/

/-- A slot is freed once the host has acknowledged its RECORD event and the Caddy store holds it (R61). -/
def State.freeSlots (s : State) : State :=
  { s with record := { s.record with slots := s.record.slots.filter fun r => !(r.acked && r.stored) } }

/-- Change the record in one slot of the ring. -/
def State.modSlot (s : State) (n : Nat) (f : RingSlot → RingSlot) : State :=
  { s with record := { s.record with slots := s.record.slots.map fun r => if r.slot = n then f r else r } }

/-- The module address of a ring slot. -/
def State.slotAddr (s : State) (slot : Nat) : Nat := (areaAddr s.blend.areas aRing (4096 * slot)).getD 0

/-- The bytes of a slot (R58). -/
def slotBytes (body sig : List Byte) : List Byte := padTo 4096 (padTo 512 body ++ padTo 3309 sig)

/-! ## Events (R415) -/

/-- Send an event; one sent for the first time takes the next number. -/
def State.sendEvt (s : State) (e : Evt) : State :=
  let n := if e.seq = 0 then s.host.nextSeq else e.seq
  let s : State := if e.seq ≠ 0 then s else
    let r := s.host.buf.findIdx? fun x => decide (x.seq = 0 ∧ x.code = e.code ∧ x.payload = e.payload)
    let s : State := { s with host := { s.host with
      nextSeq := s.host.nextSeq + 1
      buf := match r with | some i => setNth s.host.buf i { e with seq := n } | none => s.host.buf } }
    if e.code = evRecord then s.modSlot (leAt e.payload 4 1) fun x => { x with evt := n } else s
  (s.add .hifMod 0 Reg.HIF_EVTS_SENT 1).send (.evt n e.code e.payload)

/-- EVT_SEND (R415): the oldest event that has not been sent goes, within the window. -/
def execEvtSend (s : State) : Next :=
  .next (
    let open_ := (s.host.buf.filter fun e => !decide (e.seq = 0)).length
    match s.host.buf.find? fun e => decide (e.seq = 0) with
    | none => s
    | some e => if s.host.linkUp ∧ open_ < s.rfield .hifMod 0 Reg.HIF_CTRL 39 32 then s.sendEvt e else s)

/-- An acknowledgement of every event up to number `n` (R415). -/
def State.ackEvents (s : State) (n : Nat) : State :=
  if n = 0 ∨ s.host.nextSeq ≤ n ∨ n < s.host.acked then s.add .hifMod 0 Reg.HIF_MALFORMED 1
  else
    let s : State := { s with
      host := { s.host with acked := n, buf := s.host.buf.filter fun e => decide (e.seq = 0) || decide (n < e.seq) }
      record := { s.record with slots := s.record.slots.map fun r =>
        if 0 < r.evt ∧ r.evt ≤ n then { r with acked := true } else r } }
    s.freeSlots

/-- HOST_LINK_DOWN (R419): tags outstanding are lost to the host; what runs inside runs on. -/
def execHostLinkDown (s : State) : Next :=
  .next (if ¬ s.host.linkUp then s
  else
    let lost := s.host.tags.filter fun t => !s.host.stale.contains t
    { s with host := { s.host with
        linkUp := false, ready := false, stale := s.host.stale ++ lost, discarded := s.host.discarded + lost.length } })

/-- The host link can train: firmware runs, and in SAFE only for the causes of R473. -/
def State.hostCanTrain (s : State) : Bool :=
  s.powered && decide (s.rfield .topMod 0 Reg.TOP_STATE 35 32 ≠ 1) &&
    (decide (s.topState ≠ stSafe) || decide (s.safeCause = 2) || decide (s.safeCause = 3))

/-- HOST_LINK_UP (R417, R419): the first training reports the module's state; a later one sends LINK_RESTORED, then every event
sent and not acknowledged. -/
def execHostLinkUp (s : State) : Next :=
  .next (if s.host.linkUp ∨ ¬ s.hostCanTrain then s
  else
    let first := !s.host.trained
    let s : State := { s with host := { s.host with linkUp := true, ready := true, trained := true } }
    if first then s.hostEvent evState (leBytes 1 s.topState ++ leBytes 1 s.health ++ leBytes 1 stCold)
    else
      let again := s.host.buf.filter fun e => !decide (e.seq = 0)
      let s := (s.add .hifMod 0 Reg.HIF_RETRAINS 1).raise .hifMod 0 Reg.HIF_EVENT 0
      let e : Evt := { seq := 0, code := evLinkRestored, payload := padTo 16 (leBytes 4 s.host.discarded) }
      let s : State := { s with host := { s.host with discarded := 0, buf := s.host.buf ++ [e] } }
      again.foldl State.sendEvt (s.sendEvt e))

end Sys2Proof.Machine
end

