-- ==== Sys2Proof/Machine/Caddy.lean ====
section
/-! DEFINITION. The checkpoint engine and the Caddy store (R518 to R529): the partition, NVMe commands, checkpoint writes, requests and
pre-emption notices, and restores. -/

namespace Sys2Proof.Machine

/-! ## The partition (R521) -/

def lbaSize : Nat := 4096
def ringLbas : Nat := 262144

def State.partLbas (s : State) : Nat := s.ckp.nsze / 4
def State.slotLbas (s : State) : Nat := (s.partLbas - 2 - ringLbas) / 2

/-- The module's board position: that of its own rank in the lowest-numbered group of GROUPS. -/
def State.boardPosition (s : State) : Nat :=
  match s.blend.groups with
  | [] => 0
  | g :: _ => ((g.members.find? fun m => decide (m.rank = s.blend.rank)).map (·.position)).getD 0

/-- First LBA of slot `k` of partition `p`. -/
def State.slotLba (s : State) (p k : Nat) : Nat := p * s.partLbas + 2 + ringLbas + k * s.slotLbas

/-- The bytes of a partition header. -/
def State.partHeader (s : State) : List Byte :=
  padTo lbaSize (leBytes 4 0x54524150 ++ leBytes 1 1 ++ zeros 3 ++ leBytes 8 s.partLbas ++ leBytes 8 s.slotLbas ++ leBytes 8 ringLbas)

/-! ## NVMe commands (R519) -/

def nvWrite : Nat := 0x01
def nvRead : Nat := 0x02
def nvFlush : Nat := 0x00
/-- Admin opcodes, 256 added: I/O completion queues, then submission queues, then the rest. -/
def nvCreate : Nat := 0x105
def nvDelete : Nat := 0x104
def nvCreateSub : Nat := 0x101
def nvDeleteSub : Nat := 0x100
def nvIdentify : Nat := 0x106
def nvSetFeature : Nat := 0x109
def nvAbort : Nat := 0x108

/-- An admin command. -/
def nvAdmin (opcode what : Nat) (why : NvWhy) : NvCmd :=
  { opcode := opcode, lba := what, blocks := 0, data := [], fua := false, why := why, retried := false }

/-- What link-up issues (R519): Identify controller, namespace 1 and the list of active ones, the features, and 16 I/O queue pairs. -/
def nvLinkUp : List NvCmd :=
  [nvAdmin nvIdentify 1 .admin, nvAdmin nvIdentify 0 .admin, nvAdmin nvIdentify 2 .admin,
   nvAdmin nvSetFeature 0x07 .admin, nvAdmin nvSetFeature 0x06 .admin] ++
  (List.range 16).flatMap fun q =>
    [nvAdmin nvCreate (q + 1) .admin, nvAdmin nvCreateSub (q + 1) (if q = 15 then .createQueues else .admin)]

/-- What the loss of the link issues (R519). -/
def nvLinkDown : List NvCmd :=
  (List.range 16).flatMap fun q => [nvAdmin nvDeleteSub (q + 1) .admin, nvAdmin nvDelete (q + 1) .admin]

/-- Issue a command: one is outstanding at a time. -/
def State.nvIssue (s : State) (c : NvCmd) : State :=
  let s' : State := { s with ckp := { s.ckp with nv := s.ckp.nv ++ [c] } }
  if s.ckp.nv.isEmpty then s'.send (.nvme c) else s'

def State.nvPut (s : State) (lba : Nat) (bs : List Byte) (fua : Bool) (why : NvWhy) : State :=
  s.nvIssue { opcode := nvWrite, lba := lba, blocks := (bs.length + lbaSize - 1) / lbaSize, data := bs, fua := fua, why := why
              retried := false }

def State.nvGet (s : State) (lba bytes : Nat) (why : NvWhy) : State :=
  s.nvIssue { opcode := nvRead, lba := lba, blocks := (bytes + lbaSize - 1) / lbaSize, data := [], fua := false, why := why
              retried := false }

/-! ## Status -/

/-- CKP_STATUS follows the engine. -/
def State.showCkp (s : State) : State :=
  let held := s.ckp.held
  let pre := match held with | some h => h.preempt | none => false
  let s := s.rbit .ckpMod 0 Reg.CKP_STATUS 17 pre
  let s := s.rbit .ckpMod 0 Reg.CKP_STATUS 16 held.isSome
  let s := s.rbit .ckpMod 0 Reg.CKP_STATUS 15 s.ckp.write.isSome
  s.rbit .ckpMod 0 Reg.CKP_STATUS 14 s.ckp.restore.isSome

/-- The status a checkpoint or restore ended with. -/
def State.lastCkp (s : State) (st : Status) : State := s.rset .ckpMod 0 Reg.CKP_STATUS 31 28 st.code

/-! ## Records for the store -/

/-- A signed record goes to the store's ring; without a store it waits for the next boundary (R61). -/
def State.storeRecord (s : State) (r : RingSlot) : State :=
  if ¬ s.ckp.caddyReady then s
  else
    s.nvPut (s.boardPosition * s.partLbas + 2 + r.recordSeq % ringLbas) r.body true (.recordSlot r.slot)

/-- Signed records that the store does not hold are written again (R61). -/
def State.storeRecords (s : State) : State :=
  let under (n : Nat) : Bool := s.ckp.nv.any fun c => decide (c.why = .recordSlot n)
  (s.record.slots.filter fun r => r.signed && !r.stored && !under r.slot).foldl State.storeRecord s

/-! ## Checkpoint writes (R523 to R527) -/

/-- A checkpoint ends with a status that is not OK; the previous slot stands. -/
def State.ckpFails (s : State) (st : Status) : State :=
  match s.ckp.write with
  | none => s
  | some w =>
    let s : State := { s with ckp := { s.ckp with write := none }, sec := { s.sec with ckpDue := false } }
    let s := ((s.add .ckpMod 0 Reg.CKP_FAILS 1).raise .ckpMod 0 Reg.CKP_EVENT 1).lastCkp st
    let s := (if w.req.preempt then s.poke .ckpMod 0 Reg.CKP_PREEMPT 0 else s).showCkp
    let s := if st = .dataErr then s.stepFail csMemory lvReform st w.step else s
    s.finishCmds w.req.queues st

/-- The data ends: Flush goes before the header (R519, R526). -/
def State.ckpFlush (s : State) : State :=
  s.nvIssue { opcode := nvFlush, lba := 0, blocks := 0, data := [], fua := false, why := .flush, retried := false }

/-- The next bytes of the area go to the store. -/
def State.ckpData (s : State) (w : CkpWrite) : State :=
  let k := genKind w.step
  let size := areaSize s.blend.areas k
  if size ≤ w.offset then ({ s with ckp := { s.ckp with write := some w } } : State).ckpFlush
  else
    let n := min s.ckp.xfer (size - w.offset)
    let r := s.readArea k w.offset n
    let w' := { w with offset := w.offset + n, hashed := w.hashed ++ r.2.1 }
    let s' : State := { r.2.2 with ckp := { r.2.2.ckp with write := some w' } }
    if r.1 ≠ .ok then s'.ckpFails r.1
    else s'.nvPut (s.slotLba s.boardPosition w.slot + 1 + w.offset / lbaSize) r.2.1 false (.data w.offset)

/-- A reference record forms data_hash over the module's own area (R525). -/
def State.ckpReference (s : State) (w : CkpWrite) : State :=
  let k := genKind w.step
  let r := s.readArea k 0 (areaSize s.blend.areas k)
  let w' := { w with offset := areaSize s.blend.areas k, hashed := r.2.1 }
  let s' : State := { r.2.2 with ckp := { r.2.2.ckp with write := some w' } }
  if r.1 ≠ .ok then s'.ckpFails r.1 else s'.ckpFlush

/-- The slot that does not hold the newest complete checkpoint (R526). -/
def Ckp.freeSlot (c : Ckp) : Nat :=
  match nth none c.goodSlots 0, nth none c.goodSlots 1 with
  | some a, some b => if a < b then 0 else 1
  | some _, none => 1
  | _, _ => 0

/-- Begin the write of the last completed step's area: step 2 of R526. -/
def State.beginCkp (s : State) (req : CkpReq) : State :=
  let n := s.job.step - 1
  let b := s.blend.buddy
  let slot := s.ckp.freeSlot
  let h := s.readArea (genKind n) ((s.tailAt n).getD 0) 128
  let w : CkpWrite :=
    { req := req, step := n, slot := slot, reference := !(b.writer || decide (b.replicaGroup = 0)), tail := h.2.1, offset := 0
      hashed := [] }
  let s : State := { h.2.2 with ckp := { h.2.2.ckp with held := none, write := some w, stopped := h.2.2.ckp.stopped || req.stop } }
  let s := (s.rset .ckpMod 0 Reg.CKP_STATUS 63 32 n).showCkp
  let whole := s.holdsStep n
  let s := whole.2
  if ¬ s.ckp.caddyReady ∨ ¬ whole.1 then s.ckpFails .unavailable
  else if h.1 ≠ .ok then s.ckpFails h.1
  else
    let s : State := State.keepCkp { s with ckp := { s.ckp with goodSlots := setNth s.ckp.goodSlots slot none } }
    s.nvPut (s.slotLba s.boardPosition slot) (zeros lbaSize) true .clearHead

/-- A request held is taken between steps, when no write runs. -/
def State.takeCkp (s : State) : State :=
  match s.ckp.held with
  | none => s
  | some h =>
    if ¬ s.job.isOpen ∨ s.job.st = .running then s
    else
      -- a stop counts from the boundary, even while an earlier write still runs
      let s : State := { s with ckp := { s.ckp with stopped := s.ckp.stopped || h.stop } }
      if s.ckp.write.isSome then s else s.beginCkp h

/-- A write has ended, or a request has come: what is held goes on. A checkpoint that cannot begin ends at once, and nothing is
held after it. -/
def State.settleCkp (s : State) : State := s.takeCkp.showCkp

/-- A checkpoint is requested (R523): at most one is held, and requests that meet join it (R414, R527). -/
def State.askCkp (s : State) (queues : List Nat) (preempt stop : Bool) : State :=
  let h : CkpReq := match s.ckp.held with
    | some h => { h with queues := h.queues ++ queues, preempt := h.preempt || preempt, stop := h.stop || stop }
    | none => { queues := queues, preempt := preempt, stop := stop, at_ := s.now }
  ({ s with ckp := { s.ckp with held := some h } } : State).settleCkp

/-- The running step is abandoned for a pre-emption, and the last completed area is saved (R524). -/
def State.abandonForPreempt (s : State) : State :=
  match s.ckp.held with
  | none => s
  | some h =>
    if h.preempt ∧ s.job.st = .running then (s.abandonStep.raise .ckpMod 0 Reg.CKP_EVENT 3).settleCkp else s

/-- The deadline is less than CKP_CTRL.margin away. -/
def State.marginOver (s : State) (deadline : Nat) : Bool :=
  decide (deadline < s.now + 1000000000 * s.rfield .ckpMod 0 Reg.CKP_CTRL 7 0)

/-- A pre-emption notice (R523, R524, R603): the earlier of two deadlines applies. With no job open there is nothing to save. -/
def State.notice (s : State) (deadline : Nat) : State :=
  let old := (s.peek .ckpMod 0 Reg.CKP_PREEMPT).toNat
  let held := match s.ckp.held with | some h => h.preempt | none => false
  let d := if held then min old deadline else deadline
  let s := s.hostEvent evPreempt (leBytes 8 d)
  if ¬ s.job.isOpen then s
  else
    let s := (s.poke .ckpMod 0 Reg.CKP_PREEMPT (BitVec.ofNat 64 d)).askCkp [] true true
    if s.marginOver d then s.abandonForPreempt else s

/-- The job is closed on the module; a request that was held for its next boundary ends UNAVAILABLE. -/
def State.closeJob (s : State) : State :=
  let s : State := match s.ckp.held with
    | none => s
    | some h =>
      let t : State := { s with ckp := { s.ckp with held := none } }
      (if h.preempt then t.poke .ckpMod 0 Reg.CKP_PREEMPT 0 else t).finishCmds h.queues .unavailable
  s.showCkp.endJob

/-- The header body (R522), formed when it is signed and written. -/
def State.ckpHeader (s : State) (w : CkpWrite) : List Byte :=
  let t := w.tail
  let pre := w.req.preempt
  leBytes 4 0x54504B43 ++ leBytes 1 1 ++ leBytes 1 (1 + 4 * b2n w.reference + 8 * b2n pre) ++ leBytes 2 (leAt t 0x1C 2) ++
  leBytes 8 w.step ++ leBytes 8 s.now ++ leBytes 4 (leAt t 0x18 4) ++ leBytes 2 s.blend.rank ++
  leBytes 2 s.blend.buddy.replicaGroup ++ s.hashReg .cfgMod Reg.CFG_SHAPE ++ s.hashReg .cfgMod Reg.CFG_CHECK ++
  hashBytes (shake256 Config.identityKey) ++ hashBytes (shake256 w.hashed) ++ padTo 32 (nth [] s.ckp.shard (w.step % 2)) ++
  leBytes 8 (if w.reference then 0 else w.hashed.length) ++ leBytes 4 (s.job.recordSeq - 1) ++ leBytes 4 (leAt t 0x40 4) ++
  padTo 32 s.job.lastHash ++ zeros 272

/-- The context of a checkpoint header's signature, ASCII "CW1-CKP". -/
def ckpContext : List Byte := [0x43, 0x57, 0x31, 0x2D, 0x43, 0x4B, 0x50]

/-- The header is signed, or cannot be (R526 step 5). A header that cannot be signed ends the checkpoint UNAVAILABLE. -/
def State.ckpSigned (s : State) (sig : Option (List Byte)) : State :=
  let s : State := { s with sec := { s.sec with ckpDue := false } }
  match s.ckp.write, sig with
  | some w, some sig =>
    s.nvPut (s.slotLba s.boardPosition w.slot) (padTo lbaSize (padTo 512 (s.ckpHeader w) ++ padTo 3309 sig)) true .writeHead
  | some _, none => s.ckpFails .unavailable
  | none, _ => s

/-- The header is durable: the checkpoint is complete. -/
def State.ckpDone (s : State) (w : CkpWrite) : State :=
  let s : State := State.keepCkp { s with
    ckp := { s.ckp with write := none, goodSlots := setNth s.ckp.goodSlots w.slot (some w.step) }
    record := { s.record with ckpWritten := true } }
  let s := (s.add .ckpMod 0 (if w.reference then Reg.CKP_REFS else Reg.CKP_WRITTEN) 1).raise .ckpMod 0 Reg.CKP_EVENT 0
  let s := (s.poke .ckpMod 0 Reg.CKP_LAST_TIME (BitVec.ofNat 64 (s.now - w.req.at_))).lastCkp .ok
  let s := (if w.req.preempt then s.poke .ckpMod 0 Reg.CKP_PREEMPT 0 else s).showCkp
  s.finishCmds w.req.queues .ok

/-! ## Restores (R528, R529) -/

/-- A slot header that lies where a checkpoint can be: magic, version and generation. -/
def headPresent (h : List Byte) : Bool :=
  decide (leAt h 0 4 = 0x54504B43) && decide (leAt h 4 1 = 1) && decide (bitsAt h 5 1 0 = 1)

def headStep (h : List Byte) : Nat := leAt h 8 8
def headOwn (h : List Byte) : Bool := decide ((h.drop 0x60).take 32 = hashBytes (shake256 Config.identityKey))

/-- A header verifies under the module's own key. -/
def headSigned (h : List Byte) : Bool :=
  Config.mldsaVerify Config.identityKey ckpContext (h.take 512) ((h.drop 512).take 3309)

/-- A slot that counts as complete (R526); a module cannot check another's signature, so presence stands for it. -/
def headComplete (h : List Byte) : Bool := headPresent h && (!headOwn h || headSigned h)

/-- The step a slot shows in the payload of R529. -/
def headWord (h : List Byte) : List Byte := leBytes 8 (if headPresent h then headStep h else 2 ^ 64 - 1)

/-- The headers read, by slot 2 × partition + slot: own partition first, then the others in order. -/
def State.headAt (s : State) (r : Restore) (slot : Nat) : List Byte :=
  let p := s.boardPosition
  let order := [2 * p, 2 * p + 1] ++ (List.range 8).filter fun k => !decide (k / 2 = p)
  match order.findIdx? fun k => decide (k = slot) with
  | some i => nth [] r.heads i
  | none => []

/-- The payload of R529: own slots, and those of the writer's partition. `writer`: a slot of it, if one is known. -/
def State.restorePayload (s : State) (r : Restore) (writer : Option Nat) : List Byte :=
  let p := s.boardPosition
  headWord (s.headAt r (2 * p)) ++ headWord (s.headAt r (2 * p + 1)) ++
  match writer with
  | some k => headWord (s.headAt r (k / 2 * 2)) ++ headWord (s.headAt r (k / 2 * 2 + 1))
  | none => headWord [] ++ headWord []

/-- A restore ends. -/
def State.restoreEnds (s : State) (r : Restore) (st : Status) (writer : Option Nat) : State :=
  let pay := s.restorePayload r writer
  let s : State := { s with ckp := { s.ckp with restore := none } }
  let s := if r.dry ∨ st = .ok then s else s.raise .ckpMod 0 Reg.CKP_EVENT 5
  (if r.dry then s.showCkp else (s.lastCkp st).showCkp).finishCmd r.queue st (if st = .ok ∧ ¬ r.dry then [] else pay)

/-- What a header decides before its data is read (R529). -/
def State.headVerdict (s : State) (r : Restore) (h : List Byte) : Status :=
  if (h.drop 0x20).take 32 ≠ s.hashReg .cfgMod Reg.CFG_SHAPE ∨ leAt h 6 2 ≠ s.blend.job then .denied
  else if headOwn h then (if headSigned h then .ok else .denied)
  else if r.foreign then .ok else .denied

/-- Reduction groups that satisfy `f` (number, group) become NONE, with no context left. -/
def State.groupsNone (s : State) (f : Nat → Grp → Bool) : State :=
  s.coll.groups.foldl (fun s e => match s.grp e.1 with
    | some g => if f e.1 g then (s.dropGroup e.1).setGrp e.1 { g with st := GrpSt.none, asked := [], confirmed := [] } else s
    | none => s) s

/-- Sip groups that satisfy `f` become NONE. -/
def State.sipsNone (s : State) (f : Nat → SipGrp → Bool) : State :=
  s.coll.sips.foldl (fun s e => match s.sipg e.1 with
    | some g =>
      if f e.1 g then
        let s : State := { s with coll := { s.coll with combines := s.coll.combines.filter fun c => !decide (c.group = e.1) } }
        s.setSipg e.1 { g with st := GrpSt.none, asked := [], confirmed := [] }
      else s
    | none => s) s

/-- Groups whose loaded epoch lies in the restored sets become NONE (R528). -/
def State.dropHeldEpochs (s : State) (sets : List (List Nat)) : State :=
  (s.groupsNone fun k g => (nth [] sets k).contains g.epoch).sipsNone fun k g => (nth [] sets (256 + k)).contains g.epoch

/-- The data has come and its hash holds: the job resumes from the area (R528 steps 4 and 5). -/
def State.restoreApply (s : State) (r : Restore) : State :=
  let own := s.headAt r r.own
  let n := headStep own
  let x : Status × Tail × State := s.readTail n s.layers
  if x.1 ≠ .ok then x.2.2.restoreEnds r x.1 (some r.slot)
  else
    let s : State := x.2.2.dropHeldEpochs x.2.1.epochs
    let s : State := s.openFrom (n + 1) x.2.1
    let s : State := (s.markArea n (some n)).markVersion n x.2.1.version
    let s : State := State.keepChain { s with
      ckp := { s.ckp with shard := setNth s.ckp.shard (n % 2) (padTo 32 (own.drop 0xA0)) }
      job := { s.job with recordSeq := leAt own 0xC8 4 + 1, lastHash := padTo 32 (own.drop 0xD0) }
      record := { s.record with restored := true } }
    let s := (s.rset .ckpMod 0 Reg.CKP_STATUS 63 32 n).add .ckpMod 0 Reg.CKP_RESTORES 1
    (s.raise .ckpMod 0 Reg.CKP_EVENT 4).restoreEnds r .ok (some r.slot)

/-- All data has been read. -/
def State.restoreHash (s : State) (r : Restore) : State :=
  let h := hashBytes (shake256 r.got)
  let same (k : Nat) : Bool := decide (((s.headAt r k).drop 0x80).take 32 = h)
  if ¬ (same r.own ∧ same r.slot) then s.restoreEnds r .checkFail (some r.slot)
  else if r.dry then s.restoreEnds r .ok (some r.slot)
  else s.restoreApply r

/-- Read the next bytes of the slot's data. -/
def State.restoreGo (s : State) (r : Restore) : State :=
  let bytes := leAt (s.headAt r r.slot) 0xC0 8
  let s : State := { s with ckp := { s.ckp with restore := some r } }
  if bytes ≤ r.offset then s.restoreHash r
  else
    let n := min s.ckp.xfer (bytes - r.offset)
    s.nvGet (s.slotLba (r.slot / 2) (r.slot % 2) + 1 + r.offset / lbaSize) n (.restoreData r.offset)

/-- The own slot is chosen, and the slot that holds the data (R528). `false`: more headers are to be read first. -/
def State.restorePick (s : State) (r : Restore) : Bool × State :=
  let p := s.boardPosition
  let mine := [2 * p, 2 * p + 1]
  let newest := mine.foldl (fun (best : Option Nat) k =>
    let h := s.headAt r k
    if ¬ headComplete h then best
    else match best with
      | none => some k
      | some b => if headStep (s.headAt r b) < headStep h then some k else some b) none
  let named := mine.find? fun k => headPresent (s.headAt r k) && decide (headStep (s.headAt r k) = r.step)
  match if r.step = 0 then newest else named with
  | none => (true, s.restoreEnds r .unavailable none)
  | some k =>
    let h := s.headAt r k
    if bitsAt h 5 2 2 = 0 then
      let v := s.headVerdict r h
      (true, if v = .ok then s.restoreGo { r with own := k, slot := k } else s.restoreEnds r v (some k))
    else if r.heads.length < 8 then (false, s)
    else
      let fits (j : Nat) : Bool :=
        let g := s.headAt r j
        headPresent g && decide (bitsAt g 5 2 2 = 0) && decide (leAt g 6 2 = leAt h 6 2) && decide (headStep g = headStep h) &&
          decide (leAt g 0x1E 2 = leAt h 0x1E 2)
      match ((List.range 8).filter fun j => !decide (j / 2 = p)).find? fits with
      | none => (true, s.restoreEnds r .unavailable none)
      | some j =>
        let v := s.headVerdict r h
        (true, if v = .ok then s.restoreGo { r with own := k, slot := j } else s.restoreEnds r v (some j))

/-- The next slot header of a restore is read: the module's own first. -/
def State.restoreMore (s : State) (n : Nat) : State :=
  let p := s.boardPosition
  let order := [2 * p, 2 * p + 1] ++ (List.range 8).filter fun k => !decide (k / 2 = p)
  match order[n]? with
  | some k => s.nvGet (s.slotLba (k / 2) (k % 2)) lbaSize (.restoreHead k)
  | none => s

/-- A slot header has been read. -/
def State.restoreHead (s : State) (r : Restore) (h : List Byte) : State :=
  let r := { r with heads := r.heads ++ [h] }
  let s : State := { s with ckp := { s.ckp with restore := some r } }
  if r.heads.length = 2 ∨ r.heads.length = 8 then
    let x := s.restorePick r
    if x.1 then x.2 else x.2.restoreMore r.heads.length
  else s.restoreMore r.heads.length

/-- Data of a restore has been read: into the generation area, unless the run is dry. -/
def State.restoreData (s : State) (r : Restore) (bs : List Byte) : State :=
  let n := headStep (s.headAt r r.own)
  let bytes := leAt (s.headAt r r.slot) 0xC0 8
  let bs := padTo (min s.ckp.xfer (bytes - r.offset)) bs
  let w : Status × State := if r.dry then (.ok, s) else
    (s.markArea n none).writeArea (genKind n) r.offset bs
  if w.1 ≠ .ok then w.2.restoreEnds r w.1 (some r.slot)
  else w.2.restoreGo { r with offset := r.offset + bs.length, got := r.got ++ bs }

/-- RESTORE begins in queue `q`. -/
def State.beginRestore (s : State) (q step : Nat) (dry foreign : Bool) : State :=
  let r : Restore :=
    { queue := q, dry := dry, foreign := foreign, step := step, heads := [], slot := 0, own := 0, offset := 0, got := [] }
  if ¬ s.ckp.caddyReady then s.restoreEnds r .unavailable none
  else
    let p := s.boardPosition
    let s : State := ({ s with ckp := { s.ckp with restore := some r } } : State).showCkp
    s.nvGet (s.slotLba p 0) lbaSize (.restoreHead (2 * p))

/-! ## The store's link -/

/-- Both copies of the partition header fail: fresh headers, and zero slot headers (R521). -/
def State.formatStore (s : State) : State :=
  let base := s.boardPosition * s.partLbas
  let s := (s.nvPut base s.partHeader true .format).nvPut (base + 1) s.partHeader true .format
  let s := s.nvPut (s.slotLba s.boardPosition 0) (zeros lbaSize) true .format
  (s.nvPut (s.slotLba s.boardPosition 1) (zeros lbaSize) true .format).raise .ckpMod 0 Reg.CKP_EVENT 8

/-- The store answers: it is in service. Headers read again after a change of position change nothing else. -/
def State.storeReady (s : State) : State :=
  if s.ckp.caddyReady then s
  else (({ s with ckp := { s.ckp with caddyReady := true } } : State).funcReady 3 0 .ok).storeRecords

/-- A header has been read at link-up: the partition header copies, then the own slot headers. -/
def State.linkHead (s : State) (copy : Nat) (bs : List Byte) : State :=
  let s : State := { s with ckp := { s.ckp with storeHead := s.ckp.storeHead ++ [bs] } }
  let p := s.boardPosition
  let good (h : List Byte) : Bool := decide (leAt h 0 4 = 0x54524150)
  match copy with
  | 0 => s.nvGet (p * s.partLbas + 1) lbaSize (.readHead 1)
  | 1 => if s.ckp.storeHead.any good then s.nvGet (s.slotLba p 0) lbaSize (.readHead 2) else s.formatStore.storeReady
  | k =>
    let s : State := { s with ckp := { s.ckp with
      goodSlots := setNth s.ckp.goodSlots (k - 2) (if headComplete bs then some (headStep bs) else none) } }
    if k = 2 then s.nvGet (s.slotLba p 1) lbaSize (.readHead 3) else s.storeReady

/-- CADDY_LINK_UP (R518, R519, R521), with what Identify finds: the store's size in LBAs, and MDTS as a power of two of 4 KiB, 0 for no limit. -/
def execCaddyLinkUp (nsze mdts : Nat) (s : State) : Next :=
  .next (if ¬ (s.die 63).edgeReady ∨ ¬ s.tim.refclk ∨ s.ckp.caddyReady ∨ ¬ s.ckp.nv.isEmpty then s
  else
    let s : State := { s with ckp := { s.ckp with
      nsze := nsze, xfer := if mdts = 0 then 262144 else min (4096 * 2 ^ mdts) 262144, storeHead := [], goodSlots := [none, none] } }
    nvLinkUp.foldl State.nvIssue (s.rset .ckpMod 0 Reg.CKP_STATUS 25 24 s.boardPosition))

/-- The Caddy link is gone: what ran over it ends (R527, R529). -/
def State.caddyDown (s : State) : State :=
  let s : State := if s.rflag .ckpMod 0 Reg.CKP_STATUS 18 then nvLinkDown.foldl (fun s c => s.send (.nvme c)) s else s
  let s : State := { s with ckp := { s.ckp with caddyReady := false, nv := [], storeHead := [] } }
  let s := (s.rbit .ckpMod 0 Reg.CKP_STATUS 18 false).ckpFails .unavailable
  match s.ckp.restore with
  | some r => s.restoreEnds r .dataErr (if r.own = r.slot ∧ r.got.isEmpty then none else some r.slot)
  | none => s

/-- What a completed command was for goes on. -/
def State.nvOk (s : State) (c : NvCmd) (data : List Byte) : State :=
  let s := if c.opcode = nvWrite then s.add .ckpMod 0 Reg.CKP_BYTES c.data.length else s
  match c.why with
  | .admin => s
  | .createQueues =>
    (s.rbit .ckpMod 0 Reg.CKP_STATUS 18 true).nvGet (s.boardPosition * s.partLbas) lbaSize (.readHead 0)
  | .readHead k => s.linkHead k data
  | .format => s
  | .recordSlot n => (s.modSlot n fun r => { r with stored := true }).freeSlots
  | .clearHead => match s.ckp.write with
    | some w => if w.reference then s.ckpReference w else s.ckpData w
    | none => s
  | .data off => match s.ckp.write with
    | some w => if off < w.offset then s.ckpData w else s
    | none => s
  | .flush => if s.ckp.write.isSome then { s with sec := { s.sec with ckpDue := true, ckpAt := s.now } } else s
  | .writeHead => match s.ckp.write with
    | some w => (s.ckpDone w).settleCkp
    | none => s
  | .restoreHead _ => match s.ckp.restore with
    | some r => s.restoreHead r data
    | none => s
  | .restoreData _ => match s.ckp.restore with
    | some r => s.restoreData r data
    | none => s

/-- A command has failed a second time. -/
def State.nvFailed (s : State) (c : NvCmd) : State :=
  match c.why with
  | .admin => ({ s with ckp := { s.ckp with nv := [] } } : State).funcReady 3 0 .unavailable
  | .createQueues | .readHead _ => s.funcReady 3 0 .unavailable
  | .format | .recordSlot _ => s
  | .clearHead | .data _ | .flush | .writeHead => (s.ckpFails .unavailable).settleCkp
  | .restoreHead _ | .restoreData _ => match s.ckp.restore with
    | some r => s.restoreEnds r .dataErr (if r.heads.length < 2 ∨ r.got.isEmpty then none else some r.slot)
    | none => s

/-- The command outstanding leaves the queue, `f` is what that brings, and the next goes out. -/
def State.nvNext (s : State) (rest : List NvCmd) (f : State → State) : State :=
  -- commands that `f` issues wait behind those already queued
  let t := f { s with ckp := { s.ckp with nv := rest } }
  match rest with
  | [] => t
  | n :: _ => if t.ckp.nv.head? = some n then t.send (.nvme n) else t

/-- The command outstanding completes: OK, or with an error, after which it is sent once more (R526, R527). -/
def State.nvDone (s : State) (ok : Bool) (data : List Byte) : State :=
  match s.ckp.nv with
  | [] => s
  | c :: rest =>
    if ok then s.nvNext rest fun s => s.nvOk c data
    else
      let s := s.add .ckpMod 0 Reg.CKP_NVME_ERRS 1
      if c.retried then s.nvNext rest fun s => s.nvFailed c
      else
        let c := { c with retried := true }
        ({ s with ckp := { s.ckp with nv := c :: rest } } : State).send (.nvme c)

/-- The command outstanding has passed cmd_timeout: it is aborted (R527). -/
def State.nvLate (s : State) : State :=
  match s.ckp.nv with
  | [] => s
  | c :: _ => (s.send (.nvme { c with opcode := nvAbort, data := [] })).nvDone false []

/-! ## Rollback orders (R497, R498, R515) -/

/-- An accepted order for step `r` is carried out. A write that saves the area which step `r` writes ends first (R527). -/
def State.obeyRollback (s : State) (r : Nat) : State :=
  let s := match s.ckp.write with
    | some w => if w.step % 2 = r % 2 then s.ckpFails .unavailable else s
    | none => s
  (s.rollback r).settleCkp

/-- An order that waited for a takeover is carried out once none is left. -/
def State.settleOrder (s : State) : State :=
  match s.mgt.order with
  | none => s
  | some r =>
    if ¬ s.takeovers.isEmpty then s
    else
      let s : State := { s with mgt := { s.mgt with order := none } }
      if ¬ s.job.isOpen then s
      else
        let h := s.holdsStep (r - 1)
        if h.1 then h.2.obeyRollback r else h.2

/-! ## Device accesses (R518) -/

/-- The bonded memory that the command outstanding has as its buffer. -/
def State.nvBuffer (s : State) : List (Nat × Nat) :=
  match s.ckp.nv with
  | [] => []
  | c :: _ => match c.why with
    | .data off => match s.ckp.write with
      | some w => areaRuns s.blend.areas (genKind w.step) off c.data.length
      | none => []
    | .recordSlot n => match s.record.slots.find? fun r => decide (r.slot = n) with
      | some r => [(s.slotAddr r.slot, 4096)]
      | none => []
    | .restoreData off => match s.ckp.restore with
      | some r => if r.dry then [] else areaRuns s.blend.areas (genKind (headStep (s.headAt r r.own))) off (4096 * c.blocks)
      | none => []
    | _ => []

/-- CADDY_DEVICE_ACCESS (R518): inside a buffer of the command outstanding, or inside the queues and other buffers, whose
addresses the spec leaves to the module. -/
def execCaddyDeviceAccess (write : Bool) (addr : Nat) (bytes : List Byte) (s : State) : Next :=
  .next (
    let n := bytes.length
    let inside := s.nvBuffer.any fun r => decide (r.1 ≤ addr ∧ addr + n ≤ r.1 + r.2)
    let queue := !s.ckp.nv.isEmpty && (List.range n).all fun i => Config.nvmeBuffer (addr + i)
    if ¬ (inside ∨ queue) ∨ ¬ populated addr n then (s.add .ckpMod 0 Reg.CKP_DMA_REFUSED 1).answer .denied
    else if write then
      let r := s.memWrite addr bytes
      r.2.answer r.1
    else
      let r := s.memRead addr n
      (r.2.2.send (.dma r.2.1)).answer r.1)

end Sys2Proof.Machine
end

