-- ==== Sys2Proof/Machine/RegionOps.lean ====
section
/-! DEFINITION. What a region loses when its cores go off, and what a region reset, a trip and a drain share (R470, R471, R491,
R492, R494). -/

namespace Sys2Proof.Machine

/-- A core that has lost power or been cleared: nothing of its work is left. One that had ENDED still counts as ended for the step
that runs (DEDUCED, log entry 51). -/
def Core.lost (c : Core) : Core :=
  { c with
    queues := [[], [], [], []], wgb := [], tok := c.initTok, lc := List.replicate 4 0, pc := c.entry, work := c.image
    st := if c.st = .ended then .ended else .idle, waits := .none, writeback := [], checks := [], latch := [], recovered := 0, batches := []
    ending := c.ending && decide (c.st = .ended), ringHeld := [], excValid := false, powered := false }

/-- An address lies in the tile store of one of these cores. -/
def inTiles (is : List Nat) (a : Nat) : Bool :=
  decide (0x100000000000 ≤ a ∧ a < 0x101000000000) && is.contains ((a - 0x100000000000) / 0x1000000)

/-- An address lies in the window of one of these clusters' Urns. -/
def inUrns (cs : List Nat) (a : Nat) : Bool :=
  decide (0x180000000000 ≤ a ∧ a < 0x180040000000) && cs.contains ((a - 0x180000000000) / 0x400000)

/-- The Urn of a cluster is cleared and its session closed; a fence of it stays (R238). -/
def Cluster.clearUrn (c : Cluster) : Cluster := { c with urn := { Urn.blank with fenced := c.urn.fenced } }

/-- Cores lose their contents (R471, R492): work under way, tile stores, wide gradient buffers; their WREQs are cancelled, and what
they had asked of others finds no one waiting. -/
def State.dropCores (s : State) (is : List Nat) : State :=
  let s := is.foldl State.giveUp s
  let s := s.cancelWreqs fun q => is.contains q.core
  { s with
    cores := s.cores.map fun e => (e.1, if is.contains e.1 then e.2.lost else e.2)
    mem := s.mem.filter fun e => !inTiles is e.1
    sigs := s.sigs.map fun g => if is.contains g.src then { g with instr := none } else g
    wts := { s.wts with pubs := s.wts.pubs.filter fun w => !is.contains w.core }
    coll := { s.coll with sipWaits := s.coll.sipWaits.filter fun w => match w.core with
      | some c => !is.contains c.1
      | none => true } }

/-- The units of clusters lose their contents: Urn, sequencer and governor (R470). -/
def State.dropClusters (s : State) (cs : List Nat) : State :=
  let clear (c : Cluster) : Cluster :=
    { c.clearUrn with barOpen := false, barId := 0, barArrived := 0, endedMask := 0, batchReps := [], batchDecl := []
                      batchNo := 0, gov := [], held := [] }
  { s with
    clusters := s.clusters.map fun e => (e.1, if cs.contains e.1 then clear e.2 else e.2)
    mem := s.mem.filter fun e => !inUrns cs e.1 }

/-- A register that keeps its value through a region reset: those the loaded Blend gives. -/
def keptRegister (b : RBlk) (o : Nat) : Bool :=
  match b with
  | .topCluster => decide (o = Reg.TOP_XBAR_CFG)
  | .urnCluster => decide (o = Reg.URN_LOG_BASE ∨ o = Reg.URN_LOG_LIMIT)
  | _ => false

/-- The registers and counters of cores and clusters take their reset values (R471). -/
def State.resetRegs (s : State) (is cs : List Nat) : State :=
  { s with regs := s.regs.filter fun e =>
      match regSite e.1 with
      | some (b, i, o) => keptRegister b o || !(match b with
        | .seqCore | .engCore | .vecCore | .strCore => is.contains i
        | .urnCluster | .govCluster | .seqCluster | .topCluster => cs.contains i
        | _ => false)
      | none => true }

/-- Signals held for the fenced cores of these clusters end TARGET_RESET: the takeovers they waited for are abandoned (R490, R492). -/
def State.refuseHeld (s : State) (cs : List Nat) : State :=
  cs.foldl (fun s c =>
    let gs := (s.cluster c).held
    gs.foldl (fun s g => s.signalDone g .targetReset) (s.setCluster c { s.cluster c with held := [] })) s

/-- A core of the region holds a program whose work in the running step is not over. -/
def State.regionBusy (s : State) (r : Nat) : Bool := (s.regionCores r).any s.coreBusy

/-- A region holds a program. -/
def State.regionProgram (s : State) (r : Nat) : Bool := (s.regionCores r).any fun i => (s.core i).hasProg

/-- The takeovers of a region are abandoned: no state moves, and the spares stay in place (R490). -/
def State.dropTakeovers (s : State) (is : List Nat) : State :=
  let mine := s.takeovers.filter fun t => is.contains t.spare
  mine.foldl (fun s t => s.setCore t.core { (s.core t.core).withoutProgram with movedTo := some t.spare })
    { s with takeovers := s.takeovers.filter fun t => !is.contains t.spare }

/-- A region's cores and units go off with all they hold. Cores the region has lent stay in service (R114). -/
def State.clearRegion (s : State) (r : Nat) : State :=
  let is := s.regionCores r
  let cs := s.regionClusters r
  let s := ((s.refuseHeld cs).dropTakeovers is).dropCores is
  let s := s.dropClusters cs
  s.setRegion r { s.region r with barOpen := false, barId := 0, barArrived := [] }

/-- A region trips (R494): its contents are lost and its cores stay off. -/
def State.tripRegion (s : State) (r : Nat) : State :=
  if (s.region r).tripped then s
  else
    let prog := s.regionProgram r
    let s := s.setRegion r { s.region r with tripped := true }
    let s := s.clearRegion r
    let s := (s.regionClusters r).foldl (fun s c => s.setCluster c { s.cluster c with ready := false }) s
    let s := (s.add .topMod 0 Reg.TOP_THERMAL_TRIPS 1).raise .topMod 0 Reg.TOP_FAULT_EVENT 5
    let s := s.regionEvent r 3
    if prog then s.stepFail csThermal lvRegion .checkFail r else s.faultLog csThermal lvRegion .ok r

/-- Every region with a cluster on one of these dies trips, and clusters of theirs that no region holds yet go off. -/
def State.tripDies (s : State) (ds : List Nat) : State :=
  let rs := (s.blend.regions.map (·.1)).filter fun r => (s.regionDies r).any ds.contains
  let s : State := if rs.isEmpty then s else { s with record := { s.record with thermal := true } }
  let s := rs.foldl State.tripRegion s
  let loose := (ds.flatMap fun d => (List.range 4).map fun k => 4 * d + k).filter fun c => (s.regionOf c).isNone
  let s := s.dropCores (loose.flatMap fun c => (List.range 12).map (coreIdx c))
  let s := loose.foldl (fun s c => s.setCluster c { s.cluster c with ready := false }) s
  s.checkSpares.settleOrder

end Sys2Proof.Machine
end

