-- ==== Sys2Proof/Machine/Kettle.lean ====
section
/-! DEFINITION. The Kettle (R555 to R572): the cap, core voltages, coolant and junction samples, trips and their release, and
WARM_IDLE. -/

namespace Sys2Proof.Machine

/-! ## Liquid mode -/

/-- Liquid mode is confirmed: three samples in a row, or one second of them after a fallback (R562). -/
def State.confirmed (s : State) : Bool := decide ((if s.ktl.fellBack then 100 else 3) ≤ s.ktl.run)

/-- The 34,000 W limit applies. -/
def State.liquidNow (s : State) : Bool := s.blend.power.liquid && s.confirmed

/-- The input voltage last measured, in mV; 0 before any sample. -/
def State.inputMv (s : State) : Nat := s.rfield .ktlMod 0 Reg.KTL_INPUT 15 0

/-- POWER.power_cap, or the cap of the last POWER request. -/
def State.powerCap (s : State) : Nat := s.mgt.capOrder.getD s.blend.power.cap

/-- The cap in force (R558), in W. The term of 800 A waits for a first sample of the input. -/
def State.capNow (s : State) : Nat :=
  let c := min s.powerCap (if s.liquidNow then 34000 else 5000)
  if s.inputMv = 0 then c else min c (8 * s.inputMv / 10)

/-- KTL_STATUS follows the mode and the cap (R569). -/
def State.showKettle (s : State) : State :=
  let s := s.rset .ktlMod 0 Reg.KTL_STATUS 63 32 s.capNow
  let s := s.rbit .ktlMod 0 Reg.KTL_STATUS 11 (decide (s.ktl.vCap < s.blend.power.vMax))
  let s := s.rbit .ktlMod 0 Reg.KTL_STATUS 9 (decide (3 ≤ s.ktl.run) && (!s.blend.power.liquid || s.confirmed))
  let s := s.rbit .ktlMod 0 Reg.KTL_STATUS 8 s.liquidNow
  s.rbit .ktlMod 0 Reg.KTL_STATUS 0 s.blend.power.liquid

/-! ## Core voltages (R559, R563) -/

/-- A die is throttled while its thermal limit lies below V_cap; the event marks the moment it becomes so. -/
def State.judgeThrottle (s : State) (d : Nat) : State :=
  let x := s.die d
  let now := decide (x.limit < s.ktl.vCap)
  let s := s.setDie d { x with throttled := now }
  if now ∧ ¬ x.throttled then s.raise .ktlMod 0 Reg.KTL_EVENT 1 else s

/-- V_cap takes a value; every die follows. -/
def State.setCap (s : State) (v : Nat) : State :=
  let max_ := s.blend.power.vMax
  let was := s.ktl.vCap
  let s : State := { s with ktl := { s.ktl with vCap := v } }
  let s := if was = max_ ∧ v < max_ then s.raise .ktlMod 0 Reg.KTL_EVENT 0 else s
  s.dies.foldl (fun s e => s.judgeThrottle e.1) s

/-- POWER of a newly loaded Blend (R448, R566): V_cap starts at v_max, and an earlier fallback is forgotten. DESIGN CHOICE, log
entry 52. -/
def State.loadPower (s : State) : State :=
  let s : State := { s with
    mgt := { s.mgt with capOrder := none, warmOrder := none }
    ktl := { s.ktl with low := 0, fellBack := false } }
  ((s.setCap s.blend.power.vMax).showKettle).showDies

/-! ## Samples -/

/-- One sample of the input, in units of 0.1 mW against the cap in W: V_cap falls by 5 mV above the cap, and rises by 5 mV after
ten samples in a row 2 % or more below it. -/
def State.moveCap (s : State) (p : Nat) : State :=
  let cap := s.capNow
  let pw := s.blend.power
  if 10000 * cap < p then
    ({ s with ktl := { s.ktl with low := 0 } } : State).setCap (max pw.vMin (s.ktl.vCap - 5))
  else if 100 * p ≤ 980000 * cap then
    if s.ktl.low < 9 then { s with ktl := { s.ktl with low := s.ktl.low + 1 } }
    else ({ s with ktl := { s.ktl with low := 0 } } : State).setCap (min pw.vMax (s.ktl.vCap + 5))
  else { s with ktl := { s.ktl with low := 0 } }

/-- The ramp of a step start goes on: 2 mV/µs over the 10 µs of a sample (R560; its progress by samples is a DESIGN CHOICE, log
entry 52). -/
def State.moveRamp (s : State) : State := { s with ktl := { s.ktl with ramp := min 800 (s.ktl.ramp + 20) } }

/-- POWER_SAMPLE (R558, R559, R560, R571). -/
def execPowerSample (o : PowerObs) (s : State) : Next :=
  .next (if ¬ s.powered then s
  else
    let p := o.millivolts * o.deciAmps
    let ps := (s.ktl.powers ++ [p]).drop (s.ktl.powers.length - 99)
    let e := s.ktl.energy + p
    let mean := ps.foldl (· + ·) 0 / (10000 * ps.length)
    let s : State := { s with ktl := { s.ktl with powers := ps, energy := e % 1000000000 } }
    let s := (s.add .ktlMod 0 Reg.KTL_ENERGY (e / 1000000000)).poke .ktlMod 0 Reg.KTL_INPUT
      (mkWord [(mean % 2 ^ 32, 32), (o.deciAmps % 65536, 16), (o.millivolts % 65536, 0)])
    ((s.moveRamp.moveCap p).showKettle).showDies)

/-- The thermal limit of a die moves by 5 mV for each ms, which is 100 samples, that a condition lasts (R563). -/
def Die.heat (x : Die) (hot cool : Bool) : Die :=
  if hot then { x with limit := if x.hot = 0 then max 550 (x.limit - 5) else x.limit, hot := (x.hot + 1) % 100, cool := 0 }
  else if cool ∧ x.limit < 800 then
    { x with limit := if x.cool = 0 then min 800 (x.limit + 5) else x.limit, cool := (x.cool + 1) % 100, hot := 0 }
  else { x with hot := 0, cool := 0 }

/-- TEMP_SAMPLE (R563, R566): with fewer than two junction sensors left, the die is throttled to v_min. -/
def execTempSample (o : TempObs) (s : State) : Next :=
  .next (if 64 ≤ o.die ∨ (s.die o.die).phase = 0 then s
  else
    let d := o.die
    let thr : Int := 16 * s.rfield .ktlMod 0 Reg.KTL_CTRL 15 8
    let few := decide (o.junction.length < 2)
    let top := (o.junction.max?).map (· + s.calibOf 1 d)
    let hot := decide (thr ≤ 16 * o.stack) || (match top with | some t => decide (thr ≤ t) | none => false)
    let cool := match top with | some t => decide (t < thr - 48) | none => false
    let x := s.die d
    let s := s.setDie d (if few then { x with limit := s.blend.power.vMin, hot := 0, cool := 0 } else x.heat hot cool)
    let s := if few then s.raise .ktlMod 0 Reg.KTL_EVENT 8 else s
    let r := Reg.KTL_DIE + 8 * d
    let s := match top with | some t => s.rset .ktlMod 0 r 31 16 (ofSigned 16 t) | none => s
    ((s.rset .ktlMod 0 r 15 8 (ofSigned 8 o.stack)).judgeThrottle d).showDies)

/-- The mode after a change of the confirmation (R562, R566). -/
def State.judgeMode (s : State) (was : Bool) : State :=
  let now := s.liquidNow
  let s : State := if was ∧ ¬ now then
      ({ s with ktl := { s.ktl with fellBack := true } } : State).raise .ktlMod 0 Reg.KTL_EVENT 4
    else if now ∧ ¬ was ∧ s.ktl.fellBack then s.raise .ktlMod 0 Reg.KTL_EVENT 5 else s
  s.showKettle

/-- COOLANT_SAMPLE (R562, R571). -/
def execCoolantSample (o : CoolantObs) (s : State) : Next :=
  .next (if ¬ s.powered then s
  else
    let flow : Int := (o.flow : Int) + s.calibOf 3 0
    let inlet := o.inlet + s.calibOf 4 0
    let outlet := o.outlet + s.calibOf 5 0
    let was := s.liquidNow
    let good := decide (5500 ≤ flow) && decide (inlet ≤ 560)
    let s : State := { s with ktl := { s.ktl with run := if good then s.ktl.run + 1 else 0 } }
    let s := s.poke .ktlMod 0 Reg.KTL_COOLANT (mkWord [(ofSigned 16 flow, 32), (ofSigned 16 outlet, 16), (ofSigned 16 inlet, 0)])
    s.judgeMode was)

/-- SENSOR_TIMEOUT (R566): a flow or coolant sensor without a reading is unconfirmed. -/
def execSensorTimeout (_which : Nat) (s : State) : Next :=
  .next (if ¬ s.powered then s
  else
    let was := s.liquidNow
    let s : State := { s with ktl := { s.ktl with run := 0 } }
    (s.raise .ktlMod 0 Reg.KTL_EVENT 8).judgeMode was)

/-! ## Trips (R561, R563, R494) -/

/-- The core rail of a die goes off. -/
def State.coreRailOff (s : State) (d : Nat) : State :=
  let x := s.die d
  s.setDie d { x with rails := x.rails % 8 }

/-- THERMAL_TRIP (R494, R563). -/
def execThermalTrip (die : Nat) (s : State) : Next :=
  .next (if 64 ≤ die ∨ ¬ (s.die die).coreOn then s
  else
    let s := s.setDie die { s.die die with tripped := true }
    let s := ((s.coreRailOff die).add .ktlMod 0 Reg.KTL_TRIPS 1).raise .ktlMod 0 Reg.KTL_EVENT 2
    ((s.tripDies [die]).showDies).settleStreams)

/-- DIE_RELEASE (R563): the Kettle releases a tripped die; its regions come up through REGION_RESET. -/
def execDieRelease (die : Nat) (s : State) : Next :=
  .next (if 64 ≤ die ∨ ¬ (s.die die).tripped then s
  else ((s.setDie die { s.die die with tripped := false }).raise .ktlMod 0 Reg.KTL_EVENT 3).showDies)

/-- POWER_TRIP (R561). -/
def execPowerTrip (s : State) : Next :=
  .next (
    let on := (List.range 64).filter fun d => (s.die d).coreOn
    if s.powerTripped ∨ on.isEmpty then s
    else
      let s := on.foldl State.coreRailOff s
      let s := (s.rbit .ktlMod 0 Reg.KTL_STATUS 12 true).raise .ktlMod 0 Reg.KTL_EVENT 6
      let s := s.add .ktlMod 0 Reg.KTL_POWER_TRIPS 1
      ((s.tripDies on).showDies).settleStreams)

/-- POWER_TRIP_RELEASE (R561): the regions are released, and come up through REGION_RESET. -/
def execPowerTripRelease (s : State) : Next :=
  .next (if ¬ s.powerTripped then s
  else ((s.rbit .ktlMod 0 Reg.KTL_STATUS 12 false).raise .ktlMod 0 Reg.KTL_EVENT 3).showDies)

/-! ## WARM_IDLE (R564, R565) -/

/-- The keep-warm target: of the last KEEP_WARM request, or POWER.keep_warm. -/
def State.warmTarget (s : State) : Nat := s.mgt.warmOrder.getD s.blend.power.keepWarm

/-- WARM_IDLE_ENTER (R564): READY, or RUNNING with no step started and no core issuing, for warm_delay; no region is tripped. -/
def execWarmIdleEnter (s : State) : Next :=
  .next (
    let idle := decide (s.topState = stReady) ||
      (decide (s.topState = stRunning) && !decide (s.job.st = .running) &&
        !s.cores.any fun e => decide (e.2.st = .running) || decide (e.2.st = .waiting))
    if s.warmTarget = 0 ∨ ¬ idle ∨ s.regions.any (fun e => e.2.tripped) then s
    else
      let s : State := { s with ktl := { s.ktl with warmFrom := s.topState } }
      let s := (s.rbit .ktlMod 0 Reg.KTL_STATUS 10 true).raise .ktlMod 0 Reg.KTL_EVENT 7
      s.setState stWarm)

end Sys2Proof.Machine
end

