-- ==== Sys2Proof/Machine/BlendLoad.lean ====
section
/-! DEFINITION. Loading a Blend (R448 to R453): the default topology and the factory default Blend, the effect of each section on the
module, and the course of a full or partial load. -/

namespace Sys2Proof.Machine

/-! ## The factory default (R452, R464) -/

/-- The good cores of a cluster, in ascending number. -/
def State.goodCores (s : State) (c : Nat) : List Nat := (List.range 12).filter fun k => s.coreGood (coreIdx c k)

/-- A cluster's own entry in the default topology: eleven good cores active, the next one spare. -/
def State.ownEntry (s : State) (c : Nat) : TopoEntry :=
  let g := s.goodCores c
  { cluster := c, active := (g.take 11).foldl (fun m k => m + 2 ^ k) 0, spare := (g.drop 11).headD 15, borrow := false, lender := 0
    core := 0 }

/-- The default topology: in ascending cluster number, a cluster with exactly ten good cores borrows the spare of c xor 1 if it
exists and is not lent, and otherwise of c xor 2. -/
def State.defaultTopo (s : State) : List TopoEntry :=
  let own := (List.range 256).map s.ownEntry
  let spareOf (c : Nat) : Nat := ((own[c]?).map (·.spare)).getD 15
  (own.foldl (fun (acc : List TopoEntry × List Nat) e =>
    let c := e.cluster
    let near (x : Nat) : Nat := 4 * (c / 4) + (c % 4 ^^^ x)
    let can (x : Nat) : Bool := decide (spareOf (near x) < 12) && !acc.2.contains (near x)
    let take_ (x : Nat) : List TopoEntry × List Nat :=
      (acc.1 ++ [{ e with borrow := true, lender := near x % 4, core := spareOf (near x) }], acc.2 ++ [near x])
    if popcount 12 e.active ≠ 10 then (acc.1 ++ [e], acc.2)
    else if can 1 then take_ 1 else if can 2 then take_ 2 else (acc.1 ++ [e], acc.2)) ([], [])).1

/-- The areas of the default: the record ring and the manifest slots. The manual gives them no place; DESIGN CHOICE, log entry 54. -/
def defaultAreas : List Area :=
  [{ kind := aRing, inst := 0, base := 0, size := 262144 }, { kind := aManifest, inst := 0, base := 262144, size := 786432 }]

/-- The bytes of a MEMORY entry. -/
def Area.bytes (a : Area) : List Byte := leBytes 1 a.kind ++ zeros 1 ++ leBytes 2 a.inst ++ zeros 4 ++ leBytes 8 a.base ++ leBytes 8 a.size

/-- The factory default Blend. -/
def State.defaultBlend (s : State) : Parsed :=
  let rs := (List.range 256).map fun i => (i, 2 ^ i)
  { blend := { Blend.none with
      topoHead := zeros 8 ++ leBytes 8 (2 ^ 64 - 1), topo := s.defaultTopo, regions := rs, areas := defaultAreas
      keyHashes := List.replicate 4 (zeros 32) }
    controls := [], shape := defaultAreas.flatMap Area.bytes, regions := rs }

/-! ## Fences (R448, R450) -/

/-- A core is fuse-bad (R462). -/
def State.fuseBad (s : State) (i : Nat) : Bool := (Smap.get 0 s.fuse.bad (coreCluster i)).testBit (coreVal i)

/-- The fence of a core is lifted, but for a core that failed a test in this power cycle, or a fuse-bad one. -/
def State.liftCore (s : State) (i : Nat) : State :=
  let c := s.core i
  if c.testFailed ∨ s.fuseBad i then s.setCore i { c with movedTo := none }
  else s.setCore i { c with fenced := false, noMigrate := false, movedTo := none }

/-- Mesh links that were fenced return, but for those of a die that is fenced whole. -/
def State.liftLinks (s : State) : State :=
  let s : State := { s with dies := s.dies.map fun e => (e.1, { e.2 with linkFails := [] }) }
  (List.range 64).foldl (fun s d =>
    let w := s.peek .topDie d Reg.TOP_RTR_PORTS
    let stays (p : Nat) : Bool := (s.die d).fenced || match meshNext d p with | some e => (s.die e).fenced | none => false
    let kept := (below 16 fun p => flag w p && stays p).foldl (fun m p => m + 2 ^ p) 0
    s.rset .topDie d Reg.TOP_RTR_PORTS 15 0 kept) s

/-- What a full load lifts. -/
def State.liftAll (s : State) : State :=
  let s := (s.cores.map (·.1)).foldl State.liftCore s
  let s : State := { s with
    takeovers := []
    clusters := s.clusters.map fun e => (e.1, { e.2 with held := [], urn := { e.2.urn with fenced := false, failed := false } }) }
  s.liftLinks

/-! ## Sections -/

/-- CONTROLS: each register that may be named takes the value given, or its reset value. -/
def State.applyControls (s : State) (xs : List (RBlk × Nat × Word)) (layers : Nat) : State :=
  let s := blendControls.foldl (fun s c =>
    let v := match xs.find? fun x => decide (x.1 = c.1 ∧ x.2.1 = c.2) with
      | some x => controlWord c.1 c.2 x.2.2
      | none => regReset (blockBase c.1 0 + c.2)
    s.poke c.1 0 c.2 v) { s with pendRegs := [] }
  s.rset .govMod 0 Reg.GOV_CTRL 12 0 layers

/-- TOP_XBAR_CFG of one cluster. -/
def State.applyXbar (s : State) (topo : List TopoEntry) (e : TopoEntry) : State :=
  let spare := s.core (coreIdx e.cluster e.spare)
  s.poke .topCluster e.cluster Reg.TOP_XBAR_CFG (xbarWord topo e (!spare.fenced))

/-- The trees of one router (R122). -/
def State.applyTrees (s : State) (die : Nat) (p : List Byte) : State :=
  (List.range 64).foldl (fun s t =>
    s.poke .topDie die (Reg.TOP_RTR_MCAST + 8 * t) (BitVec.ofNat 64 ((routeEntry p t).getD 0))) s

/-- ROUTES of one die. -/
def State.applyRoutes (s : State) (die : Nat) (p : List Byte) : State :=
  let s := (List.range 64).foldl (fun s d => s.poke .topDie die (Reg.TOP_RTR_ROUTE + 8 * d) (BitVec.ofNat 64 (routeMode p d))) s
  s.applyTrees die p

/-- Base and size of the area of a kind and number; 0 without one. -/
def areaIn (xs : List Area) (kind inst : Nat) : Nat × Nat :=
  ((xs.find? fun a => decide (a.kind = kind ∧ a.inst = inst)).map fun a => (a.base, a.size)).getD (0, 0)

/-- MEMORY: the registers that show it. -/
def State.applyMemory (s : State) (xs : List Area) : State :=
  let put (s : State) (b : RBlk) (i o n : Nat) : State := s.poke b i o (BitVec.ofNat 64 n)
  let s := (List.range 256).foldl (fun s c =>
    let a := areaIn xs aUrnLog c
    put (put s .urnCluster c Reg.URN_LOG_BASE a.1) .urnCluster c Reg.URN_LOG_LIMIT (a.2 / 136)) s
  (List.range 16).foldl (fun s p =>
    let c := areaIn xs aCache p
    let r := areaIn xs aRetain p
    let s := put (put s .infPort p Reg.INF_CACHE_BASE c.1) .infPort p Reg.INF_CACHE_CHUNKS (c.2 / 65600)
    put (put s .samPort p Reg.SAM_RETAIN_BASE r.1) .samPort p Reg.SAM_RETAIN_LIMIT (r.2 / 4160)) s

/-- LNK_ROLE for a port entry, with the job and rank that bind the port. -/
def roleWord (e : PortCfg) (job rank : Nat) : Word :=
  if e.role = 0 then 0
  else mkWord [(e.role, 0), (e.expRole, 8), (e.expPort, 12), (e.expRank, 16), (rank, 32), (job, 48)]

/-- PORTS for one port: what it is told, and what it does when that changes (R334, R357). -/
def State.applyPort (s : State) (p : Nat) (e : PortCfg) (job rank : Nat) : State :=
  let w := roleWord e job rank
  let changed := decide (s.peek .lnkPort p Reg.LNK_ROLE ≠ w)
  let s := (s.poke .lnkPort p Reg.LNK_ROLE w).poke .infPort p Reg.INF_PASSON (BitVec.ofNat 64 e.passon)
  let s := (List.range 4).foldl (fun s k => s.poke .infPort p (Reg.INF_SERVER + 8 * k) (BitVec.ofNat 64 (nth 0 e.servers k))) s
  let st := s.portState p
  if ¬ (s.die (portDie p)).edgeReady ∨ st = psTest then s
  else if e.role = 0 then
    (if st = psDisabled then s else if st = psFenced then s.setPortState p psDisabled else s.closePort p psDisabled)
  else if st = psDisabled ∨ st = psFenced then s.startPort p
  else if changed ∨ st = psNoVersion ∨ st = psRoleMismatch then s.setPort p { s.port p with rebind := true }
  else s

/-- PORTS. -/
def State.applyPorts (s : State) (b : Blend) : State :=
  let s := (List.range 16).foldl (fun s p => s.applyPort p ((b.ports[p]?).getD PortCfg.unused) b.job b.rank) s
  (List.range 16).foldl (fun s k =>
    s.poke .infMod 0 (Reg.INF_PUBKEY_HASH + 8 * k) (wordOf (nth [] b.keyHashes (k / 4)) (k % 4))) s

/-- GROUPS and SIP_GROUPS: every reduction context goes, and every group forms under its initial epoch (R287, R448); a Blend
without a job has none (R14). -/
def State.applyGroups (s : State) (b : Blend) : State :=
  let kept := if s.coll.epochJob = b.job then s.coll.epochs else []
  let emptied := if s.coll.epochJob = b.job then [] else s.coll.epochs.map (·.1)
  let s : State := { s with coll := { Coll.idle with epochs := kept, epochJob := b.job } }
  let s := emptied.foldl State.keepEpochs s
  let s := b.groups.foldl (fun s g => s.newEpoch g.group g.epoch g) s
  let s := b.sipGroups.foldl (fun s g =>
    let x : SipGrp :=
      { cfg := g, job := b.job, st := .none, epoch := g.epoch, asked := [], confirmed := [], base := none, moved := false, done := [] }
    (s.setSipg g.group x).sipNewEpoch g.group g.epoch) s
  ((List.range 16).foldl (fun s p => if s.sipNamed p then s else s.sipGoesDown p) s).showExchange

/-- BUDDY, and the board position it shares with the store. What generation areas hold is forgotten when they move (DESIGN CHOICE,
log entry 53). -/
def State.applyBuddy (s : State) (old : Blend) (was : Nat) : State :=
  let same := decide (old.areas = s.blend.areas) && decide (old.buddy = s.blend.buddy)
  let s : State := if same then s else
    let t : State := (s.markArea 0 none).markArea 1 none
    let t : State := { t with ckp := { t.ckp with
      shard := [zeros 32, zeros 32], send := none, hand := none, recv := none, holdBlocks := [], guard := [] } }
    ((t.poke .ckpMod 0 Reg.CKP_BUDDY_SEND 0).poke .ckpMod 0 Reg.CKP_BUDDY_HOLD 0).showHand.keepHold.keepBuddy
  let p := s.boardPosition
  let s := s.rset .ckpMod 0 Reg.CKP_STATUS 25 24 p
  if p = was ∨ ¬ s.ckp.caddyReady then s
  else
    let s : State := { s with ckp := { s.ckp with storeHead := [], goodSlots := [none, none] } }
    s.nvGet (p * s.partLbas) lbaSize (.readHead 0)

/-- GOV_LAYER for a layer as a load leaves it. -/
def layerWord (l : StageCfg) : Word :=
  mkWord [(b2n l.pinned, 63), (l.initFormat, 48), (l.initScale, 40), (l.initScale, 16), (l.initFormat, 0)]

/-- STAGES. -/
def State.applyStages (s : State) (ls : List StageCfg) : State :=
  let a := blockBase .govMod 0 + Reg.GOV_LAYER
  let s : State := { s with regs := s.regs.filter fun e => !(decide (a ≤ e.1) && decide (e.1 < a + 32768)) }
  ls.zipIdx.foldl (fun s l => s.poke .govMod 0 (Reg.GOV_LAYER + 8 * l.2) (layerWord l.1)) s

/-- A core as a load leaves it: IDLE, with the program given or with none. -/
def Core.loaded (c : Core) (p : Option (List Byte)) : Core :=
  let c := { c with st := .idle, waits := .none, queues := [[], [], [], []], lc := List.replicate 4 0, ending := false, batches := [] }
  match p with
  | some p => c.withProgram p
  | none => c.withoutProgram

/-- PROGRAM for some cores: what the store holds for each of them. -/
def State.applyPrograms (s : State) (is : List Nat) : State :=
  is.foldl (fun s i => s.setCore i ((s.core i).loaded (Smap.get? s.blend.store i))) s

/-! ## Applying a Blend -/

/-- The eight bytes of CFG_CHECK and CFG_SHAPE registers. -/
def State.putHash (s : State) (o : Nat) (h : List Byte) : State :=
  (List.range 4).foldl (fun s k => s.poke .cfgMod 0 (o + 8 * k) (wordOf h k)) s

/-- Regions as the new Blend names them: one that takes in a cluster of a tripped region has tripped. -/
def State.newRegions (s : State) (b : Blend) : Smap Region :=
  let off (r : Nat × Nat) : Bool := (below 256 r.2.testBit).any fun c => match s.regionOf c with
    | some q => (s.region q).tripped
    | none => false
  b.regions.foldl (fun m r => if off r then Smap.put m r.1 { Region.blank with tripped := true } else m) []

/-- The whole of a full load's step 5 (R448). -/
def State.applyBlend (s : State) (p : Parsed) : State :=
  let b := p.blend
  let old := s.blend
  let was := s.boardPosition
  let regions := s.newRegions b
  let s := (s.liftAll).applyControls p.controls b.stages.length
  let s : State := { s with blend := b, regions := regions }
  let s := b.topo.foldl (fun s e => s.applyXbar b.topo e) s
  let s := (List.range 64).foldl (fun s d => s.applyRoutes d (routesOf b.routes d)) s
  let s := (((s.applyMemory b.areas).applyPorts b).applyGroups b).applyBuddy old was
  let s := s.applyStages b.stages
  let s := s.applyPrograms ((s.cores.map (·.1)) ++ b.store.map (·.1)).eraseDups
  s.loadPower

/-- CFG_STATUS and the hashes after a full load. -/
def State.showLoad (s : State) (p : Parsed) (check : List Byte) (signed default_ : Bool) : State :=
  let s := (s.putHash Reg.CFG_CHECK check).putHash Reg.CFG_SHAPE (hashBytes (shake256 p.shape))
  let s := s.rset .cfgMod 0 Reg.CFG_STATUS 24 16 p.blend.regions.length
  let s := s.rbit .cfgMod 0 Reg.CFG_STATUS 3 signed
  (s.rbit .cfgMod 0 Reg.CFG_STATUS 1 false).rbit .cfgMod 0 Reg.CFG_STATUS 0 default_

/-- A Blend takes the place of the loaded one, and the topology is compared (R469). -/
def State.takeBlend (s : State) (p : Parsed) (check : List Byte) (signed default_ : Bool) : State :=
  ((((s.applyBlend p).showLoad p check signed default_).checkSpares).judgeTopo true).restState

/-- The factory default is loaded. -/
def State.takeDefault (s : State) : State := s.takeBlend s.defaultBlend (hashBytes Config.defaultCheck) true true

/-! ## Partial loads (R450) -/

/-- The effect of a partial load whose sections hold. A cluster outside the scope that lends its spare to one inside, or did, shows it in
its TOP_XBAR_CFG (DESIGN CHOICE, log entry 95: R103 and R433 against R450's scope). -/
def State.applyPartial (s : State) (p : Parsed) : State :=
  let b := p.blend
  let cl := clustersOf p.regions
  let gone := (scopeCores s.blend.topo cl ++ scopeCores b.topo cl).eraseDups
  let entries := b.topo.filter fun e => cl.contains e.cluster
  let lenders := ((s.blend.topo ++ b.topo).filter fun e => cl.contains e.cluster && e.borrow).map TopoEntry.from_
  let named := entries.flatMap fun e =>
    ((below 12 e.active.testBit) ++ (if e.spare < 12 then [e.spare] else [])).map (coreIdx e.cluster) ++
    (if e.borrow then [coreIdx e.from_ e.core] else [])
  let s : State := { s with blend := b, takeovers := s.takeovers.filter fun t => !named.contains t.core }
  let s := named.foldl State.liftCore s
  let s := (b.topo.filter fun e => cl.contains e.cluster || lenders.contains e.cluster).foldl (fun s e => s.applyXbar b.topo e) s
  let s := b.routes.foldl (fun s r => s.applyTrees r.1 r.2) s
  let s : State := { s with clusters := s.clusters.map fun e => (e.1, if cl.contains e.1 then { e.2 with urn := Urn.blank } else e.2) }
  let s := (s.applyPrograms gone).rbit .cfgMod 0 Reg.CFG_STATUS 1 true
  s.checkSpares.compareTopo

/-! ## The course of a load (R448, R449) -/

/-- The check of an image's signature is counted, if it was reached. -/
def State.countVerify (s : State) (img : List Byte) (f : Option LoadFault) : State :=
  match f with
  | none => if imgSigned img then s.verified true else s
  | some f => if f.reason = rnSign ∧ f.offset = imgBody img + 1984 then s.verified false else s

/-- Steps 1 to 4: the image and what it describes, or the first fault. -/
def State.readBlend (s : State) (addr length : Nat) (partial_ : Bool) : Except LoadFault (List Byte × Parsed) × State :=
  if length < 0x20 then (.error (headFault .malformed rnHeader 8), s)
  else
    let h := s.memRead addr 32
    if h.1 ≠ .ok then (.error (headFault h.1 rnRead 0), h.2.2)
    else match headerFault h.2.1 length partial_ with
    | some f => (.error f, h.2.2)
    | none =>
      let r := h.2.2.memRead addr length
      if r.1 ≠ .ok then (.error (headFault r.1 rnRead 0), r.2.2)
      else
        let img := r.2.1
        let v := sealFault img s.fuse.owner
        let t := r.2.2.countVerify img v
        match v with
        | some f => (.error f, t)
        | none => match parseImage img (if partial_ then some s.blend else none) with
          | .error f => (.error f, t)
          | .ok p =>
            let held (k : Nat) : List Nat := if s.coll.epochJob = p.blend.job then s.heldEpochs k else []
            match if partial_ then none else epochFault img p.blend held with
            | some f => (.error f, t)
            | none => (.ok (img, p), t)

/-- CFG_STATUS.last_status. -/
def State.lastLoad (s : State) (st : Status) : State := s.rset .cfgMod 0 Reg.CFG_STATUS 35 32 st.code

/-- A load ends at a fault: the Blend stands, or, for a full load whose check word or signature fails, gives way to the factory
default. While the module is in BRINGUP the default is still to be applied, with the last wave. -/
def State.loadFailed (s : State) (f : LoadFault) (partial_ : Bool) : State :=
  let s := (s.poke .cfgMod 0 Reg.CFG_ERR f.word).lastLoad f.status
  if ¬ partial_ ∧ (f.reason = rnCheck ∨ f.reason = rnSign) then
    let s := (s.add .cfgMod 0 Reg.CFG_FALLBACKS 1).raise .cfgMod 0 Reg.CFG_EVENT 2
    if s.topState = stBringup then s else s.takeDefault
  else (s.add .cfgMod 0 Reg.CFG_REFUSED 1).raise .cfgMod 0 Reg.CFG_EVENT 3

/-- Steps 5 and 6 of a full load. -/
def State.loadDone (s : State) (img : List Byte) (p : Parsed) : State :=
  let s := s.takeBlend p (imgCheck img) (imgSigned img) false
  (((s.add .cfgMod 0 Reg.CFG_LOADS 1).raise .cfgMod 0 Reg.CFG_EVENT 0).lastLoad .ok).rbit .cfgMod 0 Reg.CFG_STATUS 2 false

/-- A full load outside BRINGUP: its status. -/
def State.fullLoad (s : State) (addr length : Nat) : Status × State :=
  let r := s.readBlend addr length false
  match r.1 with
  | .error f => (f.status, (r.2.loadFailed f false).settleStreams)
  | .ok x => (.ok, (r.2.loadDone x.1 x.2).settleStreams)

/-- A full load in BRINGUP: it ends at a fault, or waits for the last wave (R472). -/
def State.earlyLoad (s : State) (q addr length : Nat) : Option Status × State :=
  let r := s.readBlend addr length false
  match r.1 with
  | .error f => (some f.status, r.2.loadFailed f false)
  | .ok x =>
    let s : State := { r.2 with top := { r.2.top with blendWaiting := some (q, x.1) } }
    (none, s.rbit .cfgMod 0 Reg.CFG_STATUS 2 true)

/-- The regions that the image of a partial load lists, read before anything else is judged. -/
def State.partialScope (s : State) (addr length : Nat) : List Nat :=
  let r := s.memRead addr length
  match walkSections r.2.1 (imgBody r.2.1) (imgBody r.2.1) 1 0x20 with
  | .ok xs => (imgScope xs).map (·.1)
  | .error _ => []

/-- A partial load: BUSY, with nothing read, while a region of its scope is not drained. -/
def State.partialLoad (s : State) (addr length : Nat) : Status × State :=
  if (s.partialScope addr length).any fun r => decide (s.blend.regions.any fun e => decide (e.1 = r)) && !(s.region r).drained then
    (.busy, ((s.add .cfgMod 0 Reg.CFG_REFUSED 1).raise .cfgMod 0 Reg.CFG_EVENT 3).lastLoad .busy)
  else
    let r := s.readBlend addr length true
    match r.1 with
    | .error f => (f.status, r.2.loadFailed f true)
    | .ok x =>
      let s := r.2.applyPartial x.2
      (.ok, ((s.add .cfgMod 0 Reg.CFG_PARTIALS 1).raise .cfgMod 0 Reg.CFG_EVENT 1).lastLoad .ok)

end Sys2Proof.Machine
end

