-- ==== Sys2Proof/Machine/Bringup.lean ====
section
/-! DEFINITION. Power, bring-up and region resets (R459 to R472, R600): the boot ROM, rings, routers, stacks, waves of core tests,
failure records, and what raises a region again. -/

namespace Sys2Proof.Machine

/-! ## Power (R459, R556, R600) -/

/-- Every rail off: COLD. Only module flash and fuses keep anything. -/
def State.powerOff (s : State) (pwrEn inRange : Bool) : State :=
  { State.reset with
    pending := s.pending, freeIx := s.freeIx, out := s.out, flash := s.flash, fuse := s.fuse
    tim := { Tim.off with refclk := s.tim.refclk }
    top := { Top.cold with pwrEn := pwrEn, inRange := inRange } }

/-- TOP_STATE.phase (R476). -/
def State.setPhase (s : State) (v : Nat) : State := s.rset .topMod 0 Reg.TOP_STATE 35 32 v

/-- The firmware slot the boot ROM starts (R461, R545): the higher version first. Equal versions: slot 0 (DESIGN CHOICE, log entry
55). -/
def State.bootSlot (s : State) (b : BootObs) : Option Nat :=
  let fw (k : Nat) : FwSlot := nth { valid := false, version := 0, epoch := 0, digest := 0 } s.flash.fw k
  let good (k : Nat) : Bool := (if k = 0 then b.slot0Ok else b.slot1Ok) && (fw k).valid && decide (s.fuse.epoch ≤ (fw k).epoch)
  let order := if (fw 0).version < (fw 1).version then [1, 0] else [0, 1]
  order.find? good

/-- SAFE, with its cause (R472, R473). Causes 2 to 4 make health FAILED; no cause of R504 names them. -/
def State.enterSafe (s : State) (cause : Nat) : State :=
  let s := (s.rset .topMod 0 Reg.TOP_STATE 27 24 cause).setPhase 6
  let s := s.rset .topMod 0 Reg.TOP_STATE 3 0 stSafe
  let s := if cause = 1 then s else (s.setHealth 2).rbit .topMod 0 Reg.TOP_HEALTH 8 true
  s.alertPin.sendStatus

/-- The die of stack 0 is raised alone, for the host link (R473). -/
def State.raiseDie0 (s : State) : State := s.setDie 0 { Die.off with phase := 1, rails := 3 }

/-- Cold bring-up up to the default topology: steps 1 to 4 of R459. -/
def State.coldStart (s : State) (b : BootObs) : State :=
  let s := s.powerOff true true
  let s : State := { s with
    top := { s.top with boot := b }, tim := { s.tim with started := true }, ktl := { s.ktl with vCap := s.blend.power.vMax } }
  let s := (s.rset .topMod 0 Reg.TOP_STATE 3 0 stBringup).rbit .mgtMod 0 Reg.MGT_STATUS 2 true
  match s.bootSlot b with
  | none => s.enterSafe 1
  | some k =>
    let s : State := { s with
      sec := { s.sec with slot := k }, top := { s.top with pwrGood := true, identityOk := b.identityVote } }
    let s := s.rbit .secMod 0 Reg.SEC_STATUS 0 b.identityVote
    if ¬ b.fuseVote then s.raiseDie0.enterSafe 2
    else if ¬ (b.default0Ok ∨ b.default1Ok) then s.raiseDie0.enterSafe 3
    else s.setPhase 2

/-- PWR_EN_ASSERT (R459, R600): cold bring-up starts if 48 V is in range. -/
def execPwrEnAssert (b : BootObs) (s : State) : Next :=
  .next (if s.top.pwrEn then s
  else if s.top.inRange then s.coldStart b
  else { s with top := { s.top with pwrEn := true } })

/-- INPUT_ENTERS_RANGE (R600): t0 of cold bring-up, if PWR_EN is asserted. -/
def execInputEntersRange (b : BootObs) (s : State) : Next :=
  .next (if s.top.inRange then s
  else if s.top.pwrEn then s.coldStart b
  else { s with top := { s.top with inRange := true } })

/-- PWR_EN_DEASSERT (R600). -/
def execPwrEnDeassert (s : State) : Next := .next (if s.top.pwrEn then s.powerOff false s.top.inRange else s)

/-- INPUT_OUT_OF_RANGE (R566, R600). -/
def execInputOutOfRange (s : State) : Next := .next (s.powerOff s.top.pwrEn false)

/-! ## Rings, routers and stacks (R465, R466, R472) -/

/-- The dies of an edge ring. -/
def ringDies (r : Nat) : List Nat := (List.range 64).filter fun d => decide (dieRing d = r)

/-- Every stack of a ring has reported, or its die is fenced. -/
def State.ringReported (s : State) (r : Nat) : Bool := (ringDies r).all fun d => (s.die d).fenced || s.top.stackReports.contains d

/-- A die's rails come up: router and memory, and the link rail where a link chiplet sits. -/
def State.railsUp (s : State) (d : Nat) : State :=
  s.setDie d { s.die d with phase := 1, rails := if (diePort d).isSome then 7 else 3 }

/-- RING_START (R465). The next ring starts when the ring before it has reported, or 2,050 ms after that started. -/
def execRingStart (s : State) : Next :=
  .next (
    let r := s.top.ringsStarted
    if s.topState ≠ stBringup ∨ 4 ≤ r then s
    else
      let s := (s.rset .topMod 0 Reg.TOP_STATE 31 30 r).setPhase 3
      (ringDies r).foldl State.railsUp { s with top := { s.top with ringsStarted := r + 1 } })

/-- Dies that carry an edge chiplet (R20). -/
def edgeDies : List Nat := portDies ++ [0, 7, 56, 63]

/-- A die is fenced whole, with its mesh links in both directions; its stack is reported UNAVAILABLE (R472; DEDUCED, log entry 69). -/
def State.fenceDie (s : State) (d : Nat) : State :=
  let s := (s.setDie d { s.die d with fenced := true }).raise .topMod 0 Reg.TOP_EVENT 1
  let s := (s.raise .topMod 0 Reg.TOP_EVENT 2).funcReady 0 d .unavailable
  (List.range 16).foldl (fun s p =>
    match meshNext d p with
    | some e => (s.rbit .topDie d Reg.TOP_RTR_PORTS p true).rbit .topDie e Reg.TOP_RTR_PORTS (meshBack p) true
    | none => s) s

/-- The router of die 0 or 7 has failed: SAFE, with every die off (R473). -/
def State.routerSafe (s : State) : State :=
  let s : State := { s with
    dies := [], stackSt := [], cores := [], clusters := [], ports := []
    host := { s.host with linkUp := false, ready := false }
    top := { s.top with waves := [], blendWaiting := none } }
  s.enterSafe 4

/-- Bring-up of a die goes on: BRINGUP, or die 0 in a SAFE that raises it. -/
def State.raising (s : State) (d : Nat) : Bool :=
  decide (s.topState = stBringup) || (decide (d = 0) && decide (s.topState = stSafe))

/-- ROUTER_TEST_DONE (R465, R472). -/
def execRouterTestDone (die : Nat) (ok : Bool) (s : State) : Next :=
  .next (
    let x := s.die die
    if 64 ≤ die ∨ ¬ s.raising die ∨ x.phase ≠ 1 ∨ s.top.routerReports.contains die then s
    else
      let s : State := { s with top := { s.top with routerReports := s.top.routerReports ++ [die] } }
      if ok then s.setDie die { x with routerOk := true, phase := 2, edgeReady := edgeDies.contains die }
      else if die = 0 ∨ die = 7 then s.routerSafe
      else s.fenceDie die)

/-- The marked rows of a stack are applied in order of marking, up to 64 overlay rows (R388, R389). -/
def applySoft (n : Nat) : Nat → List SoftRow → Bool × List SoftRow
  | _, [] => (false, [])
  | used, r :: rs =>
    if r.stack ≠ n ∨ r.applied then
      let x := applySoft n used rs
      (x.1, r :: x.2)
    else if used < 64 then
      let x := applySoft n (used + 1) rs
      (x.1, { r with applied := true } :: x.2)
    else
      let x := applySoft n used rs
      (true, r :: x.2)

/-- Soft repairs of a stack at cold bring-up. -/
def State.softRepair (s : State) (n : Nat) : State :=
  let used := (s.flash.soft.filter fun r => decide (r.stack = n) && r.applied).length
  let x := applySoft n used s.flash.soft
  let s : State := { s with flash := { s.flash with soft := x.2 } }
  if x.1 then s.raise .memDie n Reg.MEM_EVENT 6 else s

/-- A stack serves requests, with an erased die or none (R379, R499). -/
def State.stackUp (s : State) (n : Nat) (erased : Option Nat) (lost : Bool) : State :=
  let s := s.setStack n { Stack.blank with ready := true, erased := erased }
  let s := if lost then s.raise .memDie n Reg.MEM_EVENT 3 else s
  let s := if erased.isSome then s.degrade 1 else s
  s.funcReady 0 n .ok

/-- A stack that served reports failed after bring-up (R469, R484): UNAVAILABLE. An open job cannot go on without it; with no job
the topology is compared again. DEDUCED (log entry 71). -/
def State.stackLost (s : State) (d : Nat) : State :=
  let s := s.setStack d { s.stack d with ready := false, failed := true }
  let s := (s.raise .topMod 0 Reg.TOP_EVENT 2).funcReady 0 d .unavailable
  if s.job.isOpen then (s.failHealth 5).stepFail csStack lvReform .unavailable d else s.compareTopo

/-- STACK_READY (R466, R472): the die the fuse map names is erased, or one that the test found; a second makes the stack fail. In
SAFE no soft repair is made (R473). After bring-up a controller that reports failed takes its stack out of service. -/
def execStackReady (die : Nat) (o : StackObs) (s : State) : Next :=
  .next (
    let x := s.die die
    if 64 ≤ die ∨ x.fenced then s
    else if ¬ s.raising die then
      if (s.stack die).ready ∧ ¬ o.trained then s.stackLost die else s
    else if x.phase ≠ 2 ∨ s.top.stackReports.contains die then s
    else
      let fused := match Smap.get 0 s.fuse.erased die with | 0 => [] | k + 1 => [k]
      let gone := (fused ++ o.lostDies).eraseDups
      let s : State := { s with top := { s.top with stackReports := s.top.stackReports ++ [die] } }
      let s := s.setDie die { x with phase := 3 }
      if o.trained ∧ gone.length ≤ 1 then
        let s := if s.topState = stSafe then s else s.softRepair die
        s.stackUp die gone.head? (!gone.isEmpty)
      else
        let s := s.setStack die { Stack.blank with failed := true }
        (s.raise .topMod 0 Reg.TOP_EVENT 2).funcReady 0 die .unavailable)

/-! ## Waves (R467) -/

/-- The cores tested with a cluster: its own but those lent and those that are fuse-bad, and the one it borrows. -/
def State.testCores (s : State) (c : Nat) : List Nat :=
  let w := s.xbar c
  let own := (List.range 12).filter fun k => !(xbarLent w && decide (fld w 19 16 = k))
  ((own.map (coreIdx c)) ++ (s.borrowedCore c).toList).filter fun i => !s.fuseBad i

/-- A cluster waits for its test: not reported, in no wave, and its die's core rail may be raised. -/
def State.waveWaits (s : State) (c : Nat) : Bool :=
  let d := s.die (c / 4)
  !(s.cluster c).ready && !s.top.waves.any (·.contains c) && !d.fenced && !d.tripped && decide (3 ≤ d.phase) && !s.powerTripped

/-- The ring whose clusters are tested now in cold bring-up: its stacks have reported, or waited long enough, and the clusters of
the rings before it have reported. -/
def State.waveRing (s : State) : Option Nat :=
  (List.range 4).find? fun r =>
    decide (r < s.top.ringsStarted) && (s.ringReported r || decide (r + 1 < s.top.ringsStarted)) &&
    (List.range 256).any (fun c => decide (dieRing (c / 4) = r) && s.waveWaits c) &&
    (List.range 256).all fun c => (s.cluster c).ready || (s.die (c / 4)).fenced || decide (r ≤ dieRing (c / 4))

/-- The clusters of the next wave: up to eight of one ring, in ascending number; none if no wave can start. -/
def State.nextWave (s : State) : List Nat :=
  if s.topState = stBringup then
    match s.waveRing with
    | some r => ((List.range 256).filter fun c => decide (dieRing (c / 4) = r) && s.waveWaits c).take 8
    | none => []
  else
    let due := (List.range 256).filter fun c => s.waveWaits c && match s.regionOf c with
      | some r => (s.region r).resetting
      | none => false
    match due with
    | [] => []
    | c :: _ => (due.filter fun x => decide (dieRing (x / 4) = dieRing (c / 4))).take 8

/-- The cores of a cluster are powered for their test. -/
def State.powerCluster (s : State) (c : Nat) : State :=
  let d := s.die (c / 4)
  let s := s.setDie (c / 4) { d with rails := d.rails % 8 + 8 }
  (s.testCores c).foldl (fun s i => s.setCore i { s.core i with powered := true }) s

/-- WAVE_START (R467). -/
def execWaveStart (s : State) : Next :=
  .next (
    match s.nextWave with
    | [] => s
    | cs => (cs.foldl State.powerCluster { s with top := { s.top with waves := s.top.waves ++ [cs] } }).showDies)

/-- A core's fence after a failed test. In cold bring-up no program is held and nothing is logged. -/
def State.fenceFailed (s : State) (i : Nat) : State :=
  let s := if s.topState = stBringup then s.setCore i { s.core i with fenced := true, fencedAt := s.now } else s.fenceCore i csSelfTest
  s.setCore i { s.core i with testFailed := true, passedTest := false }

/-- A core has failed a test (R463): fenced for the power cycle, and its failure record is due. One that holds a program is fenced
as R485 has it. -/
def State.coreFailed (s : State) (i : Nat) : State :=
  let s := s.fenceFailed i
  let s := (s.add .topMod 0 Reg.TOP_CORES_FAILED 1).raise .topMod 0 Reg.TOP_EVENT 3
  { s with top := { s.top with failCounts := s.top.failCounts ++ [i] } }

/-- A core has passed a test; in cold bring-up its failure record goes. -/
def State.corePassed (s : State) (i : Nat) : State :=
  let s := s.setCore i { s.core i with passedTest := true }
  if s.topState = stBringup then { s with flash := { s.flash with failures := s.flash.failures.filter fun j => !decide (j = i) } } else s

/-- One core's test result. -/
def State.coreTested (s : State) (failed : List Nat) (i : Nat) : State :=
  if ¬ (s.core i).powered then s else if failed.contains i then s.coreFailed i else s.corePassed i

/-- A cluster reports ready (R468); the die is up with its fourth. -/
def State.clusterReady (s : State) (c : Nat) : State :=
  let s := s.setCluster c { s.cluster c with ready := true }
  let d := c / 4
  let all := (List.range 4).all fun k => (s.cluster (4 * d + k)).ready
  let s := if all then s.setDie d { s.die d with phase := 4 } else s
  if s.topState = stBringup then s.funcReady 2 c .ok else s

/-- The oldest wave has been tested. A cluster that lost its rail meanwhile is left for another wave. -/
def State.waveDone (s : State) (failed : List Nat) : State :=
  match s.top.waves with
  | [] => s
  | w :: rest =>
    let s : State := { s with top := { s.top with waves := rest } }
    let cs := w.filter fun c => (s.die (c / 4)).coreOn
    let s := (cs.flatMap s.testCores).foldl (fun s i => s.coreTested failed i) s
    let s := cs.foldl State.clusterReady s
    if s.topState = stBringup then
      s.rset .topMod 0 Reg.TOP_STATE 21 16 (s.rfield .topMod 0 Reg.TOP_STATE 21 16 + 1)
    else s

/-- FAILURE_RECORD_WRITE (R463): module flash holds up to 256 records. -/
def execFailureRecordWrite (core : Nat) (s : State) : Next :=
  .next (if ¬ s.top.failCounts.contains core then s
  else
    let s : State := { s with top := { s.top with failCounts := s.top.failCounts.erase core } }
    if 256 ≤ s.flash.failures.length ∨ s.flash.failures.contains core then s
    else { s with flash := { s.flash with failures := s.flash.failures ++ [core] } })

/-- Every cluster that can come up has reported. -/
def State.allReported (s : State) : Bool :=
  decide (s.top.ringsStarted = 4) && s.top.waves.isEmpty &&
    (List.range 256).all fun c => (s.cluster c).ready || (s.die (c / 4)).fenced

/-- Step 9 of R459: the factory default is applied, the topology compared, and the module is READY. -/
def State.bringupDone (s : State) : State :=
  let s := ((s.setPhase 4).takeDefault).setPhase 5
  let s := s.poke .topMod 0 Reg.TOP_COLD_TIME (BitVec.ofNat 64 (s.now - s.top.t0))
  ((s.raise .topMod 0 Reg.TOP_EVENT 0).setState stReady).checkSpares

/-! ## Region resets (R470, R471) -/

/-- REGION_RESET is carried out to step 2: the region is off and cleared, and waits for its waves. -/
def State.startReset (s : State) (r : Nat) : State :=
  let busy := s.regionBusy r
  let held := s.regionProgram r
  let is := s.regionCores r
  let cs := s.regionClusters r
  let s := s.regionEvent r 1
  let x := s.region r
  let s := s.setRegion r { x with resetting := true, resetAt := s.now, draining := false, drained := false, released := false }
  let s := (s.clearRegion r).resetRegs is cs
  let s := cs.foldl (fun s c => s.setCluster c { s.cluster c with ready := false }) s
  if busy ∧ held then s.stepFail csReset lvRollback .targetReset r else s

/-- A region has come up again: programs from BLEND_STORE, crossbars from the topology in force. -/
def State.finishReset (s : State) (r : Nat) : State :=
  let is := s.regionCores r
  let s := is.foldl (fun s i =>
    let c := s.core i
    let st := if c.st = .ended then SeqSt.ended else .idle
    s.setCore i { c.loaded (Smap.get? s.blend.store i) with st := st, ending := decide (st = .ended) }) s
  let x := s.region r
  let took := s.now - x.resetAt
  let s := s.setRegion r { Region.blank with barOpen := false }
  let s := (s.add .topMod 0 Reg.TOP_REGION_RESETS 1).rmax .topMod 0 Reg.TOP_REGION_TIME_MAX took
  ((((s.raise .topMod 0 Reg.TOP_EVENT 4).regionEvent r 2).checkSpares).restState).compareTopo

/-- The regions being reset whose clusters have all been tested. -/
def State.resetsDone (s : State) : List Nat :=
  (s.regions.filter fun e => e.2.resetting && (s.regionClusters e.1).all fun c => (s.cluster c).ready || (s.die (c / 4)).fenced).map (·.1)

/-! ## The management port (R468) -/

/-- MGT_LINK_UP (R468). The service chiplet is powered whenever the module is. -/
def execMgtLinkUp (s : State) : Next :=
  .next (if ¬ s.powered ∨ s.mgtUp ∨ ¬ s.tim.refclk then s else (s.rbit .mgtMod 0 Reg.MGT_STATUS 0 true).funcReady 4 0 .ok)

end Sys2Proof.Machine
end

