-- ==== Sys2Proof/Machine/Takeover.lean ====
section
/-! DEFINITION. Takeovers and migrations (R451, R485 to R490): a fenced core's program and state move to a spare. -/

namespace Sys2Proof.Machine

/-! ## Descriptors and trees -/

/-- An address in the tile store of core `i`, in that of core `j`; any other address as it is. -/
def movedAddr (i j a : Nat) : Nat := if tileBase i ≤ a ∧ a < tileBase i + 0x1000000 then a - tileBase i + tileBase j else a

/-- A TENSOR or SPARSE that lies in the tile store of core `i`, as it lies in that of core `j` (DEDUCED, log entry 56). -/
def movedDesc (i j : Nat) (d : BitVec 256) : BitVec 256 :=
  if dKind d = 0 ∨ dKind d = 2 then
    setFld (setFld d 48 0 (movedAddr i j (fld d 48 0))) 112 64 (movedAddr i j (fld d 112 64))
  else d

/-- The PROGRAM of core `i` as core `j` holds it. -/
def movedProgram (i j : Nat) (p : List Byte) : List Byte :=
  let n := progDescs p
  leBytes 2 (leAt p 0 2 / 16384 * 16384 + j) ++ (p.take 48).drop 2 ++
    ((List.range n).flatMap fun k => leBytes 32 (movedDesc i j (BitVec.ofNat 256 (leAt p (48 + 32 * k) 32))).toNat) ++
    p.drop (48 + 32 * n)

/-- The bit of a core in the core_mask of its die's routers (R122). -/
def treeBit (i : Nat) : Nat := 12 * (coreCluster i % 4) + coreVal i

/-- A tree entry whose bit for core `i` has moved to core `j` of the same die. -/
def movedTree (i j w : Nat) : Nat := if w.testBit (treeBit i) then (w - 2 ^ treeBit i) ||| 2 ^ treeBit j else w

/-- A ROUTES payload with those bits moved. -/
def movedRoutes (i j : Nat) (p : List Byte) : List Byte :=
  p.take 32 ++ (chunksOf 8 (p.drop 32)).flatMap fun e => leBytes 8 (movedTree i j (leAt e 0 8))

/-- The entry of home cluster `h` once core `j` stands where core `i` stood (R120, R451). -/
def TopoEntry.took (h i j : Nat) (e : TopoEntry) : TopoEntry :=
  if e.cluster ≠ h then e
  else
    let e := if coreCluster i = h then { e with active := (setFld (BitVec.ofNat 12 e.active) (coreVal i) (coreVal i) 0).toNat }
      else { e with borrow := false, lender := 0, core := 0 }
    if coreCluster j = h then { e with active := e.active ||| 2 ^ coreVal j, spare := 15 }
    else { e with borrow := true, lender := coreCluster j % 4, core := coreVal j }

/-! ## What R451 applies -/

/-- Bit `a` of a mask moves to bit `b`. -/
def movedBit (m a b : Nat) : Nat := if m.testBit a then (m - 2 ^ a) ||| 2 ^ b else m

/-- Arrivals and ends that the cluster and region hold for core `i` stand for core `j` (R147). -/
def State.moveMarks (s : State) (h bit i j : Nat) : State :=
  let x := s.cluster h
  let to_ := s.maskBit j
  let s := s.setCluster h { x with barArrived := movedBit x.barArrived bit to_, endedMask := movedBit x.endedMask bit to_ }
  let r := (s.regionOf h).getD 256
  let y := s.region r
  s.setRegion r { y with barArrived := y.barArrived.map fun k => if k = i then j else k }

/-- The takeover of R451: program, active bits and trees of core `i` go to core `j`. -/
def State.applyTakeover (s : State) (i j : Nat) (borrowed : Bool) : State :=
  let h := s.homeCluster i
  let bit := s.maskBit i
  let b := s.blend
  let p := (Smap.get? b.store i).map (movedProgram i j)
  let store := match p with
    | some q => Smap.put (Smap.del b.store i) j q
    | none => Smap.del b.store i
  let d := coreDie i
  let routes := b.routes.map fun r => if r.1 = d then (r.1, movedRoutes i j r.2) else r
  let s : State := { s with blend := { b with topo := b.topo.map (TopoEntry.took h i j), store := store, routes := routes } }
  let s := (s.blend.topo.filter fun e => decide (e.cluster / 4 = d)).foldl (fun s e => s.applyXbar s.blend.topo e) s
  let s := (List.range 64).foldl (fun s t =>
    let o := Reg.TOP_RTR_MCAST + 8 * t
    s.poke .topDie d o (BitVec.ofNat 64 (movedTree i j (s.peek .topDie d o).toNat))) s
  let s := s.setCore j ((s.core j).loaded p)
  let s := s.setCore i { s.core i with hasProg := false }
  let s := s.moveMarks h bit i j
  let s := ((s.add .cfgMod 0 Reg.CFG_TAKEOVERS 1).raise .cfgMod 0 Reg.CFG_EVENT 4).rbit .cfgMod 0 Reg.CFG_STATUS 1 true
  let s := s.poke .topMod 0 Reg.TOP_TAKEOVER (mkWord [(s.job.step % 2 ^ 32, 32), (b2n borrowed, 30), (j, 16), (i, 0)])
  (s.raise .topMod 0 Reg.TOP_FAULT_EVENT 2).checkSpares

/-! ## The state that moves -/

/-- Copy the tile store and the wide gradient buffer of core `i` into core `j`, every word read once; `tile` and `wgb`: words corrected
on the way. -/
def State.copyStores (s : State) (i j : Nat) (tile : List Nat) (wgb : Nat) : State :=
  let s := (s.tsReads i 2097152 tile false).wgbReads i 262144 wgb false
  let mine := s.mem.filter fun e => inTiles [i] e.1
  let rest := s.mem.filter fun e => !inTiles [j] e.1
  let s : State := { s with mem := mine.foldl (fun m e => Smap.set 0 m (movedAddr i j e.1) e.2) rest }
  s.setCore j { s.core j with wgb := (s.core i).wgb }

/-- An instruction as the spare re-issues it (R488): an engine instruction from its first tile not released, a vector instruction
from its first group not written, a DMA transfer from its start, a stream instruction as it stands. -/
def State.restart (s : State) (q : Nat) (e : QEntry) : QEntry :=
  let chain (n : Nat) : QEntry := { e with item := e.item - n, acc := [], aux := 0, replaying := false, ahead := .none }
  match q with
  | 0 =>
    match Op.ofCode (iOpcode e.word) with
    | some .mm | some .mmw | some .mmrs => match s.tensorAt e.d 1 with
      | some a => chain (e.item % passesOf a.cols (kpassOf e.word))
      | none => chain 0
    | some .sdwrs => match s.tensorAt e.d 1 with
      | some x => chain (e.item % passesOf x.rows 4096)
      | none => chain 0
    | some .pred => match s.tensorAt e.d 1, s.tensorAt e.d 2, s.tensorAt e.d 3 with
      | some x, some u, some v =>
        let np := passesOf x.cols 4096
        let first := u.cols / 32 * np
        let k := e.item % (first + (v.cols + 31) / 32)
        chain (if k < first then k % np else 0)
      | _, _, _ => chain 0
    | _ => chain 0
  | 1 => { e with aux := 0, replaying := false }
  | 2 => { e with item := 0, aux := 0 }
  | _ => e

/-- What the Infusers and the Sip path hold for instructions of core `i` is for core `j`, under their new numbers. -/
def State.renameWork (s : State) (i j : Nat) (f : Nat → Nat) : State :=
  let req (q : InfReq) : InfReq := if q.core = i then { q with core := j, seq := f q.seq } else q
  let chunk (c : InfChunk) : InfChunk := if c.core = i then { c with core := j, seq := f c.seq } else c
  let pub (w : Wpub) : Wpub := if w.core = i then { w with core := j, seq := f w.seq } else w
  let wait (w : SipWait) : SipWait := match w.core with
    | some (c, n) => if c = i then { w with core := some (j, f n) } else w
    | none => w
  let slot (h : Nat × Nat × Nat × Nat) : Nat × Nat × Nat × Nat := if h.2.2.1 = i then (h.1, h.2.1, j, f h.2.2.2) else h
  { s with
    cores := s.cores.map fun e => (e.1, { e.2 with ringHeld := e.2.ringHeld.map slot })
    wts := { s.wts with
      infs := s.wts.infs.map fun e =>
        (e.1, { e.2 with waiting := e.2.waiting.map req, reqs := e.2.reqs.map req, chunks := e.2.chunks.map chunk })
      pubs := s.wts.pubs.map pub }
    coll := { s.coll with sipWaits := s.coll.sipWaits.map wait } }

/-- Core `j` receives in the place of core `i`, from the ring state that one had (R260). -/
def State.moveReceiver (s : State) (i j : Nat) : State :=
  let req (q : InfReq) : InfReq := match Smap.get? q.released i with
    | some n => { q with released := Smap.put (Smap.del q.released i) j n }
    | none => q
  let held := (s.core i).ringHeld
  let s : State := { s with wts := { s.wts with
    infs := s.wts.infs.map fun e => (e.1, { e.2 with waiting := e.2.waiting.map req, reqs := e.2.reqs.map req }) } }
  let s := s.setCore i { s.core i with ringHeld := [] }
  s.setCore j { s.core j with ringHeld := (s.core j).ringHeld ++ held }

/-- The captured state of core `i`, on core `j`: it waits at a barrier, or goes on. Instructions under way are re-issued in their
order, each taking a new number. -/
def State.resumeOn (s : State) (i j : Nat) : State :=
  let c := s.core i
  let seqs := c.queues.flatMap fun q => q.map (·.seq)
  let base := s.instrs j
  let f (n : Nat) : Nat := if seqs.contains n then base + (seqs.filter fun m => decide (m ≤ n)).length else n
  let again (q : Nat) (e : QEntry) : QEntry :=
    let e := s.restart q e
    { e with d := e.d.map (movedDesc i j), seq := f e.seq }
  let queues := c.queues.zipIdx.map fun x => x.1.map (again x.2)
  let s := (s.renameWork i j f).bump .seqCore j Reg.SEQ_INSTRS seqs.length
  let s := s.bump .vecCore j Reg.VEC_INSTRS (nth [] c.queues 1).length
  let atBar := decide (c.waits = .barrier)
  let s := s.setCore j { s.core j with
    queues := queues, tok := c.tok, lc := c.lc, pc := c.pc, work := c.work.map fun e => (e.1, movedDesc i j e.2)
    srCounter := c.srCounter, ending := c.ending, batches := c.batches
    st := if atBar then .waiting else .running, waits := if atBar then .barrier else .none }
  let h := s.homeCluster j
  let x := s.cluster h
  let y := s.region ((s.regionOf h).getD 256)
  let stands := if iFunc c.word = 0 then x.barOpen && x.barArrived.testBit (s.maskBit j) else y.barOpen && y.barArrived.contains j
  let s := if atBar ∧ ¬ stands then s.passBarrier j else s
  s.settle j

/-- Signals that waited for the fenced core go to its spare (R489). -/
def State.releaseHeld (s : State) (i j : Nat) : State :=
  (List.range 4).foldl (fun s k =>
    let c := 4 * coreDie i + k
    let gs := (s.cluster c).held
    let mine := gs.filter fun g => decide (g.target = i)
    if mine.isEmpty then s
    else mine.foldl (fun s g => s.signalAt g j) (s.setCluster c { s.cluster c with held := gs.filter fun g => !decide (g.target = i) })) s

/-- The fenced core has given up its place: what is addressed to it goes to the spare from now on. -/
def State.tookOver (s : State) (i j : Nat) : State :=
  let c := (s.core i).withoutProgram
  let s := s.setCore i { c with
    queues := [[], [], [], []], wgb := [], lc := List.replicate 4 0, st := .idle, waits := .none, ending := false, batches := []
    movedTo := some j }
  s.releaseHeld i j

/-! ## The commands -/

/-- A takeover of a core of the same cluster is under way: another waits for it (R490). -/
def State.takeoverRuns (s : State) (i : Nat) : Bool :=
  s.takeovers.any fun t => decide (s.homeCluster t.spare = s.homeCluster i)

/-- A migration was not made, or has failed (R487). -/
def State.migrationLost (s : State) : State := (s.add .topMod 0 Reg.TOP_MIGRATION_FAILS 1).raise .topMod 0 Reg.TOP_FAULT_EVENT 3

/-- The takeover of a core whose work in the step is over, or of a step that is (R490): nothing of it moves but its program. -/
def State.takeoverOnly (s : State) (i j : Nat) (borrowed : Bool) : State :=
  let c := s.core i
  let s := s.applyTakeover i j borrowed
  let s := if s.job.st = .running ∧ c.st = .ended then
      s.setCore j { s.core j with st := .ended, ending := true, batches := c.batches }
    else s
  (s.moveReceiver i j).tookOver i j

/-- SPARE_TAKEOVER (R485, R487, R490): by the cluster's own spare, or a borrowed one. Without a spare the failure is NO_SPARE. -/
def execSpareTakeover (core : Nat) (o : CopyOutcome) (s : State) : Next :=
  .next (
    let c := s.core core
    if ¬ isCore core ∨ ¬ c.fenced ∨ ¬ c.hasProg ∨ s.takeoverRuns core then s
    else match s.spareFor (s.homeCluster core) with
    | none => if s.health = 2 ∧ s.rfield .topMod 0 Reg.TOP_HEALTH 27 24 = 3 then s
      else (s.failHealth 3).stepFail csNoSpare lvOperator .checkFail core
    | some (j, borrowed) =>
      if c.noMigrate then s.migrationLost.takeoverOnly core j borrowed
      else if ¬ s.coreBusy core then s.takeoverOnly core j borrowed
      else match o with
        | .decoded tile wgb =>
          let s := (s.copyStores core j tile wgb).applyTakeover core j borrowed
          { s with takeovers := s.takeovers ++ [{ core := core, spare := j }] }
        | .undecoded =>
          let s := (s.tsReads core 2097152 [] true).migrationLost
          (s.stepFail csStore lvRollback .dataErr core).takeoverOnly core j borrowed
        | .noAnswer => (s.migrationLost.stepFail csTile lvRollback .checkFail core).takeoverOnly core j borrowed)

/-- A migration ends (R488, R490): the spare takes up the captured state, or fails and is fenced in its turn. -/
def State.migrated (s : State) (core : Nat) (ok : Bool) : State :=
  match s.takeovers.find? fun t => decide (t.core = core) with
  | none => s
  | some t =>
    let s : State := { s with takeovers := s.takeovers.filter fun x => !decide (x.core = core) }
    let j := t.spare
    if ok then
      let live := decide (s.job.st = .running)
      let s := s.moveReceiver core j
      let s := if live then (s.resumeOn core j).rmax .topMod 0 Reg.TOP_MIGRATE_MAX (s.now - (s.core core).fencedAt) else s
      let s := (s.add .topMod 0 Reg.TOP_MIGRATIONS 1).rbit .topMod 0 Reg.TOP_TAKEOVER 31 true
      s.tookOver core j
    else
      let s := ((s.moveReceiver core j).tookOver core j).migrationLost
      let s := s.fenceCore j csTile
      if s.job.st = .running then s.stepFail csTile lvRollback .checkFail j else s

end Sys2Proof.Machine
end

