-- ==== Sys2Proof/Machine/RegWrite.lean ====
section
/-! DEFINITION. Writes of registers (R7 to R10, R613): events cleared, controls set, and the registers whose write starts an action:
sealing and firmware (R543 to R547), the generator's seed and counters (R84), armed flips (R385), region release (R506). -/

namespace Sys2Proof.Machine

/-! ## Security (R543 to R547, R553, R554) -/

/-- The owner key hash in SEC_OWNER0–3. -/
def State.ownerHash (s : State) : Nat := ofLe (s.hashReg .secMod Reg.SEC_OWNER)

/-- A write of SEC_SEAL. `same`: the fuses read back and voted equal to the hash. -/
def State.wrSeal (s : State) (v : Word) (same : Bool) : Status × State :=
  if ¬ flag v 63 then (.ok, s)
  else if fld v 31 0 ≠ 0x5345414C ∨ s.ownerHash = 0 then (.malformed, s)
  else if s.fuse.owner.isSome ∨ s.topState ≠ stReady ∨ s.job.isOpen then (.denied, s)
  else if same then
    (.ok, ({ s with fuse := { s.fuse with owner := some (BitVec.ofNat 256 s.ownerHash) } } : State).raise .secMod 0 Reg.SEC_EVENT 0)
  else (.checkFail, s.failHealth 0)

/-- A firmware header holds (R545). -/
def fwHeaderOk (h : List Byte) : Bool :=
  let n := leAt h 0x0C 4
  decide (leAt h 0 4 = 0x57465743 ∧ leAt h 4 1 = 1 ∧ leAt h 5 1 = 1 ∧ leAt h 6 1 ≤ 63 ∧ leAt h 7 1 = 0) &&
    decide (4096 ≤ n ∧ n ≤ 16777216) && allZero ((h.drop 0x10).take 48)

/-- The context of a firmware signature, ASCII "CW1-FW". -/
def fwContext : List Byte := [0x43, 0x57, 0x31, 0x2D, 0x46, 0x57]

/-- The status of a firmware command stands in SEC_FW_STATUS. -/
def State.fwDone (r : Status × State) : Status × State := (r.1, r.2.rset .secMod 0 Reg.SEC_FW_STATUS 35 32 r.1.code)

/-- A slot of module flash. -/
def State.putSlot (s : State) (k : Nat) (x : FwSlot) : State := { s with flash := { s.flash with fw := setNth s.flash.fw k x } }

/-- The firmware slot that is running. -/
def State.fwRunning (s : State) : FwSlot := nth { valid := false, version := 0, epoch := 0, digest := 0 } s.flash.fw s.sec.slot

/-- A firmware update from the image at `addr` (R546). `same`: the slot read back as written. -/
def State.fwWrite (s : State) (addr : Nat) (same : Bool) : Status × State :=
  let st := s.topState
  if ¬ (st = stBringup ∨ st = stReady ∨ st = stRunning ∨ st = stDraining ∨ st = stWarm) then (.denied, s)
  else if addr % 4096 ≠ 0 then (.malformed, s)
  else
    let h := s.memRead addr 64
    if h.1 ≠ .ok then (h.1, h.2.2)
    else if ¬ fwHeaderOk h.2.1 then (.malformed, h.2.2)
    else
      let n := leAt h.2.1 0x0C 4
      let epoch := leAt h.2.1 6 1
      let s := h.2.2.rset .secMod 0 Reg.SEC_FW_STATUS 31 0 (leAt h.2.1 8 4)
      let r := s.memRead addr n
      if r.1 ≠ .ok then (r.1, r.2.2)
      else
        let digest := shake256 (r.2.1.take (n - 3309))
        let good := Config.mldsaVerify Config.firmwareKey fwContext (hashBytes digest) (r.2.1.drop (n - 3309))
        let s := r.2.2.verified good
        if ¬ good ∨ epoch < s.fuse.epoch then (.denied, s)
        else
          let x : FwSlot := { valid := same, version := leAt h.2.1 8 4, epoch := epoch, digest := digest }
          let s := s.putSlot (1 - s.sec.slot) x
          if same then (.ok, s.raise .secMod 0 Reg.SEC_EVENT 1) else (.checkFail, s)

/-- The fused epoch rises to the running image's (R547). -/
def State.fwRaise (s : State) (addr : Nat) : Status × State :=
  if addr ≠ 0 then (.malformed, s)
  else if s.fwRunning.epoch ≤ s.fuse.epoch then (.denied, s)
  else (.ok, ({ s with fuse := { s.fuse with epoch := s.fwRunning.epoch } } : State).raise .secMod 0 Reg.SEC_EVENT 2)

/-- A write of SEC_FW_CMD. -/
def State.wrFwCmd (s : State) (v : Word) (same : Bool) : Status × State :=
  if ¬ flag v 63 then (.ok, s)
  else match fld v 62 60 with
    | 1 => State.fwDone (s.fwWrite (fld v 48 0) same)
    | 2 => State.fwDone (s.fwRaise (fld v 48 0))
    | _ => (.malformed, s)

/-! ## Generator, flips, release, trace -/

/-- A write of ENG_SR_SEED[k] (R84): with a job open, the job's seed has those bytes from the next boundary (DEDUCED, log entry 57). -/
def State.wrSeed (s : State) (k : Nat) (v : Word) : Status × State :=
  if s.topState = stRunning then (.denied, s)
  else
    let s := s.poke .engMod 0 (Reg.ENG_SR_SEED + 8 * k) v
    (.ok, if ¬ s.job.isOpen then s else
      let seed := padTo 32 s.job.seed
      { s with job := { s.job with seed := seed.take (8 * k) ++ leBytes 8 v.toNat ++ seed.drop (8 * k + 8) } })

/-- A write of a core's ENG_SR_COUNTER (R84, R92). -/
def State.wrCounter (s : State) (i : Nat) (v : Word) : Status × State :=
  let drained : Bool := match s.coreRegion i with
    | some r => (s.region r).drained
    | none => false
  if ¬ drained then (.busy, s) else (.ok, s.setCore i { s.core i with srCounter := fld v 49 0 })

/-- A write of MEM_FLIP_MASK of a stack (R385). -/
def State.wrFlip (s : State) (n : Nat) (v : Word) : Status × State :=
  let empty := decide (fld v 39 32 = 0) || !flag v 62 && (decide (fld v 27 24 = 0) || decide (fld v 17 0 = 0))
  if flag v 63 ∧ empty ∨ fld v 61 60 = 3 then (.malformed, s)
  else if s.topState = stRunning then (.denied, s)
  else (.ok, s.poke .memDie n Reg.MEM_FLIP_MASK (v &&& 0xF00000FF0F03FFFF))

/-- A write of TOP_REGION_RELEASE (R506). -/
def State.wrRelease (s : State) (v : Word) : Status × State :=
  let r := fld v 15 0
  if ¬ flag v 63 then (.ok, s)
  else if ¬ s.blend.regions.any fun e => decide (e.1 = r) then (.malformed, s)
  else if ¬ (s.region r).drained then (.denied, s)
  else (.ok, s.setRegion r { s.region r with released := true })

/-- The trace lanes run while they are enabled and clocked (R595, R596, R604). -/
def State.showTrace (s : State) : State :=
  s.rbit .trcMod 0 Reg.TRC_STATUS 0 (s.rflag .trcMod 0 Reg.TRC_CTRL 16 && s.tim.refclk && s.powered)

/-! ## Writes by address -/

/-- The registers written through their control checks. -/
def isCtrl (b : RBlk) (o : Nat) : Bool :=
  match b with
  | .hifMod => decide (o = Reg.HIF_CTRL)
  | .topMod => decide (o = Reg.TOP_FAULT_CTRL)
  | .seqMod => decide (o = Reg.SEQ_CTRL)
  | .engMod => decide (o = Reg.ENG_CTRL ∨ o = Reg.ENG_TAU)
  | .govMod => decide (o = Reg.GOV_CTRL)
  | .infMod => decide (o = Reg.INF_CTRL)
  | .samMod => decide (o = Reg.SAM_CTRL)
  | .sipMod => decide (o = Reg.SIP_CTRL)
  | .lnkMod => decide (o = Reg.LNK_CTRL)
  | .memMod => decide (o = Reg.MEM_CTRL)
  | .scrMod => decide (o = Reg.SCR_CTRL)
  | .ckpMod => decide (o = Reg.CKP_CTRL)
  | .ktlMod => decide (o = Reg.KTL_CTRL)
  | .mgtMod => decide (o = Reg.MGT_CTRL)
  | _ => false

/-- The actions: registers whose write does more than store. `w`: the register's full value under the write, in which the half
that a 4-byte write does not reach keeps its value (R613). None for the rest. -/
def State.wrAction (s : State) (b : RBlk) (i o : Nat) (w : Word) : Option (Status × State) :=
  match b with
  | .topMod => if o = Reg.TOP_REGION_RELEASE then some (s.wrRelease w) else none
  | .engMod => if Reg.ENG_SR_SEED ≤ o ∧ o < Reg.ENG_SR_SEED + 32 then some (s.wrSeed ((o - Reg.ENG_SR_SEED) / 8) w) else none
  | .engCore => if o = Reg.ENG_SR_COUNTER then some (s.wrCounter i w) else none
  | .infMod => if o = Reg.INF_STAGE then some (s.wrStage w) else none
  | .samMod => if o = Reg.SAM_GRP_CMD then some (s.wrGrpCmd w) else none
  | .lnkPort => if o = Reg.LNK_PORT_CMD then some (s.wrPortCmd i w) else if o = Reg.LNK_TEST then some (s.wrLnkTest i w) else none
  | .memDie => if o = Reg.MEM_FLIP_MASK then some (s.wrFlip i w) else none
  | .ckpMod => if o = Reg.CKP_HANDOVER then some (s.wrHandover w) else none
  | .secMod => if o = Reg.SEC_SEAL then some (s.wrSeal w true) else if o = Reg.SEC_FW_CMD then some (s.wrFwCmd w true) else none
  | _ => none

/-- Whether a register latches events. -/
def RegDef.latches (r : RegDef) : Bool := r.fields.any fun f => decide (f.acc = .rw1c)

/-- Clear the events of `v` under mask `m` (R7, R35): at a module-level register that shows its blocks' events, in all of them. -/
def State.clearEvents (s : State) (b : RBlk) (i o : Nat) (r : RegDef) (v m : Word) : State :=
  let c := v &&& m &&& r.maskOf fun a => decide (a = .rw1c)
  match eventOffset b with
  | some (b', eo) => if o = eo then s.eventClear b' eo c else s.poke b i o (s.peek b i o &&& ~~~c)
  | none => s.poke b i o (s.peek b i o &&& ~~~c)

/-- The value of a register with the bits of mask `m` taken from `v` (R613). -/
def State.merged (s : State) (b : RBlk) (i o : Nat) (v m : Word) : Word := (s.peek b i o &&& ~~~m) ||| (v &&& m)

/-- A register write of `width` bytes at offset `o` of block `b`, index `i`. A block that does not serve the access answers by
the order of R13. -/
def State.regWrite (s : State) (b : RBlk) (i o width : Nat) (v : Word) : Status × State :=
  let t := regTarget b o width v
  let gate := s.blockGate b i
  if t.1 ≠ .ok then (t.1, s)
  else if gate ≠ .ok then
    (match s.wrAction b i t.2.2.1 (s.merged b i t.2.2.1 t.2.2.2.1 t.2.2.2.2) with
    | some x => x.1.join gate
    | none => gate, s)
  else
    let r := t.2.1
    let o := t.2.2.1
    let v := t.2.2.2.1
    let m := t.2.2.2.2
    if r.latches then (.ok, s.clearEvents b i o r v m)
    else if isCtrl b o then
      let x := s.wrCtrl b r v m
      (x.1, if b = .topMod ∧ x.1 = .ok then x.2.checkSpares else x.2)
    else match s.wrAction b i o (s.merged b i o v m) with
    | some x => x
    | none =>
      let locked := r.maskOf fun a => decide (a = .rwl)
      if s.fuse.owner.isSome ∧ locked &&& m ≠ 0 then (.denied, s)
      else
        let s := s.poke b i o (r.written (s.peek b i o) v m)
        (.ok, if b = .trcMod then s.showTrace else s)

/-- A write of `n` bytes to registers: a single access of 4 or 8 bytes (R34). -/
def State.regBytes (s : State) (b : RBlk) (i o : Nat) (bs : List Byte) : Status × State :=
  s.regWrite b i o bs.length (BitVec.ofNat 64 (ofLe bs))

/-! ## The rows -/

/-- A row that writes one register, 8 bytes wide. -/
def State.regRow (s : State) (b : RBlk) (i o : Nat) (v : Word) : State :=
  let r := s.regWrite b i o 8 v
  (r.2.answer r.1).settleStreams

/-- ENG_TAU_WRITE (R84, R88). -/
def execEngTauWrite (_ : Writer) (v : Word) (s : State) : Next := .next (s.regRow .engMod 0 Reg.ENG_TAU v)

/-- ENG_SR_SEED_WRITE (R84). -/
def execEngSrSeedWrite (_ : Writer) (i : Nat) (v : Word) (s : State) : Next :=
  .next (if 4 ≤ i then s else s.regRow .engMod 0 (Reg.ENG_SR_SEED + 8 * i) v)

/-- ENG_SR_COUNTER_WRITE (R84, R92). -/
def execEngSrCounterWrite (_ : Writer) (core : Nat) (v : Word) (s : State) : Next :=
  .next (if isCore core then s.regRow .engCore core Reg.ENG_SR_COUNTER v else s)

/-- TIM_CTRL_WRITE (R593): it takes effect at the next Announce. -/
def execTimCtrlWrite (_ : Writer) (v : Word) (s : State) : Next := .next (s.regRow .timMod 0 Reg.TIM_CTRL v)

/-- TOP_REGION_RELEASE (R506). -/
def execTopRegionRelease (_ : Writer) (v : Word) (s : State) : Next := .next (s.regRow .topMod 0 Reg.TOP_REGION_RELEASE v)

/-- MEM_FLIP_ARM (R385): a write of MEM_FLIP_MASK with arm 1. -/
def execMemFlipArm (stack : Nat) (v : Word) (s : State) : Next :=
  .next (if 64 ≤ stack ∨ ¬ flag v 63 then s else s.regRow .memDie stack Reg.MEM_FLIP_MASK v)

/-- MEM_FLIP_CANCEL (R385): a write of MEM_FLIP_MASK with arm 0. -/
def execMemFlipCancel (stack : Nat) (v : Word) (s : State) : Next :=
  .next (if 64 ≤ stack ∨ flag v 63 then s else s.regRow .memDie stack Reg.MEM_FLIP_MASK v)

/-- SEC_SEAL (R543). -/
def execSecSeal (_ : Writer) (v : Word) (same : Bool) (s : State) : Next :=
  .next (let r := s.wrSeal v same; r.2.answer r.1)

/-- FW_UPDATE (R546): SEC_FW_CMD with cmd 1. -/
def execFwUpdate (_ : Writer) (v : Word) (same : Bool) (s : State) : Next :=
  .next (if fld v 62 60 ≠ 1 then s else let r := s.wrFwCmd v same; r.2.answer r.1)

/-- FW_EPOCH_RAISE (R547): SEC_FW_CMD with cmd 2. -/
def execFwEpochRaise (_ : Writer) (v : Word) (s : State) : Next :=
  .next (if fld v 62 60 ≠ 2 then s else let r := s.wrFwCmd v true; r.2.answer r.1)

/-- EVENT_REGISTER_CLEAR (R9): a write of an EVENT register. -/
def execEventRegisterClear (_ : Writer) (addr : Nat) (v : Word) (s : State) : Next :=
  .next (match regSite addr with
  | none => s
  | some (b, i, o) => if (findReg b o).any RegDef.latches then s.regRow b i o v else s)

/-- REGISTER_WRITE (R7, R34, R613). Counter space is no register and takes no write (R34, R586). -/
def execRegisterWrite (_ : Writer) (addr width : Nat) (v : Word) (s : State) : Next :=
  .next (match regSite addr with
  | none => s.answer (if spaceOf addr = .counter then .denied else .malformed)
  | some (b, i, o) =>
    let r := s.regWrite b i o width v
    (r.2.answer r.1).settleStreams)

end Sys2Proof.Machine
end

