-- ==== Sys2Proof/Machine/HostCmds.lean ====
section
/-! DEFINITION. The host interface (R405 to R419): the checks of an arriving message, reads and writes, the command queues, and what
each command does when it starts. -/

namespace Sys2Proof.Machine

/-! ## The checks of R408 -/

/-- The code of a CMD (R405). -/
def cmdCode (m : HostMsg) : Nat := fld m.arg 7 0

/-- The head or length of a message is not as R405 and R406 lay down, or its type or command code is reserved (R12). -/
def msgBad (m : HostMsg) : Bool :=
  m.rsvd || m.truncated || decide (1024 ≤ m.tag) || (!decide (m.type = 3) && !decide (m.queue = 0)) || match m.type with
  | 1 => decide (m.length = 0 ∨ 256 < m.length) || !decide (fld m.arg 63 49 = 0) || !m.payload.isEmpty
  | 2 => decide (m.length = 0 ∨ 256 < m.length) || !decide (fld m.arg 63 49 = 0) || !decide (m.payload.length = m.length)
  | 3 => decide (m.length < 8 ∨ 64 < m.length) || !decide (fld m.arg 63 8 = 0) || !decide (m.payload.length = m.length) ||
      decide (16 ≤ m.queue) || decide (cmdCode m = 0 ∨ cAttest < cmdCode m)
  | 4 => !decide (m.length = 0) || !m.payload.isEmpty || !decide (m.tag = 0) || !decide (fld m.arg 63 32 = 0)
  | _ => true

/-- A message that carries a host tag (R405). -/
def msgTagged (m : HostMsg) : Bool := decide (1 ≤ m.type ∧ m.type ≤ 3)

/-- Row 1 of R408. The CPL of a message that was never carried out leaves other tags alone. -/
def State.refuseMsg (s : State) (m : HostMsg) : State :=
  let s := s.add .hifMod 0 Reg.HIF_MALFORMED 1
  if msgTagged m then s.send (.cpl (m.tag % 1024) .malformed []) else s

/-- A message arrives (R408): `f` carries it out. -/
def State.hostArrive (s : State) (m : HostMsg) (f : State → State) : State :=
  if ¬ s.host.linkUp then s
  else if msgBad m then s.refuseMsg m
  else if msgTagged m ∧ s.host.tags.contains m.tag then (s.add .hifMod 0 Reg.HIF_TAG_DUP 1).raise .hifMod 0 Reg.HIF_EVENT 1
  else f s

/-! ## Reads and writes -/

/-- What the host reaches: in SAFE stack 0 (R473), otherwise what the mesh leads to from die 0 (R35, R112). -/
def State.hostReach (s : State) (a : Nat) : Bool :=
  if s.topState ≠ stSafe then s.reaches 0 (spaceDie a)
  else match spaceOf a with
  | .bonded => decide (stackOf a = 0)
  | .critical => decide (critStack a = 0)
  | _ => false

/-- An access crosses a 256-byte boundary (R407), or has a width its target does not take (R34, R383). -/
def accessBad (a n : Nat) : Bool :=
  decide (256 < a % 256 + n) || match spaceOf a with
  | .critical => !decide (n = 8 ∧ a % 8 = 0)
  | .reg .. => !decide (n = 4 ∨ n = 8) || !decide (a % n = 0)
  | _ => false

/-- A host read (R407). `o`: what the words read of a tile store hold in error. -/
def State.hostRead (s : State) (a n : Nat) (o : StoreObs) : Status × List Byte × State :=
  if accessBad a n then (.malformed, [], s)
  else
    let r := s.busRead a n o
    if s.hostReach a then r else (r.1.join .unavailable, [], s)

/-- A host write (R407, R384): what a DMA transfer may write, and registers. `o`: what the words that a narrow write reads hold in
error. -/
def State.hostWrite (s : State) (a : Nat) (bs : List Byte) (o : StoreObs) : Status × State :=
  if accessBad a bs.length then (.malformed, s)
  else
    let r := match spaceOf a with
      | .reg b i o =>
        let r := s.regBytes b i o bs
        (r.1, r.2.settleStreams)
      | _ => s.dmaWrite a bs o
    if s.hostReach a then r else (r.1.join .unavailable, s)

/-- MRD (R407). -/
def execMrd (x : HostAccess) (s : State) : Next :=
  let m := x.msg
  .next (if m.type ≠ 1 then s else s.hostArrive m fun s =>
    let r := s.hostRead (fld m.arg 48 0) m.length x.obs
    ((r.2.2.add .hifMod 0 Reg.HIF_FLIT_RETRIES x.retries).add .hifMod 0 Reg.HIF_MRD 1).sendCpl m.tag r.1 r.2.1)

/-- MWR (R407). -/
def execMwr (x : HostAccess) (s : State) : Next :=
  let m := x.msg
  .next (if m.type ≠ 2 then s else s.hostArrive m fun s =>
    let r := s.hostWrite (fld m.arg 48 0) m.payload x.obs
    ((r.2.add .hifMod 0 Reg.HIF_FLIT_RETRIES x.retries).add .hifMod 0 Reg.HIF_MWR 1).sendCpl m.tag r.1 [])

/-- EACK (R415). -/
def execEack (m : HostMsg) (s : State) : Next :=
  .next (if m.type ≠ 4 then s else s.hostArrive m fun s => s.ackEvents (fld m.arg 31 0))

/-- RESERVED_HOST_MESSAGE (R12, R408): a reserved type, or a CMD with a reserved code. -/
def execReservedHostMessage (m : HostMsg) (s : State) : Next :=
  .next (if (1 ≤ m.type ∧ m.type ≤ 4) ∧ ¬ (m.type = 3 ∧ (cmdCode m = 0 ∨ cAttest < cmdCode m)) then s else s.hostArrive m fun s => s)

/-! ## What a command does when it starts (R413, R414)

Each answers its status and payload, or none while it runs on. -/

/-- What the start of a command answers. -/
abbrev Started := Option (Status × List Byte) × State

/-- Commands of queues other than `q` that run and satisfy `f`. -/
def State.othersRun (s : State) (q : Nat) (f : Cmd → Bool) : Bool := (s.queuesRunning f).any fun k => !decide (k = q)

/-- The region that the body of a region command names. -/
def Cmd.region (c : Cmd) : Nat := leAt c.body 0 2

def State.knownRegion (s : State) (r : Nat) : Bool := s.blend.regions.any fun e => decide (e.1 = r)

/-- A full load waits for the end of bring-up, or a RESTORE runs (R414). -/
def State.loadBusy (s : State) : Bool := s.top.blendWaiting.isSome || s.ckp.restore.isSome

/-- JOB_OPEN (R203, R413): job, first step, seed. -/
def State.startJobOpen (s : State) (_ : Nat) (c : Cmd) : Started :=
  let id := leAt c.body 0 2
  let f := leAt c.body 8 8
  if s.mgt.manager.isNone ∨ s.job.isOpen ∨ ¬ s.rflag .cfgMod 0 Reg.CFG_STATUS 4 ∨ id = 0 ∨ id ≠ s.blend.job then
    (some (.denied, []), s)
  else if s.loadBusy then (some (.busy, []), s)
  else (some (.ok, []), s.openJob f ((c.body.drop 16).take 32))

/-- STEP_DATA (R413): held for the step at hand, if it has not started, and for two steps beyond one that has. -/
def State.startStepData (s : State) (_ : Nat) (c : Cmd) : Started :=
  let n := leAt c.body 0 8
  let pos := leAt c.body 8 8
  let j := s.job
  let started := decide (j.st = .running ∨ j.st = .stopped)
  let first := if started then j.step + 1 else j.step
  if ¬ j.isOpen ∨ n < first then (some (.denied, []), s)
  else if first + 1 < n then (some (.busy, []), s)
  else (some (.ok, []), { s with job := { j with data := (j.data.filter fun d => !decide (d.1 = n)) ++ [(n, pos)] } })

/-- BLEND_LOAD (R413, R414, R448, R450). -/
def State.startBlendLoad (s : State) (q : Nat) (c : Cmd) : Started :=
  let addr := leAt c.body 0 8
  let len := leAt c.body 8 4
  let partial_ := decide (leAt c.body 12 4 = 1)
  if ¬ partial_ ∧ s.job.isOpen then (some (.denied, []), s)
  else if s.loadBusy then (some (.busy, []), s)
  else if partial_ then
    let r := s.partialLoad addr len
    (some (r.1, []), r.2)
  else if s.topState = stBringup then
    let r := s.earlyLoad q addr len
    (r.1.map fun st => (st, []), r.2)
  else if s.othersRun q fun x => decide (x.code = cRegionDrain ∨ x.code = cRegionReset ∨ x.code = cSelfTest) then (some (.busy, []), s)
  else
    let r := s.fullLoad addr len
    (some (r.1, []), r.2)

/-- A command that runs on the region already. -/
def State.regionTaken (s : State) (q r : Nat) : Bool :=
  s.othersRun q fun x => decide ((x.code = cRegionDrain ∨ x.code = cRegionReset ∨ x.code = cSelfTest) ∧ x.region = r)

/-- REGION_DRAIN (R491): issue stops; the drain completes by REGION_DRAIN_COMPLETE. -/
def State.startDrain (s : State) (q : Nat) (c : Cmd) : Started :=
  let r := c.region
  if s.regionTaken q r then (some (.busy, []), s)
  else if (s.region r).drained then (some (.ok, []), s)
  else
    let busy := s.regionBusy r
    let s := s.setRegion r { s.region r with draining := true }
    let s := (s.regionCores r).foldl State.stopCore s
    (none, if busy then s.stepFail csDrain lvRollback .unavailable r else s)

/-- Commands on a region that wait in a queue when its reset starts run after the reset (R414). -/
def State.holdQueued (s : State) (r : Nat) : State :=
  let on (c : Cmd) : Bool := decide ((c.code = cRegionDrain ∨ c.code = cRegionReset ∨ c.code = cSelfTest) ∧ c.region = r)
  { s with host := { s.host with queues := s.host.queues.map fun x =>
      { x with waiting := x.waiting.map fun c => if on c then { c with prog := 1 } else c } } }

/-- Regions whose clusters have all been tested come up, and their REGION_RESETs complete. -/
def State.endResets (s : State) : State :=
  s.resetsDone.foldl (fun s r =>
    let qs := s.queuesRunning fun c => decide (c.code = cRegionReset ∧ c.region = r)
    (s.finishReset r).finishCmds qs .ok) s

/-- REGION_RESET (R470). -/
def State.startRegionReset (s : State) (q : Nat) (c : Cmd) : Started :=
  let r := c.region
  if s.regionTaken q r ∨ (s.region r).resetting then (some (.busy, []), s)
  else (none, (((s.startReset r).settleOrder).holdQueued r).endResets)

/-- SELF_TEST (R495): the tests end by CORE_TEST_DONE. -/
def State.startSelfTest (s : State) (q : Nat) (c : Cmd) : Started :=
  let r := c.region
  if ¬ (s.region r).drained ∨ s.regionTaken q r then (some (.busy, []), s)
  else
    let x := s.cmdq q
    (none, s.setCmdq q { x with running := x.running.map fun y => { y with data := [s.now] } })

/-- CHECKPOINT (R523): flags bit 0 stops the job. -/
def State.startCheckpoint (s : State) (q : Nat) (c : Cmd) : Started :=
  if ¬ s.job.isOpen then (some (.denied, []), s)
  else (none, s.askCkp [q] false (decide (leAt c.body 0 8 = 1)))

/-- RESTORE (R528, R529): flags bit 0 a dry run, bit 1 another module's identity is allowed. -/
def State.startRestore (s : State) (q : Nat) (c : Cmd) : Started :=
  let flags := leAt c.body 8 8
  if s.job.isOpen ∨ s.blend.job = 0 then (some (.denied, []), s)
  else if s.loadBusy ∨ s.ckp.write.isSome then (some (.busy, []), s)
  else (none, s.beginRestore q (leAt c.body 0 8) (decide (flags % 2 = 1)) (decide (2 ≤ flags)))

/-- A record that cannot be signed (R61): no later record is signed either. -/
def RingSlot.dead (r : RingSlot) : Bool := !r.signed && decide (2 ≤ r.tries)

/-- Every record that has been cut has been delivered, or never will be. -/
def State.recordsOut (s : State) : Bool :=
  (s.record.slots.any RingSlot.dead) || s.record.slots.all (·.signed)

/-- A JOB_CLOSE that waits completes: no step runs, and the last record has been delivered (R413). -/
def State.settleClose (s : State) : State :=
  if s.job.closing ∧ s.job.st ≠ .running ∧ s.recordsOut then
    s.closeJob.finishCode cJobClose (if s.record.slots.any RingSlot.dead then .unavailable else .ok)
  else s

/-- JOB_CLOSE (R413): held data goes, and no further step starts. -/
def State.startJobClose (s : State) (_ : Nat) (c : Cmd) : Started :=
  if ¬ s.job.isOpen ∨ leAt c.body 0 2 ≠ s.job.id then (some (.denied, []), s)
  else (none, ({ s with job := { s.job with closing := true, data := [] } } : State).settleClose)

/-- The body of a report (R549). -/
def State.reportBody (s : State) (nonce : List Byte) : List Byte :=
  let fw := nth { valid := false, version := 0, epoch := 0, digest := 0 } s.flash.fw s.sec.slot
  let vote := s.top.boot.fuseVote
  let fz := s.fuse
  let flags := s.health + 4 * b2n fz.owner.isSome + 8 * b2n vote + 16 * b2n (s.rflag .cfgMod 0 Reg.CFG_STATUS 0)
  padTo 512 (leBytes 4 0x54544143 ++ leBytes 1 1 ++ leBytes 1 1 ++ leBytes 1 s.topState ++ leBytes 1 flags ++ padTo 32 nonce ++
    leBytes 8 s.now ++ leBytes 8 Config.serial.toNat ++ leBytes 4 fw.version ++ leBytes 4 (fz.epoch + 256 * fw.epoch) ++
    hashBytes (shake256 Config.identityKey) ++ (match fz.owner with | some h => hashBytes h | none => zeros 32) ++
    hashBytes Config.romHash ++ hashBytes fw.digest ++
    (if vote then hashBytes (Config.fuseDigest fz.bad fz.noSpare fz.erased fz.laneRx fz.laneTx fz.owner fz.epoch) else zeros 32) ++
    s.hashReg .cfgMod Reg.CFG_CHECK ++ s.hashReg .cfgMod Reg.CFG_SHAPE ++
    padTo 32 (if s.wts.active.isSome then s.wts.activeRoot else []) ++ leBytes 4 (s.wts.active.getD 0) ++
    leBytes 2 (if s.job.isOpen then s.job.id else 0) ++ zeros 2 ++ leBytes 8 s.job.step ++ leBytes 4 (s.job.recordSeq - 1) ++
    zeros 4 ++ padTo 32 s.job.lastHash ++ leBytes 4 s.sec.reports)

/-- ATTEST (R549, R473): the body is formed, and waits for its signature. In SAFE the report goes to the lowest 4 KiB of stack 0. -/
def State.startAttest (s : State) (q : Nat) (c : Cmd) : Started :=
  let safe := decide (s.topState = stSafe)
  let addr := if safe then 0 else leAt c.body 32 8
  if addr % 4096 ≠ 0 ∨ ¬ populated addr 4096 then (some (.malformed, []), s)
  else if ¬ s.top.identityOk then (some (.unavailable, []), s)
  else
    let s : State := { s with sec := { s.sec with reports := s.sec.reports + 1 } }
    let body := s.reportBody (c.body.take 32)
    (none, { s with sec := { s.sec with attests := s.sec.attests ++ [(q, body, addr)] } })

/-- The body of a command has the length of R413, and its rsvd bytes are zero. -/
def Cmd.bodyOk (c : Cmd) : Bool :=
  let b := c.body
  let n := b.length
  if c.code = cJobOpen then decide (n = 48) && decide (leAt b 2 6 = 0)
  else if c.code = cStepData then decide (n = 16)
  else if c.code = cBlendLoad then decide (n = 16) && decide (leAt b 12 4 ≤ 1)
  else if c.code = cRegionDrain ∨ c.code = cRegionReset ∨ c.code = cJobClose then decide (n = 8) && decide (leAt b 2 6 = 0)
  else if c.code = cSelfTest then decide (n = 8) && decide (leAt b 4 4 = 0)
  else if c.code = cCheckpoint then decide (n = 8)
  else if c.code = cRestore then decide (n = 16)
  else decide (n = 40)

/-- A command is no MALFORMED one: its body, a first step of 0, a region the Blend does not name, a test or a flag that is
reserved. This comes before every other condition (R13). -/
def State.cmdOk (s : State) (c : Cmd) : Bool :=
  c.bodyOk &&
  if c.code = cJobOpen then !decide (leAt c.body 8 8 = 0)
  else if c.code = cRegionDrain ∨ c.code = cRegionReset then s.knownRegion c.region
  else if c.code = cSelfTest then s.knownRegion c.region && decide (1 ≤ leAt c.body 2 2 ∧ leAt c.body 2 2 ≤ 3)
  else if c.code = cCheckpoint then decide (leAt c.body 0 8 ≤ 1)
  else if c.code = cRestore then decide (leAt c.body 8 8 ≤ 3)
  else true

/-- The module states in which R413 accepts a command. -/
def Cmd.accepted (c : Cmd) (st : Nat) : Bool :=
  if c.code = cAttest then decide (st ≠ stCold)
  else if c.code = cJobOpen ∨ c.code = cRestore then decide (st = stReady)
  else if c.code = cBlendLoad then
    if leAt c.body 12 4 = 1 then decide (st = stReady ∨ st = stRunning ∨ st = stDraining)
    else decide (st = stBringup ∨ st = stReady ∨ st = stDraining)
  else if c.code = cCheckpoint then decide (st = stRunning ∨ st = stDraining)
  else decide (st = stReady ∨ st = stRunning ∨ st = stDraining)

/-- A command starts: its body, the module's state, and what it does. An accepted command but ATTEST ends WARM_IDLE (R565). -/
def State.startCmd (s : State) (q : Nat) (c : Cmd) : Started :=
  if ¬ s.cmdOk c then (some (.malformed, []), s)
  else if c.code = cAttest then s.startAttest q c
  else if ¬ c.accepted s.workState then (some (.denied, []), s)
  else
    let s := s.leaveWarm
    if c.code = cJobOpen then s.startJobOpen q c
    else if c.code = cStepData then s.startStepData q c
    else if c.code = cBlendLoad then s.startBlendLoad q c
    else if c.code = cRegionDrain then s.startDrain q c
    else if c.code = cRegionReset then s.startRegionReset q c
    else if c.code = cSelfTest then s.startSelfTest q c
    else if c.code = cCheckpoint then s.startCheckpoint q c
    else if c.code = cRestore then s.startRestore q c
    else s.startJobClose q c

/-! ## The queues (R412) -/

/-- The head of a queue waits for a region that is being reset. -/
def State.headHeld (s : State) (c : Cmd) : Bool := decide (c.prog = 1) && (s.region c.region).resetting

/-- A queue in which a command may start. -/
def State.readyQueue (s : State) : Option Nat :=
  (List.range 16).find? fun q =>
    let x := s.cmdq q
    x.running.isNone && match x.waiting with
    | [] => false
    | c :: _ => !s.headHeld c

/-- The head of queue `q` starts; one that ends at once completes. -/
def State.runHead (s : State) (q : Nat) : State :=
  let x := s.cmdq q
  match x.waiting with
  | [] => s
  | c :: rest =>
    let r := (s.setCmdq q { x with running := some c, waiting := rest }).startCmd q c
    match r.1 with
    | some a => r.2.finishCmd q a.1 a.2
    | none => r.2

/-- Start what can start, at most `fuel` commands. -/
def State.runFuel : Nat → State → State
  | 0, s => s
  | fuel + 1, s => match s.readyQueue with
    | none => s
    | some q => State.runFuel fuel (s.runHead q)

/-- The queues run on: every command that waits may start. -/
def State.runQueues (s : State) : State :=
  State.runFuel ((s.host.queues.map fun x => x.waiting.length).foldl (· + ·) 0) s

/-- A CMD enters its queue of 32 entries (R408, R412). -/
def State.enqueueCmd (s : State) (m : HostMsg) : State :=
  let x := s.cmdq m.queue
  if 32 ≤ x.waiting.length + b2n x.running.isSome then s.sendCpl m.tag .busy []
  else
    let c : Cmd := { code := cmdCode m, tag := m.tag, body := m.payload, prog := 0, data := [] }
    let s : State := { s with host := { s.host with tags := s.host.tags ++ [m.tag] } }
    (s.setCmdq m.queue { x with waiting := x.waiting ++ [c] }).runQueues

/-- A CMD of one of R413's codes arrives. -/
def State.command (s : State) (m : HostMsg) (code : Nat) : State :=
  if m.type ≠ 3 ∨ cmdCode m ≠ code then s else s.hostArrive m fun s => s.enqueueCmd m

/-- Bit 0 of the flags that stand at byte `o` of a command's body. -/
def flagged (m : HostMsg) (o : Nat) : Bool := decide (leAt m.payload o 1 % 2 = 1)

/-! ## The rows -/

/-- JOB_OPEN (R203). -/
def execJobOpen (m : HostMsg) (s : State) : Next := .next (s.command m cJobOpen)

/-- STEP_DATA (R413). -/
def execStepData (m : HostMsg) (s : State) : Next := .next (s.command m cStepData)

/-- BLEND_LOAD with flags bit 0 clear (R448). -/
def execBlendLoadFull (m : HostMsg) (s : State) : Next := .next (if flagged m 12 then s else s.command m cBlendLoad)

/-- BLEND_LOAD with flags bit 0 set (R450). -/
def execBlendLoadPartial (m : HostMsg) (s : State) : Next := .next (if flagged m 12 then s.command m cBlendLoad else s)

/-- REGION_DRAIN (R491). -/
def execRegionDrain (m : HostMsg) (s : State) : Next := .next (s.command m cRegionDrain)

/-- REGION_RESET (R470). -/
def execRegionReset (m : HostMsg) (s : State) : Next := .next (s.command m cRegionReset)

/-- SELF_TEST (R495). -/
def execSelfTest (m : HostMsg) (s : State) : Next := .next (s.command m cSelfTest)

/-- CHECKPOINT (R523). -/
def execCheckpoint (m : HostMsg) (s : State) : Next := .next (s.command m cCheckpoint)

/-- RESTORE (R528), flags bit 0 clear. -/
def execRestore (m : HostMsg) (s : State) : Next := .next (if flagged m 8 then s else s.command m cRestore)

/-- RESTORE with flags bit 0 set (R529). -/
def execRestoreDryRun (m : HostMsg) (s : State) : Next := .next (if flagged m 8 then s.command m cRestore else s)

/-- JOB_CLOSE (R413). -/
def execJobClose (m : HostMsg) (s : State) : Next := .next (s.command m cJobClose)

/-- ATTEST (R549). -/
def execAttest (m : HostMsg) (s : State) : Next := .next (s.command m cAttest)

/-- An address lies in a tile store or an Urn of a region. -/
def State.inRegion (s : State) (r a : Nat) : Bool :=
  match spaceOf a with
  | .tile i => decide (s.regionOf (s.homeCluster i) = some r)
  | .urn c => decide (s.regionOf c = some r)
  | _ => false

/-- The copy at the head of a core's DMA queue moves bytes from or to a region (R114). -/
def State.copies (s : State) (r i : Nat) : Bool :=
  match s.headOf i 2 with
  | none => false
  | some e => s.coreWorks i && [0, 1].any fun k => match s.tensorAt e.d k with
    | some t => s.inRegion r t.base
    | none => false

/-- Every core of the region has stopped, nothing it issued remains, and no transfer of another core to or from the region is in
flight. Fenced cores do not hold the drain (R114, R490). -/
def State.regionIdle (s : State) (r : Nat) : Bool :=
  ((s.regionCores r).all fun i =>
    let c := s.core i
    c.fenced || !decide (c.st = .running ∨ c.st = .waiting ∨ c.st = .draining) && c.queues.all (·.isEmpty)) &&
  !(s.programCores.any (s.copies r))

/-- REGION_DRAIN_COMPLETE (R491): the region is drained, and the module DRAINING. -/
def execRegionDrainComplete (region : Nat) (s : State) : Next :=
  .next (if ¬ (s.region region).draining ∨ ¬ s.regionIdle region then s
  else
    let s := s.setRegion region { s.region region with draining := false, drained := true, released := false }
    let s := (s.regionEvent region 0).restState
    let qs := s.queuesRunning fun c => decide (c.code = cRegionDrain ∧ c.region = region)
    (s.finishCmds qs .ok).runQueues)

/-- The end of a SELF_TEST (R495): failing cores are fenced and recorded, stores read zero, and the CPL carries the result. -/
def State.selfTested (s : State) (q : Nat) (c : Cmd) (failed unitsFailed : List Nat) : State :=
  let r := c.region
  let test := leAt c.body 2 2
  let is := if test = 2 then [] else (s.regionCores r).filter fun i => (s.core i).powered
  let bad := is.filter failed.contains
  let cs := if test = 1 then [] else (s.regionClusters r).filter unitsFailed.contains
  let all := s.regionCores r
  let s : State := { s with
    cores := s.cores.map fun e => (e.1, if all.contains e.1 then { e.2 with wgb := [] } else e.2)
    mem := s.mem.filter fun e => !inTiles all e.1 }
  let s := is.foldl (fun s i => s.coreTested failed i) s
  let s := if bad.isEmpty then s else
    (s.add .topMod 0 Reg.TOP_SELFTEST_FAILS bad.length).raise .topMod 0 Reg.TOP_FAULT_EVENT 6
  let s := s.add .topMod 0 Reg.TOP_SELFTESTS 1
  let took := (s.now - nth 0 c.data 0) / 1000
  s.finishCmd q .ok (leBytes 2 is.length ++ leBytes 2 bad.length ++ leBytes 2 (bad.head?.getD 0) ++ leBytes 2 cs.length ++
    leBytes 4 took ++ zeros 4)

/-- CORE_TEST_DONE (R467, R468, R495): the oldest wave ends; with no wave under way, the SELF_TEST of the lowest queue. -/
def execCoreTestDone (failed unitsFailed : List Nat) (s : State) : Next :=
  .next (
    if s.top.waves.isEmpty then
      match s.queuesRunning fun c => decide (c.code = cSelfTest) with
      | [] => s
      | q :: _ => match (s.cmdq q).running with
        | some c => (s.selfTested q c failed unitsFailed).runQueues
        | none => s
    else (s.waveDone failed).endResets.runQueues)

/-- The full load that waited for the last wave takes effect, or fails as its image says (R448, R472). -/
def State.heldLoad (s : State) (q : Nat) (img : List Byte) : State :=
  match parseImage img none with
  | .ok p => (((s.loadDone img p).settleStreams).finishCmd q .ok []).runQueues
  | .error f => ((s.loadFailed f false).finishCmd q f.status []).runQueues

/-- After bring-up, a full load that waited is applied (R472); without one the queues run. -/
def State.applyWaiting (s : State) : State :=
  match s.top.blendWaiting with
  | none => s.runQueues
  | some x => State.heldLoad { s with top := { s.top with blendWaiting := none } } x.1 x.2

/-- BRINGUP_COMPLETE (R459, R472): a full load that waited is applied after the factory default. -/
def execBringupComplete (s : State) : Next :=
  .next (if s.topState ≠ stBringup ∨ ¬ s.allReported then s else s.bringupDone.applyWaiting)

end Sys2Proof.Machine
end

