-- ==== Sys2Proof/Machine/Boundary.lean ====
section
/-! DEFINITION. The step boundary (R205 to R207), signatures (R57 to R61, R539), the NVMe commands of the checkpoint engine (R526,
R527), and pre-emption (R523, R524, R603). -/

namespace Sys2Proof.Machine

/-- STEP_BOUNDARY (R205, R206): the step closes. While the exchange of the step before it runs, the boundary waits; so does the
tail while copy-before-overwrite holds it (R513). -/
def execStepBoundary (s : State) : Next :=
  .next (if ¬ s.stepOver then s
  else if ¬ s.exchangeIn then s.raise .govMod 0 Reg.GOV_EVENT 1
  else if s.tailHeld s.job.step then s
  else
    let n := s.job.step
    let c := s.closeStep
    if c.job.step = n then c.settleStreams.runQueues
    else ((((c.boundaryCopy n).storeRecords).settleCkp).settleClose).settleStreams.runQueues)

/-! ## Signatures -/

/-- The context of a record's signature, ASCII "CW1-CUP" (R57). -/
def recordContext : List Byte := [0x43, 0x57, 0x31, 0x2D, 0x43, 0x55, 0x50]

/-- The context of a report's signature, ASCII "CW1-ATT" (R549). -/
def attestContext : List Byte := [0x43, 0x57, 0x31, 0x2D, 0x41, 0x54, 0x54]

/-- The signature made next: hedged, so no byte of it is fixed. -/
def State.signature (s : State) (context body : List Byte) : List Byte :=
  padTo 3309 (Config.mldsaSign s.freeIx (shake256 (context ++ body)))

/-- The record to be signed: the first in record_seq order that is not. -/
def State.nextRecord (s : State) : Option RingSlot := s.record.slots.find? fun r => !r.signed

/-- The body of a record with prev_hash filled in: zero for the first of a chain (R58, R59). -/
def chained (r : RingSlot) (last : List Byte) : List Byte :=
  r.body.take 0x20 ++ (if r.recordSeq = 0 then zeros 32 else padTo 32 last) ++ r.body.drop 0x40

/-- The hash of the last slot, from its critical words. DATA_ERR is logged. -/
def State.lastSlot (s : State) : List Byte × State :=
  let r := s.votedWords kwHash (wordsOf (padTo 32 s.job.lastHash))
  (r.2.1.flatMap fun w => leBytes 8 w.toNat, if r.1 then r.2.2.faultLog csMemory lvReform .dataErr 0 else r.2.2)

/-- A record has been signed: its slot is written to the ring, the chain goes on, and the host and the store hear of it (R58, R61). -/
def State.recordSigned (s : State) (r : RingSlot) : State :=
  let last := s.lastSlot
  let s := last.2
  let body := chained r last.1
  let sig := s.signature recordContext body
  let s := (s.useFree 1).add .secMod 0 Reg.SEC_SIGNATURES 1
  let bytes := slotBytes body sig
  let a := s.slotAddr r.slot
  let s := (s.memWrite a bytes).2
  let s : State := { s with job := { s.job with lastHash := hashBytes (shake256 (bytes.take 0xEED)) } }
  let s := s.keepChain
  let s := s.modSlot r.slot fun x => { x with body := bytes, signed := true }
  let s := s.hostEvent evRecord (leBytes 4 r.recordSeq ++ leBytes 1 r.slot ++ zeros 3 ++ leBytes 8 a)
  s.storeRecord { r with body := bytes, signed := true }

/-- A signature attempt has failed: once more, and then health is FAILED and no record follows (R61, R484). -/
def State.recordUnsigned (s : State) (r : RingSlot) : State :=
  let s := (s.raise .secMod 0 Reg.SEC_EVENT 4).modSlot r.slot fun x => { x with tries := x.tries + 1 }
  if r.tries = 0 then s else (s.failHealth 2).stepFail csSign lvReform .unavailable r.recordSeq

/-- A report has been signed and is written, or cannot be (R549). -/
def State.attestSigned (s : State) (ok : Bool) (q : Nat) (body : List Byte) (a : Nat) : State :=
  let s : State := { s with sec := { s.sec with attests := s.sec.attests.drop 1 } }
  if ¬ ok then (s.raise .secMod 0 Reg.SEC_EVENT 4).finishCmd q .unavailable []
  else
    let sig := s.signature attestContext body
    let s := (s.useFree 1).add .secMod 0 Reg.SEC_SIGNATURES 1
    let w := s.memWrite a (slotBytes body sig)
    (if w.1 = .ok then w.2.add .secMod 0 Reg.SEC_ATTESTS 1 else w.2).finishCmd q w.1 []

/-- A checkpoint header has been signed, or cannot be. -/
def State.headerSigned (s : State) (ok : Bool) : State :=
  match s.ckp.write with
  | none => { s with sec := { s.sec with ckpDue := false } }
  | some w =>
    if ok then ((s.useFree 1).add .secMod 0 Reg.SEC_SIGNATURES 1).ckpSigned (some (s.signature ckpContext (padTo 512 (s.ckpHeader w))))
    else ((s.raise .secMod 0 Reg.SEC_EVENT 4).ckpSigned none).settleCkp

/-- The signature at hand ends (R539): records first, then checkpoint headers, then reports. -/
def State.signed (s : State) (ok : Bool) : State :=
  let record := match s.nextRecord with
    | some r => if r.dead then none else some r
    | none => none
  match record with
  | some r => if ok then s.recordSigned r else s.recordUnsigned r
  | none =>
    if s.sec.ckpDue then s.headerSigned ok
    else match s.sec.attests with
      | [] => s
      | (q, body, a) :: _ => s.attestSigned ok q body a

/-- When the work that the security engine takes next came to it: a record at its cut, a report when its body was formed. -/
def State.signAsked (s : State) : Option Nat :=
  match s.record.slots.find? fun r => !r.signed && decide (r.tries < 2) with
  | some r => some (leAt r.body 0x10 8)
  | none => if s.sec.ckpDue then some s.sec.ckpAt else (s.sec.attests.head?).map fun a => leAt a.2.1 0x28 8

/-- The next signature starts; its wait counts in SEC_SIGN_QUEUE_MAX (R550). -/
def State.nextSign (s : State) : State :=
  match s.signAsked with
  | some t => s.rmax .secMod 0 Reg.SEC_SIGN_QUEUE_MAX (s.now - t)
  | none => s

/-- SIGNATURE_COMPLETE (R60, R61). -/
def execSignatureComplete (ok : Bool) (s : State) : Next := .next (((s.signed ok).nextSign.settleClose).runQueues)

/-! ## The Caddy store -/

/-- CADDY_LINK_DOWN (R527). -/
def execCaddyLinkDown (s : State) : Next :=
  .next (if s.ckp.nv.isEmpty ∧ ¬ s.ckp.caddyReady then s else (s.caddyDown.settleCkp).settleStreams.runQueues)

/-- NVME_COMPLETION (R526, R527). -/
def execNvmeCompletion (ok : Bool) (data : List Byte) (s : State) : Next := .next ((s.nvDone ok data).settleStreams.runQueues)

/-- NVME_CMD_TIMEOUT (R527). -/
def execNvmeCmdTimeout (s : State) : Next := .next (s.nvLate.settleStreams.runQueues)

/-! ## Pre-emption -/

/-- PREEMPT_PIN (R603): edges count in RUNNING and WARM_IDLE. -/
def execPreemptPin (s : State) : Next :=
  .next (if s.topState = stRunning ∨ s.topState = stWarm then (s.notice (s.now + 30000000000)).settleStreams.runQueues
  else s.add .ckpMod 0 Reg.CKP_PREEMPT_IGNORED 1)

/-- PREEMPT_MARGIN_EXPIRY (R524). -/
def execPreemptMarginExpiry (s : State) : Next := .next (s.abandonForPreempt.settleStreams.runQueues)

/-- PREEMPT_DEADLINE (R527). -/
def execPreemptDeadline (s : State) : Next :=
  .next (match s.ckp.write with
  | some w => if w.req.preempt then s.raise .ckpMod 0 Reg.CKP_EVENT 2 else s
  | none => s)

end Sys2Proof.Machine
end

