-- ==== Sys2Proof/Machine/Complete.lean ====
section
/-! DEFINITION. Completion (R129): INSTRUCTION_COMPLETE carries the instruction at the head of a queue to its end, with no fault in
what is left of it; WAIT_TIMEOUT ends a wait that has lasted too long (R131). -/

namespace Sys2Proof.Machine

/-- A beat without a fault. -/
def BeatObs.clean : BeatObs := { lanes := [], corrected := [], double := false }

/-- One further item of the instruction at the head of the engine queue: a pass, a chunk accepted, or all of an instruction
that has no passes. -/
def State.engineItem (s : State) (i : Nat) (e : QEntry) (o : ItemObs) : State :=
  match Op.ofCode (iOpcode e.word) with
  | some .wgbclr => (s.setCore i ((s.core i).clearSlots (slotBase e.word) (slotCount e.word))).retire i 0 .ok false
  | some .urnmerge =>
    let r := s.urnMerge i e.word e.d o
    r.2.retireUrn i r.1
  | some .wgbrs => s.samovarAccept i o.rd
  | _ => if e.offered then s.samovarAccept i o.rd else s.passVerdict i PassObs.clean

/-- One further item of the vector queue's head. -/
def State.vectorItem (s : State) (i : Nat) (e : QEntry) (o : ItemObs) : State :=
  if iOpcode e.word = 0x40 then s.samovarAccept i o.rd else s.beatVerdict i BeatObs.clean

/-- Run items of the instruction numbered `seq` until it has ended or waits; `o` is what the first of them meets. -/
def State.runItems (s : State) (i q seq : Nat) (o : ItemObs) : Nat → State
  | 0 => s
  | fuel + 1 =>
    match s.headOf i q with
    | none => s
    | some e =>
      if e.seq ≠ seq ∨ ¬ s.coreWorks i then s
      else
        let t := if q = 0 then s.engineItem i e o else s.vectorItem i e o
        if t.headOf i q = some e then t else t.runItems i q seq ItemObs.clean fuel

/-- RXWAIT writes the slice's sum (R166). -/
def State.rxwaitDone (s : State) (i : Nat) (e : QEntry) (o : ItemObs) : State :=
  match parseTensor s.govFormat (nth 0 e.d 0), parseShard (nth 0 e.d 1) with
  | some t, some x =>
    let slice := iImm e.word
    match s.sliceSum x slice with
    | none => s
    | some (st, vals) =>
      if st ≠ .ok then (s.freeSlice x slice).retire i 3 st true
      else
        let fr := s.freeIx
        let at_ (r c : Nat) : List Byte := leBytes 4 (bits32 (fr + r * t.cols + c) (nth fzero vals (r * t.cols + c))).toNat
        let lines := if t.colMajor then
            (List.range t.cols).map fun c => (t.base + c * t.pitch, (List.range t.rows).flatMap fun r => at_ r c)
          else (List.range t.rows).map fun r => (t.base + r * t.pitch, (List.range t.cols).flatMap fun c => at_ r c)
        let w := ((s.useFree t.count).freeSlice x slice).writeRuns o.wr lines
        w.2.retire i 3 w.1 (s.keptArea t.base)
  | _, _ => s.retire i 3 .malformed false

/-- The stream queue's head, where nothing from outside decides its end: WDONE and RXWAIT. -/
def State.streamItem (s : State) (i : Nat) (e : QEntry) (o : ItemObs) : State :=
  match Op.ofCode (iOpcode e.word) with
  | some .wdone =>
    match parseStream s.govFormat (nth 0 e.d 1) with
    | some t =>
      let r := s.wdone i t (iImm e.word % 65536)
      r.2.retire i 3 r.1 false
    | none => s.retire i 3 .malformed false
  | some .rxwait => s.rxwaitDone i e o
  | _ => s

/-- The transfers that are left of the copy at the head of the DMA queue end OK, `fuel` of them at most, and the last completes it. -/
def State.copyRun (s : State) (i seq : Nat) (o : ItemObs) : Nat → State
  | 0 => s
  | fuel + 1 => match s.headOf i 2 with
    | none => s
    | some e => if e.seq ≠ seq ∨ (s.transfersLeft e ≤ 1 ∧ s.copyHeld e) then s else (s.copyStep i e o).copyRun i seq o fuel

/-- The instruction at the head of a queue of a core that was fenced and has no takeover to come: it completes UNAVAILABLE, and nothing
of it is done (R24, R84). The fence has ended the step; no exception is added (DEDUCED, log entry 98). -/
def State.fencedItem (s : State) (i q : Nat) : State :=
  if (s.core i).fenced ∧ ¬ s.takeoverDue i ∧ q < 4 then
    let c := s.core i
    s.setCore i { c with queues := modNth c.queues q List.tail }
  else s

/-- INSTRUCTION_COMPLETE (R129): a status found at issue ends the instruction; otherwise what is left of it runs. -/
def execInstructionComplete (core : Nat) (x : HeadObs) (s : State) : Next :=
  let q := x.queue
  let o := x.obs
  .next (
    if ¬ s.coreWorks core ∨ 4 ≤ q then s.fencedItem core q
    else match s.headOf core q with
    | none => s
    | some e =>
      (if e.status ≠ .ok then s.retire core q e.status false
      else if q = 0 then s.runItems core 0 e.seq o (2 * s.totalItems core e + 2)
      else if q = 1 then s.runItems core 1 e.seq o (s.vecCount e + s.vrsChunks e + 2)
      else if q = 2 then s.copyRun core e.seq o (s.transfersLeft e)
      else s.streamItem core e o).settleStreams)

/-- A SIPRED that ends before its result: it waits no more. -/
def State.leaveSip (s : State) (seq core : Nat) : State :=
  { s with coll := { s.coll with sipWaits := s.coll.sipWaits.filter fun w => !decide (w.core = some (core, seq)) } }

/-- WAIT_TIMEOUT (R131): a wait that holds issue, or, in the stream queue, RXWAIT or SIPRED at its head, passes
SEQ_CTRL.wait_limit. An RXWAIT or SIPRED held up ends with TIMEOUT; a barrier it leaves stands as it was reached. -/
def execWaitTimeout (core : Nat) (inQueue : Bool) (s : State) : Next :=
  .next (
    let c := s.core core
    if ¬ s.coreWorks core then s
    else if inQueue then
      match s.headOf core 3 with
      | none => s
      | some e =>
        if iOpcode e.word = 0x41 ∨ iOpcode e.word = 0x48 then
          (((s.leaveSip e.seq core).raise .seqCore core Reg.SEQ_EVENT 1).retire core 3 .timeout false).settleStreams
        else s
    else if c.st = .waiting ∧ c.waits ≠ .none ∧ c.waits ≠ .genArea then s.waitOver core
    else s)

end Sys2Proof.Machine
end

