-- ==== Sys2Proof/Machine/MemoryCmds.lean ====
section
/-! DEFINITION. The commands of the memory controllers and scrubbers (R376 to R391). -/

namespace Sys2Proof.Machine

/-- MEMORY_READ (R377, R378, R381): 64 bytes of bonded memory. The symbols the stack supplies wrong stay in the granule until
it is next written (R378). -/
def execMemoryRead (addr : Nat) (u : Upset) (s : State) : Next :=
  let s := if (s.memGate addr 64).1 = .ok then s.upset (64 * (addr / 64)) u else s
  let r := s.memRead addr 64
  .next ((r.2.2.send (.dma r.2.1)).answer r.1)

/-- MEMORY_WRITE (R380): whole granules are stored, others by read-modify-write. -/
def execMemoryWrite (addr : Nat) (bytes : List Byte) (u : Upset) (s : State) : Next :=
  let s := if (s.memGate addr bytes.length).1 = .ok then s.upset (64 * (addr / 64)) u else s
  let r := s.memWrite addr bytes
  .next (r.2.answer r.1)

/-- CRITICAL_READ (R383): one aligned critical word, by vote over its three copies. -/
def execCriticalRead (addr : Nat) (u : CritUpset) (s : State) : Next :=
  if spaceOf addr ≠ .critical ∨ addr % 8 ≠ 0 then .next (s.answer .malformed)
  else
    let s := if (s.stack (critStack addr)).ready then s.critUpset addr u else s
    let r := s.critRead addr
    .next ((r.2.2.send (.dma (if r.1 = .ok then leBytes 8 r.2.1.toNat else []))).answer r.1)

/-- CRITICAL_WRITE (R383, R384): firmware and the module's own agents write; host software is denied. -/
def execCriticalWrite (w : Writer) (addr : Nat) (v : Word) (s : State) : Next :=
  if spaceOf addr ≠ .critical ∨ addr % 8 ≠ 0 then .next (s.answer .malformed)
  else if w = .host then .next (s.answer .denied)
  else
    let r := s.critWrite addr v
    .next (r.2.answer r.1)

/-- DIE_ERR_THRESHOLD (R379): the first die is declared lost and erased; a second one is only reported. -/
def execDieErrThreshold (stack die : Nat) (s : State) : Next :=
  let st := s.stack stack
  if ¬ st.ready ∨ 18 ≤ die then .next s
  else match st.erased with
    | none => .next (((s.setStack stack { st with erased := some die }).raise .memDie stack Reg.MEM_EVENT 3).degrade 1)
    | some d => if d = die then .next s else .next (s.raise .memDie stack Reg.MEM_EVENT 4)

/-- CE_RATE_LIMIT (R390, R499). -/
def execCeRateLimit (stack : Nat) (s : State) : Next :=
  if ¬ (s.stack stack).ready then .next s else .next ((s.raise .memDie stack Reg.MEM_EVENT 7).degrade 3)

/-- A lap of the scrubber is complete (R387). -/
def State.lapDone (s : State) (n : Nat) : State :=
  let st := s.stack n
  let sec := st.lapNs / 1000000000
  let s := s.setStack n { st with scrubPos := 0, scrubCrit := false, lapSlow := false, lapNs := 0 }
  ((s.rset .scrDie n Reg.SCR_LAP 31 0 sec).bump .scrDie n Reg.SCR_LAPS 1).raise .scrDie n Reg.SCR_EVENT 2

/-- The scrubber reads a critical word (R383, R386): it counts and logs what it finds, and writes nothing. -/
def State.scrubCritical (s : State) (n a : Nat) : State :=
  let (maj, disagree, failed, first) := s.critVote a
  let s := (s.useFree 6).bump .scrDie n Reg.SCR_READS 1
  let s := if disagree then s.bump .scrDie n Reg.SCR_CRIT_DISAGREE 1 else s
  if maj.isNone then
    ((s.bump .scrDie n Reg.SCR_UNCORR 1).raise .scrDie n Reg.SCR_EVENT 1).errLog .scrDie n 5 first a 0
  else
    let s := if failed then s.bump .scrDie n Reg.SCR_CORRECTED 1 else s
    if disagree then s.errLog .scrDie n 4 first a 0 else s

/-- SCRUB_READ (R386): the next granule, or after the user space the next critical word. `u`: what the stack supplies wrong. -/
def execScrubRead (stack : Nat) (u : ScrubObs) (s : State) : Next :=
  let st := s.stack stack
  if ¬ st.ready ∨ ¬ s.rflag .scrMod 0 Reg.SCR_CTRL 32 then .next s
  else if st.scrubCrit then
    let a := critBase + 0x1000000 * stack + 8 * st.scrubPos
    let s := (s.critUpset a u.crit).scrubCritical stack a
    if st.scrubPos + 1 < 2097152 then .next (s.setStack stack { s.stack stack with scrubPos := st.scrubPos + 1 })
    else .next (s.lapDone stack)
  else
    let g := 0x2000000000 * stack + st.scrubPos
    let s := ((s.upset g u.granule).readGranule .scrubber g).2.2
    if st.scrubPos + 64 < stackBytes then .next (s.setStack stack { s.stack stack with scrubPos := st.scrubPos + 64 })
    else .next (s.setStack stack { s.stack stack with scrubPos := 0, scrubCrit := true })

/-- SCRUB_LAP_LIMIT (R387): once for a lap. -/
def execScrubLapLimit (stack : Nat) (s : State) : Next :=
  let st := s.stack stack
  if ¬ st.ready ∨ st.lapSlow ∨ ¬ s.rflag .scrMod 0 Reg.SCR_CTRL 32 then .next s
  else .next (((s.setStack stack { st with lapSlow := true }).raise .scrDie stack Reg.SCR_EVENT 0).mgtAlert 10 stack 0)

/-- ROW_CANDIDATE_WRITE (R389): a marked candidate goes to module flash, in order of marking. -/
def execRowCandidateWrite (stack k : Nat) (s : State) : Next :=
  let st := s.stack stack
  match st.cands[k]? with
  | none => .next s
  | some x =>
    if ¬ x.marked ∨ x.stored then .next s
    else
      let s := s.setStack stack { st with cands := setNth st.cands k { x with stored := true } }
      let row : SoftRow := { stack := stack, row := x.row, bank := x.bank, channel := x.channel, applied := false }
      let held := s.flash.soft.any fun r => decide (r.stack = stack ∧ r.row = x.row ∧ r.bank = x.bank ∧ r.channel = x.channel)
      .next (if held then s else { s with flash := { s.flash with soft := s.flash.soft ++ [row] } })

end Sys2Proof.Machine
end

