-- ==== Sys2Proof/Machine/Mgmt.lean ====
section
/-! DEFINITION. The management port (R573 to R582): the checks of an arriving message, the requests, unsolicited messages, the I3C
sideband, and the end of a migration, after which an order that waited is carried out. -/

namespace Sys2Proof.Machine

/-! ## Types and states (R575) -/

def gStatusRead : Nat := 0x01
def gStatus : Nat := 0x02
def gAlertAck : Nat := 0x04
def gBind : Nat := 0x05
def gPower : Nat := 0x10
def gKeepWarm : Nat := 0x11
def gPreempt : Nat := 0x12
def gJobFence : Nat := 0x13
def gRollback : Nat := 0x14
def gReform : Nat := 0x15
def gHandover : Nat := 0x16
def gCounterRead : Nat := 0x17
def gRecoverWrite : Nat := 0x20
def gRecoverCommit : Nat := 0x21

/-- The types of requests. -/
def gRequests : List Nat :=
  [gStatusRead, gAlertAck, gBind, gPower, gKeepWarm, gPreempt, gJobFence, gRollback, gReform, gHandover, gCounterRead, gRecoverWrite,
   gRecoverCommit]

/-- The body of a request has its length, and its rsvd bytes are zero. -/
def gBodyOk (t : Nat) (b : List Byte) : Bool :=
  let n := b.length
  if t = gStatusRead ∨ t = gBind then decide (n = 0)
  else if t = gAlertAck ∨ t = gPower ∨ t = gRecoverCommit then decide (n = 8) && decide (leAt b 4 4 = 0)
  else if t = gKeepWarm ∨ t = gJobFence then decide (n = 8) && decide (leAt b 2 6 = 0)
  else if t = gPreempt ∨ t = gReform then decide (n = 8)
  else if t = gRollback then decide (n = 16) && decide (leAt b 2 6 = 0)
  else if t = gHandover then decide (n = 16)
  else if t = gCounterRead then decide (n = 16) && decide (leAt b 10 6 = 0)
  else decide (n = 1032) && decide (leAt b 4 4 = 0)

/-- The module accepts a request of this type now (R575). In SAFE with safe_cause 1 only the boot ROM answers, and only its own
messages (R472, R548). -/
def State.gAccepts (s : State) (t : Nat) : Bool :=
  let st := s.topState
  let rom := decide (st = stSafe ∧ s.safeCause = 1)
  if t = gRecoverWrite ∨ t = gRecoverCommit then rom
  else if rom then false
  else if t = gStatusRead ∨ t = gAlertAck ∨ t = gCounterRead then decide (st ≠ stCold)
  else if t = gBind then decide (st = stBringup ∨ st = stReady ∨ st = stWarm) && !s.job.isOpen
  else if t = gPower ∨ t = gKeepWarm then decide (st ≠ stCold ∧ st ≠ stSafe)
  else if t = gJobFence then decide (st = stReady ∨ st = stRunning ∨ st = stDraining ∨ st = stWarm)
  else decide (st = stRunning ∨ st = stWarm)

/-! ## Arrival (R574, R576, R577) -/

/-- A message as its bytes give it: a status, resp and rsvd bits are zero in a request. -/
def mgtMsgOf (src : MgtSrc) (b : List Byte) : MgtMsg :=
  { src := src, magic := BitVec.ofNat 32 (leAt b 0 4), version := BitVec.ofNat 8 (leAt b 4 1), type := BitVec.ofNat 8 (leAt b 5 1)
    seq := BitVec.ofNat 32 (leAt b 8 4), length := leAt b 0x0C 4, serial := BitVec.ofNat 64 (leAt b 0x10 8)
    job := BitVec.ofNat 16 (leAt b 0x18 2), rsvd := decide (leAt b 6 2 ≠ 0) || decide (leAt b 0x1A 6 ≠ 0), body := b.drop 32 }

/-- The magic and the serial are this module's; STATUS_READ and BIND may also be sent to every serial. -/
def gAddressed (m : MgtMsg) : Bool :=
  decide (m.magic = 0x4D474D54) &&
    (decide (m.serial = Config.serial) ||
      (decide (m.serial = BitVec.allOnes 64) && decide (m.type.toNat = gStatusRead ∨ m.type.toNat = gBind)))

/-- The kept reply to a request that repeats a seq within 10 s. -/
def State.keptReply (s : State) (m : MgtMsg) : Option (List Byte) :=
  (s.mgt.replies.find? fun r => decide (r.1 = m.src ∧ r.2.1 = m.seq ∧ s.now < r.2.2.1 + 10000000000)).map (·.2.2.2)

/-- A request from another source than the bound manager, while a job is open. -/
def State.gForeign (s : State) (m : MgtMsg) : Bool :=
  s.job.isOpen && !decide (m.type.toNat = gStatusRead ∨ m.type.toNat = gCounterRead) && !decide (s.mgt.manager = some m.src)

/-- The type of a reply: that of the request, and STATUS for STATUS_READ. -/
def replyType (t : Nat) : Nat := if t = gStatusRead then gStatus else t

/-- Answer a request. -/
def State.gReply (s : State) (m : MgtMsg) (st : Status) (body : List Byte) : State :=
  s.mgtReply m.src m.seq (replyType m.type.toNat) m.job.toNat st body

/-- A request arrives: dropped, answered again, refused, or carried out by `f`. A request but STATUS_READ ends WARM_IDLE (R565). -/
def State.mgtArrive (s : State) (m : MgtMsg) (f : State → State) : State :=
  let t := m.type.toNat
  if ¬ s.powered ∨ ¬ s.mgtUp then s
  else if ¬ gAddressed m then s.add .mgtMod 0 Reg.MGT_DROPPED 1
  else
    let s := s.add .mgtMod 0 Reg.MGT_RX 1
    match s.keptReply m with
    | some bytes => ((s.send (.mgt m.src bytes)).add .mgtMod 0 Reg.MGT_TX 1).add .mgtMod 0 Reg.MGT_DUP_REPLIES 1
    | none =>
      let again : Bool := match s.mgt.fence with
        | some x => decide (x.src = m.src ∧ x.seq = m.seq)
        | none => false
      if again then s
      else
        let foreign := s.gForeign m
        let bad := m.rsvd || !decide (m.length = m.body.length) || decide (1200 < m.length) || !gRequests.contains t || !gBodyOk t m.body
        let st := firstStatus [(bad, .malformed), (!decide (m.version = 1), .version), (foreign || !s.gAccepts t, .denied)]
        let s := if foreign then (s.add .mgtMod 0 Reg.MGT_DENIED 1).raise .mgtMod 0 Reg.MGT_EVENT 1 else s
        let s := if t = gStatusRead then s else s.leaveWarm
        if st ≠ .ok then s.gReply m st []
        else f (s.trace 8 19 7 0 (leBytes 1 t ++ zeros 3 ++ leBytes 4 m.seq.toNat))

/-- A request of the row's own type. -/
def State.mgtRow (s : State) (m : MgtMsg) (t : Nat) (f : State → State) : State :=
  if m.type.toNat ≠ t then s else s.mgtArrive m f

/-! ## The requests (R575) -/

/-- STATUS_READ (R578). -/
def execStatusRead (m : MgtMsg) (s : State) : Next := .next (s.mgtRow m gStatusRead fun s => s.gReply m .ok s.statusBody)

/-- ALERT_ACK (R579). -/
def execAlertAck (m : MgtMsg) (s : State) : Next :=
  .next (s.mgtRow m gAlertAck fun s =>
    let n := leAt m.body 0 4
    let s : State := { s with mgt := { s.mgt with alerts := s.mgt.alerts.filter fun a => !decide (a.num % 2 ^ 32 = n) } }
    s.alertPin.gReply m .ok [])

/-- BIND (R576). Replies kept for an earlier manager go. -/
def execBind (m : MgtMsg) (s : State) : Next :=
  .next (s.mgtRow m gBind fun s =>
    let s : State := { s with mgt := { s.mgt with manager := some m.src, replies := [] } }
    ((s.rbit .mgtMod 0 Reg.MGT_STATUS 1 true).raise .mgtMod 0 Reg.MGT_EVENT 0).gReply m .ok [])

/-- POWER: the cap, no higher than the Blend's; 0 restores that. -/
def execPower (m : MgtMsg) (s : State) : Next :=
  .next (s.mgtRow m gPower fun s =>
    let cap := leAt m.body 0 4
    if s.blend.power.cap < cap then s.gReply m .denied []
    else
      let s : State := { s with mgt := { s.mgt with capOrder := if cap = 0 then none else some cap } }
      s.showKettle.gReply m .ok [])

/-- KEEP_WARM: the target; 0 is off, 0xFFFF the Blend's. -/
def execKeepWarm (m : MgtMsg) (s : State) : Next :=
  .next (s.mgtRow m gKeepWarm fun s =>
    let t := leAt m.body 0 2
    if t ≠ 0 ∧ t ≠ 0xFFFF ∧ (t < 400 ∨ 850 < t) then s.gReply m .malformed []
    else ({ s with mgt := { s.mgt with warmOrder := if t = 0xFFFF then none else some t } } : State).gReply m .ok [])

/-- PREEMPT (R523): 0 is 30 s from now; a deadline that is past is now (R582). -/
def execPreempt (m : MgtMsg) (s : State) : Next :=
  .next (s.mgtRow m gPreempt fun s =>
    let d := leAt m.body 0 8
    let d := if d = 0 then s.now + 30000000000 else max d s.now
    ((s.notice d).settleStreams.runQueues).gReply m .ok [])

/-- Step 1 of R581: the step is abandoned, and the job is closed on the module. -/
def State.fenceOpen (s : State) (j : Nat) : State :=
  if s.job.isOpen ∧ s.job.id = j then
    let s : State := s.abandonStep
    let s : State := { s with mgt := { s.mgt with order := none } }
    s.closeJob.finishCode cJobClose .ok
  else s

/-- Step 2 of R581: ports, groups and weight pointers. -/
def State.fenceParts (s : State) (j : Nat) (ports : List Nat) : State :=
  let s := ports.foldl (fun s p => s.sendFence p j) s
  let s := (s.groupsNone fun _ g => decide (g.cfg.job = j)).sipsNone fun _ g => decide (g.job = j)
  s.setActive 0 (zeros 32)

/-- JOB_FENCE (R581): the reply goes once every port is done. One runs at a time (DESIGN CHOICE, log entry 60). -/
def execJobFence (m : MgtMsg) (s : State) : Next :=
  .next (s.mgtRow m gJobFence fun s =>
    let j := leAt m.body 0 2
    let ports := (List.range 16).filter fun p => decide (j ≠ 0) && decide (s.portJob p = j)
    if s.mgt.fence.isSome then s.gReply m .busy []
    else if ports.isEmpty ∧ ¬ (s.job.isOpen ∧ s.job.id = j) then s.gReply m .ok []
    else
      let s := s.fenceOpen j
      let s : State := if ports.isEmpty then s else { s with mgt := { s.mgt with
        fence := some { src := m.src, seq := m.seq, type := m.type, job := m.job.toNat, ports := ports } } }
      let s := (s.fenceParts j ports).settleStreams.runQueues
      if ports.isEmpty then s.gReply m .ok [] else s)

/-- ROLLBACK (R497, R498, R515): answered when accepted or refused; carried out once no takeover runs. -/
def execRollback (m : MgtMsg) (s : State) : Next :=
  .next (s.mgtRow m gRollback fun s =>
    let r := leAt m.body 8 8
    if ¬ s.job.isOpen ∨ leAt m.body 0 2 ≠ s.job.id ∨ r = 0 then s.gReply m .denied []
    else
      let h := s.holdsStep (r - 1)
      if ¬ h.1 then h.2.gReply m .denied []
      else
      let s : State := h.2.gReply m .ok []
      (({ s with mgt := { s.mgt with order := some r } } : State).settleOrder).settleStreams.runQueues)

/-- REFORM: a write of SAM_GRP_CMD (R310). -/
def execReform (m : MgtMsg) (s : State) : Next :=
  .next (s.mgtRow m gReform fun s =>
    let r := s.wrGrpCmd (BitVec.ofNat 64 (leAt m.body 0 8))
    r.2.settleStreams.gReply m r.1 [])

/-- HANDOVER: a write of CKP_HANDOVER_STEP, then of CKP_HANDOVER (R536). -/
def execHandover (m : MgtMsg) (s : State) : Next :=
  .next (s.mgtRow m gHandover fun s =>
    let s := s.poke .ckpMod 0 Reg.CKP_HANDOVER_STEP (BitVec.ofNat 64 (leAt m.body 0 8))
    let r := s.wrHandover (BitVec.ofNat 64 (leAt m.body 8 8))
    r.2.settleStreams.gReply m r.1 [])

/-- COUNTER_READ: 1 to 128 words of the counter space (R586). -/
def execCounterRead (m : MgtMsg) (s : State) : Next :=
  .next (s.mgtRow m gCounterRead fun s =>
    let a := leAt m.body 0 8
    let n := leAt m.body 8 2
    let inside := decide (0x300000000000 ≤ a ∧ a + 8 * n ≤ 0x300100000000)
    if n = 0 ∨ 128 < n ∨ ¬ inside then s.gReply m .malformed []
    else
      let r := pieces s.counterRead a (8 * n)
      s.gReply m r.1 r.2)

/-- RECOVER_WRITE (R548): the boot ROM buffers 1,024 bytes of the image. -/
def execRecoverWrite (m : MgtMsg) (s : State) : Next :=
  .next (s.mgtRow m gRecoverWrite fun s =>
    let o := leAt m.body 0 4
    if o % 1024 ≠ 0 ∨ 16777216 < o + 1024 then s.gReply m .malformed []
    else ({ s with mgt := { s.mgt with image := putBytes s.mgt.image o (m.body.drop 8) } } : State).gReply m .ok [])

/-- The recovery image that has been collected, as a firmware slot, if it holds under R545. -/
def State.recovered (s : State) (n : Nat) : Option FwSlot :=
  let img := getBytes s.mgt.image 0 n
  let digest := shake256 (img.take (n - 3309))
  let epoch := leAt img 6 1
  if fwHeaderOk img ∧ leAt img 0x0C 4 = n ∧ s.fuse.epoch ≤ epoch ∧
      Config.mldsaVerify Config.firmwareKey fwContext (hashBytes digest) (img.drop (n - 3309)) then
    some { valid := true, version := leAt img 8 4, epoch := epoch, digest := digest }
  else none

/-- RECOVER_COMMIT (R548): an image that verifies goes to slot 0, and cold bring-up starts again. -/
def execRecoverCommit (m : MgtMsg) (s : State) : Next :=
  .next (s.mgtRow m gRecoverCommit fun s =>
    let n := leAt m.body 0 4
    if n < 4096 ∨ 16777216 < n then s.gReply m .denied []
    else match s.recovered n with
    | none => s.gReply m .denied []
    | some x => ((s.gReply m .ok []).putSlot 0 x).coldStart { s.top.boot with slot0Ok := true })

/-- RESERVED_MGT_MESSAGE (R12, R575): a type that is no request. -/
def execReservedMgtMessage (m : MgtMsg) (s : State) : Next :=
  .next (if gRequests.contains m.type.toNat then s else s.mgtArrive m fun s => s)

/-! ## Messages of the module's own -/

/-- STATUS_REPORT (R578). -/
def execStatusReport (s : State) : Next := .next (if s.powered then s.sendStatus else s)

/-- ALERT_RESEND (R579). -/
def execAlertResend (n : Nat) (s : State) : Next :=
  .next (match s.mgt.alerts.find? fun a => decide (a.num = n) with
  | some a => s.mgtSend 3 (s.alertBody a)
  | none => s)

/-- One target's answer to a poll: its reading, or one miss more. -/
def State.sensorPoll (s : State) (i : Nat) (a : Option Word) : State :=
  match a with
  | some w => (({ s with mgt := { s.mgt with misses := setNth s.mgt.misses i 0 } } : State)).poke .mgtMod 0 (Reg.MGT_SENSOR + 8 * i) w
  | none =>
    let n := nth 0 s.mgt.misses i + 1
    let s : State := { s with mgt := { s.mgt with misses := setNth s.mgt.misses i n } }
    if n = 3 then s.raise .mgtMod 0 Reg.MGT_EVENT 3 else s

/-- I3C_POLL (R580): the answers of the targets read, up to eight. -/
def execI3cPoll (answers : List (Option Word)) (s : State) : Next :=
  .next (if ¬ s.powered then s
  else (answers.take 8).zipIdx.foldl (fun s x => s.sensorPoll x.2 x.1) s)

/-! ## The end of a migration -/

/-- MIGRATION_COMPLETE (R488, R498). -/
def execMigrationComplete (core : Nat) (ok : Bool) (s : State) : Next :=
  .next ((s.migrated core ok).settleOrder.settleStreams.runQueues)

end Sys2Proof.Machine
end

