-- ==== Sys2Proof/Machine/TimeTrace.lean ====
section
/-! DEFINITION. The time service (R583 to R585, R593, R594), trace samples (R588, R595, R596), and the loss and return of the reference
clock (R604). -/

namespace Sys2Proof.Machine

/-! ## Lock and offset -/

/-- TIM_STATUS.locked. -/
def State.setLocked (s : State) (b : Bool) : State := s.rbit .timMod 0 Reg.TIM_STATUS 0 b

/-- The timebase is unlocked, and counts its good Syncs again. -/
def State.unlock (s : State) : State := { s.setLocked false with tim := { s.tim with good := 0 } }

/-- An offset in 32 bits, signed and saturating (R594). -/
def offset32 (x : Int) : Nat := (max (-(2 ^ 31)) (min (2 ^ 31 - 1) x) % 2 ^ 32).toNat

/-- The timebase is stepped by the offset from the master, and the step is traced (R585, R588). -/
def State.stepTime (s : State) (offset : Int) : State :=
  let s : State := { s with tim := { s.tim with ns := (((s.tim.ns : Int) - offset) % 2 ^ 64).toNat, stepped := true } }
  let s := s.add .timMod 0 Reg.TIM_STEPS 1
  s.trace 9 18 7 0 (leBytes 8 ((-offset) % 2 ^ 64).toNat ++ leBytes 1 (b2n (s.rflag .timMod 0 Reg.TIM_STATUS 0)))

/-- The rate trim that slews the timebase: within 200 ppm, in units of 2 ppm; the value is the servo's (a free value). -/
def State.slew (s : State) : State :=
  let trim : Int := (Config.freeValue s.freeIx % 201 : Nat) - 100
  (s.useFree 1).rset .timMod 0 Reg.TIM_STATUS 31 24 (trim % 256).toNat

/-- Sixteen good Syncs lock; an offset above 1 µs unlocks (R585). -/
def State.judgeLock (s : State) (offset : Int) : State :=
  let good := if offset.natAbs < 500 then s.tim.good + 1 else 0
  let s : State := { s with tim := { s.tim with good := good } }
  if 1000 < offset.natAbs then s.unlock else if 16 ≤ good then s.setLocked true else s

/-- SYNC (R585): from the selected master, in the domain in force. -/
def execSync (y : PtpSync) (s : State) : Next :=
  .next (
    let ours : Bool := match s.tim.best with
      | some b => decide (b.port = y.port)
      | none => false
    if ¬ s.mgtUp ∨ ¬ ours ∨ y.domain ≠ s.tim.domain then s
    else
      let s := (s.add .timMod 0 Reg.TIM_SYNCS 1).rset .timMod 0 Reg.TIM_STATUS 63 32 (offset32 y.offset)
      let s := if ¬ s.tim.stepped ∨ 1000000 < y.offset.natAbs ∧ ¬ s.job.isOpen then s.stepTime y.offset else s.slew
      s.judgeLock y.offset)

/-- SYNC_TIMEOUT (R585): 3 s without a Sync. -/
def execSyncTimeout (s : State) : Next :=
  .next (if ¬ s.tim.started then s else s.unlock.add .timMod 0 Reg.TIM_SYNC_TIMEOUTS 1)

/-! ## The best master (R584; IEEE 1588-2019, PRESUMED, log entry 64) -/

/-- What the standard compares, in order: between two grandmasters their data sets, for one grandmaster the steps removed and
the port. -/
def masterRank (a b : PtpMaster) : List Nat :=
  if a.identity = b.identity then [a.steps, a.port.toNat]
  else [a.priority1, a.clockClass, a.accuracy, a.variance, a.priority2, a.identity.toNat]

/-- The first of two lists in lexicographic order comes strictly first. -/
def lexLess : List Nat → List Nat → Bool
  | x :: xs, y :: ys => decide (x < y) || (decide (x = y) && lexLess xs ys)
  | _, _ => false

/-- The master selected once `a` has announced itself. An announcement of the selected port replaces what it said before. -/
def bestOf (held : Option PtpMaster) (a : PtpMaster) : PtpMaster :=
  match held with
  | none => a
  | some b => if b.port = a.port then a else if lexLess (masterRank a b) (masterRank b a) then a else b

/-- ANNOUNCE (R584, R593). -/
def execAnnounce (a : PtpAnnounce) (s : State) : Next :=
  .next (if ¬ s.mgtUp then s
  else
    let d := s.rfield .timMod 0 Reg.TIM_CTRL 7 0
    let s : State := if d = s.tim.domain then s else
      { s.unlock with tim := { s.unlock.tim with domain := d, best := none } }.rbit .timMod 0 Reg.TIM_STATUS 1 false
    if a.domain ≠ s.tim.domain then s
    else ({ s with tim := { s.tim with best := some (bestOf s.tim.best a.master) } } : State).rbit .timMod 0 Reg.TIM_STATUS 1 true)

/-! ## Trace samples -/

/-- One slot's sample: its displacement and the live value. A displacement that holds no counter gives none. -/
def State.sampleSlot (s : State) (i : Nat) : State :=
  let d := s.rfield .trcMod 0 (Reg.TRC_SAMPLE + 8 * i) 31 0
  let r := s.counterRead (0x300000000000 + d)
  if d = 0 ∨ r.1 ≠ .ok then s else s.trace 6 (d / 0x100000 % 256) 7 0 (leBytes 4 d ++ leBytes 8 r.2)

/-- TRACE_SAMPLE (R588, R596). -/
def execTraceSample (s : State) : Next :=
  .next (if ¬ s.powered ∨ s.rfield .trcMod 0 Reg.TRC_CTRL 63 48 = 0 then s else (List.range 16).foldl State.sampleSlot s)

/-! ## The reference clock (R604) -/

/-- REFCLK_LOSS: every SerDes loses lock and its link goes down; the timebase runs on, unlocked. -/
def execRefclkLoss (s : State) : Next :=
  .next (if ¬ s.tim.refclk then s
  else
    let s : State := { s with tim := { s.tim with refclk := false } }
    if ¬ s.powered then s
    else
      let s := s.unlock.rbit .mgtMod 0 Reg.MGT_STATUS 0 false
      let s := (List.range 16).foldl (fun s p => if linkedStates.contains (s.portState p) then s.retrain p else s) s
      let s := (List.range 16).foldl (fun s p => if s.sipUp p then s.sipGoesDown p else s) s
      let s := if s.ckp.nv.isEmpty ∧ ¬ s.ckp.caddyReady then s else s.caddyDown.settleCkp
      ((s.showTrace.mgtAlert 18 7 0).settleStreams).runQueues)

/-- REFCLK_RETURN: links train again, each by its own events; the timebase locks again under R585. -/
def execRefclkReturn (s : State) : Next :=
  .next (if s.tim.refclk then s else ({ s with tim := { s.tim with refclk := true } } : State).showTrace)

end Sys2Proof.Machine
end

