-- ==== Sys2Proof/Machine/Dispatch.lean ====
section
/-! DEFINITION. The meaning of each command, by name. -/

namespace Sys2Proof.Machine

def exec (i : Instr) (s : State) : Host.Outcome State Fault Refusal :=
  match i with
  | .pwrEnAssert b => Sys2Proof.Machine.execPwrEnAssert b s
  | .pwrEnDeassert => Sys2Proof.Machine.execPwrEnDeassert s
  | .inputOutOfRange => Sys2Proof.Machine.execInputOutOfRange s
  | .ringStart => Sys2Proof.Machine.execRingStart s
  | .routerTestDone die ok => Sys2Proof.Machine.execRouterTestDone die ok s
  | .stackReady die o => Sys2Proof.Machine.execStackReady die o s
  | .waveStart => Sys2Proof.Machine.execWaveStart s
  | .coreTestDone failed unitsFailed => Sys2Proof.Machine.execCoreTestDone failed unitsFailed s
  | .failureRecordWrite core => Sys2Proof.Machine.execFailureRecordWrite core s
  | .bringupComplete => Sys2Proof.Machine.execBringupComplete s
  | .mrd m => Sys2Proof.Machine.execMrd m s
  | .mwr m => Sys2Proof.Machine.execMwr m s
  | .eack m => Sys2Proof.Machine.execEack m s
  | .evtSend => Sys2Proof.Machine.execEvtSend s
  | .hostLinkDown => Sys2Proof.Machine.execHostLinkDown s
  | .hostLinkUp => Sys2Proof.Machine.execHostLinkUp s
  | .jobOpen m => Sys2Proof.Machine.execJobOpen m s
  | .stepData m => Sys2Proof.Machine.execStepData m s
  | .blendLoadFull m => Sys2Proof.Machine.execBlendLoadFull m s
  | .blendLoadPartial m => Sys2Proof.Machine.execBlendLoadPartial m s
  | .regionDrain m => Sys2Proof.Machine.execRegionDrain m s
  | .regionDrainComplete region => Sys2Proof.Machine.execRegionDrainComplete region s
  | .regionReset m => Sys2Proof.Machine.execRegionReset m s
  | .selfTest m => Sys2Proof.Machine.execSelfTest m s
  | .checkpoint m => Sys2Proof.Machine.execCheckpoint m s
  | .restore m => Sys2Proof.Machine.execRestore m s
  | .restoreDryRun m => Sys2Proof.Machine.execRestoreDryRun m s
  | .jobClose m => Sys2Proof.Machine.execJobClose m s
  | .attest m => Sys2Proof.Machine.execAttest m s
  | .stepStart => Sys2Proof.Machine.execStepStart s
  | .stepBoundary => Sys2Proof.Machine.execStepBoundary s
  | .signatureComplete ok => Sys2Proof.Machine.execSignatureComplete ok s
  | .batchBoundary => Sys2Proof.Machine.execBatchBoundary s
  | .nop core o => Sys2Proof.Machine.execNop core o s
  | .end_ core o => Sys2Proof.Machine.execEnd core o s
  | .jump core o => Sys2Proof.Machine.execJump core o s
  | .loop core o => Sys2Proof.Machine.execLoop core o s
  | .setlc core o => Sys2Proof.Machine.execSetlc core o s
  | .dload core o => Sys2Proof.Machine.execDload core o s
  | .dset core o => Sys2Proof.Machine.execDset core o s
  | .wait core o => Sys2Proof.Machine.execWait core o s
  | .signal core o => Sys2Proof.Machine.execSignal core o s
  | .tokenSignalArrive src target => Sys2Proof.Machine.execTokenSignalArrive src target s
  | .barrier core o => Sys2Proof.Machine.execBarrier core o s
  | .drainu core o => Sys2Proof.Machine.execDrainu core o s
  | .batch core o => Sys2Proof.Machine.execBatch core o s
  | .copy core o => Sys2Proof.Machine.execCopy core o s
  | .copyh core o => Sys2Proof.Machine.execCopyh core o s
  | .wreq core o => Sys2Proof.Machine.execWreq core o s
  | .wdone core o => Sys2Proof.Machine.execWdone core o s
  | .publish core o => Sys2Proof.Machine.execPublish core o s
  | .mm core o => Sys2Proof.Machine.execMm core o s
  | .mmw core o => Sys2Proof.Machine.execMmw core o s
  | .mmrs core o => Sys2Proof.Machine.execMmrs core o s
  | .wgbrs core o => Sys2Proof.Machine.execWgbrs core o s
  | .wgbclr core o => Sys2Proof.Machine.execWgbclr core o s
  | .smm core o => Sys2Proof.Machine.execSmm core o s
  | .smmt core o => Sys2Proof.Machine.execSmmt core o s
  | .sdwrs core o => Sys2Proof.Machine.execSdwrs core o s
  | .urnmerge core o => Sys2Proof.Machine.execUrnmerge core o s
  | .pred core o => Sys2Proof.Machine.execPred core o s
  | .smmp core o => Sys2Proof.Machine.execSmmp core o s
  | .vop core o => Sys2Proof.Machine.execVop core o s
  | .vcvt core o => Sys2Proof.Machine.execVcvt core o s
  | .vfn core o => Sys2Proof.Machine.execVfn core o s
  | .vred core o => Sys2Proof.Machine.execVred core o s
  | .softmax core o => Sys2Proof.Machine.execSoftmax core o s
  | .norm core o => Sys2Proof.Machine.execNorm core o s
  | .dfo core o => Sys2Proof.Machine.execDfo core o s
  | .dsoftmax core o => Sys2Proof.Machine.execDsoftmax core o s
  | .adamw core o => Sys2Proof.Machine.execAdamw core o s
  | .sgdm core o => Sys2Proof.Machine.execSgdm core o s
  | .vrs core o => Sys2Proof.Machine.execVrs core o s
  | .rxwait core o => Sys2Proof.Machine.execRxwait core o s
  | .sipred core o => Sys2Proof.Machine.execSipred core o s
  | .chkrd core o => Sys2Proof.Machine.execChkrd core o s
  | .instructionComplete core q => Sys2Proof.Machine.execInstructionComplete core q s
  | .waitTimeout core inQueue => Sys2Proof.Machine.execWaitTimeout core inQueue s
  | .tilePassVerdict core o => Sys2Proof.Machine.execTilePassVerdict core o s
  | .vectorBeatCheck core o => Sys2Proof.Machine.execVectorBeatCheck core o s
  | .tileStoreWriteback core word => Sys2Proof.Machine.execTileStoreWriteback core word s
  | .meshFlitReceive die port f => Sys2Proof.Machine.execMeshFlitReceive die port f s
  | .dmaTransferAck core a => Sys2Proof.Machine.execDmaTransferAck core a s
  | .dmaTimeout core => Sys2Proof.Machine.execDmaTimeout core s
  | .topHotLevelReport die level port core share => Sys2Proof.Machine.execTopHotLevelReport die level port core share s
  | .spareTakeover core o => Sys2Proof.Machine.execSpareTakeover core o s
  | .migrationComplete core ok => Sys2Proof.Machine.execMigrationComplete core ok s
  | .thermalTrip die => Sys2Proof.Machine.execThermalTrip die s
  | .dieRelease die => Sys2Proof.Machine.execDieRelease die s
  | .topRegionRelease w v => Sys2Proof.Machine.execTopRegionRelease w v s
  | .wreqAccept port => Sys2Proof.Machine.execWreqAccept port s
  | .wget port => Sys2Proof.Machine.execWget port s
  | .wdata port m => Sys2Proof.Machine.execWdata port m s
  | .wpush port m => Sys2Proof.Machine.execWpush port m s
  | .attemptTimeout port tag => Sys2Proof.Machine.execAttemptTimeout port tag s
  | .followTimeout port => Sys2Proof.Machine.execFollowTimeout port s
  | .pushHoldExpiry port => Sys2Proof.Machine.execPushHoldExpiry port s
  | .chunkDeliver port => Sys2Proof.Machine.execChunkDeliver port s
  | .wack port m => Sys2Proof.Machine.execWack port m s
  | .wpubTimeout port tag => Sys2Proof.Machine.execWpubTimeout port tag s
  | .stageVersion w v => Sys2Proof.Machine.execStageVersion w v s
  | .stageCancel w v => Sys2Proof.Machine.execStageCancel w v s
  | .manifestRetry => Sys2Proof.Machine.execManifestRetry s
  | .stageLimitExpiry => Sys2Proof.Machine.execStageLimitExpiry s
  | .rchunk port m => Sys2Proof.Machine.execRchunk port m s
  | .samovarAccept core => Sys2Proof.Machine.execSamovarAccept core s
  | .rresend port m => Sys2Proof.Machine.execRresend port m s
  | .rdone port m => Sys2Proof.Machine.execRdone port m s
  | .ctxTimeout port ctx => Sys2Proof.Machine.execCtxTimeout port ctx s
  | .gs1RdoneTimeout port => Sys2Proof.Machine.execGs1RdoneTimeout port s
  | .gform port m => Sys2Proof.Machine.execGform port m s
  | .formLimitExpiry sip group => Sys2Proof.Machine.execFormLimitExpiry sip group s
  | .groupReform w v => Sys2Proof.Machine.execGroupReform w v s
  | .sipGroupReform w v => Sys2Proof.Machine.execSipGroupReform w v s
  | .sipFlitReceive port slot f faults => Sys2Proof.Machine.execSipFlitReceive port slot f faults s
  | .sipCombineTimeout port => Sys2Proof.Machine.execSipCombineTimeout port s
  | .sipNak port f => Sys2Proof.Machine.execSipNak port f s
  | .siphello port slot f => Sys2Proof.Machine.execSiphello port slot f s
  | .sipTrainComplete port => Sys2Proof.Machine.execSipTrainComplete port s
  | .sipLaneLoss port => Sys2Proof.Machine.execSipLaneLoss port s
  | .govExchangeResult timeout => Sys2Proof.Machine.execGovExchangeResult timeout s
  | .partnerDetect port => Sys2Proof.Machine.execPartnerDetect port s
  | .portTrainComplete port ok rx tx => Sys2Proof.Machine.execPortTrainComplete port ok rx tx s
  | .hello port m => Sys2Proof.Machine.execHello port m s
  | .helloRepeat port => Sys2Proof.Machine.execHelloRepeat port s
  | .pairReceive port p => Sys2Proof.Machine.execPairReceive port p s
  | .ackTimeout port => Sys2Proof.Machine.execAckTimeout port s
  | .laneSymThreshold port lane => Sys2Proof.Machine.execLaneSymThreshold port lane s
  | .sparePrbsExclude port lane => Sys2Proof.Machine.execSparePrbsExclude port lane s
  | .fastRetrainComplete port tx => Sys2Proof.Machine.execFastRetrainComplete port tx s
  | .fastRetrainTimeout port => Sys2Proof.Machine.execFastRetrainTimeout port s
  | .cplReceive port m => Sys2Proof.Machine.execCplReceive port m s
  | .jfence port m => Sys2Proof.Machine.execJfence port m s
  | .jfenceDone port m => Sys2Proof.Machine.execJfenceDone port m s
  | .jfenceTimeout port => Sys2Proof.Machine.execJfenceTimeout port s
  | .bcopy port m => Sys2Proof.Machine.execBcopy port m s
  | .bcopyHandover port m => Sys2Proof.Machine.execBcopyHandover port m s
  | .back port m => Sys2Proof.Machine.execBack port m s
  | .bcopyTimeout port => Sys2Proof.Machine.execBcopyTimeout port s
  | .fullRetrain port v => Sys2Proof.Machine.execFullRetrain port v s
  | .fastRetrain port v => Sys2Proof.Machine.execFastRetrain port v s
  | .portDisable port v => Sys2Proof.Machine.execPortDisable port v s
  | .portEnable port v => Sys2Proof.Machine.execPortEnable port v s
  | .sipRetrain port v => Sys2Proof.Machine.execSipRetrain port v s
  | .lnkTest port v => Sys2Proof.Machine.execLnkTest port v s
  | .memoryRead addr u => Sys2Proof.Machine.execMemoryRead addr u s
  | .memoryWrite addr bytes u => Sys2Proof.Machine.execMemoryWrite addr bytes u s
  | .criticalRead addr u => Sys2Proof.Machine.execCriticalRead addr u s
  | .criticalWrite w addr v => Sys2Proof.Machine.execCriticalWrite w addr v s
  | .dieErrThreshold stack die => Sys2Proof.Machine.execDieErrThreshold stack die s
  | .ceRateLimit stack => Sys2Proof.Machine.execCeRateLimit stack s
  | .scrubRead stack u => Sys2Proof.Machine.execScrubRead stack u s
  | .scrubLapLimit stack => Sys2Proof.Machine.execScrubLapLimit stack s
  | .rowCandidateWrite stack k => Sys2Proof.Machine.execRowCandidateWrite stack k s
  | .memFlipArm stack v => Sys2Proof.Machine.execMemFlipArm stack v s
  | .memFlipCancel stack v => Sys2Proof.Machine.execMemFlipCancel stack v s
  | .caddyLinkUp nsze mdts => Sys2Proof.Machine.execCaddyLinkUp nsze mdts s
  | .caddyLinkDown => Sys2Proof.Machine.execCaddyLinkDown s
  | .nvmeCompletion ok data => Sys2Proof.Machine.execNvmeCompletion ok data s
  | .nvmeCmdTimeout => Sys2Proof.Machine.execNvmeCmdTimeout s
  | .caddyDeviceAccess write addr bytes => Sys2Proof.Machine.execCaddyDeviceAccess write addr bytes s
  | .preemptPin => Sys2Proof.Machine.execPreemptPin s
  | .preemptMarginExpiry => Sys2Proof.Machine.execPreemptMarginExpiry s
  | .ckpHandover w v => Sys2Proof.Machine.execCkpHandover w v s
  | .secSeal w v same => Sys2Proof.Machine.execSecSeal w v same s
  | .fwUpdate w v same => Sys2Proof.Machine.execFwUpdate w v same s
  | .fwEpochRaise w v => Sys2Proof.Machine.execFwEpochRaise w v s
  | .engTauWrite w v => Sys2Proof.Machine.execEngTauWrite w v s
  | .engSrSeedWrite w k v => Sys2Proof.Machine.execEngSrSeedWrite w k v s
  | .engSrCounterWrite w core v => Sys2Proof.Machine.execEngSrCounterWrite w core v s
  | .timCtrlWrite w v => Sys2Proof.Machine.execTimCtrlWrite w v s
  | .eventRegisterClear w addr v => Sys2Proof.Machine.execEventRegisterClear w addr v s
  | .registerWrite w addr width v => Sys2Proof.Machine.execRegisterWrite w addr width v s
  | .powerSample o => Sys2Proof.Machine.execPowerSample o s
  | .powerTrip => Sys2Proof.Machine.execPowerTrip s
  | .powerTripRelease => Sys2Proof.Machine.execPowerTripRelease s
  | .tempSample o => Sys2Proof.Machine.execTempSample o s
  | .coolantSample o => Sys2Proof.Machine.execCoolantSample o s
  | .sensorTimeout which => Sys2Proof.Machine.execSensorTimeout which s
  | .warmIdleEnter => Sys2Proof.Machine.execWarmIdleEnter s
  | .statusRead m => Sys2Proof.Machine.execStatusRead m s
  | .alertAck m => Sys2Proof.Machine.execAlertAck m s
  | .bind m => Sys2Proof.Machine.execBind m s
  | .power m => Sys2Proof.Machine.execPower m s
  | .keepWarm m => Sys2Proof.Machine.execKeepWarm m s
  | .preempt m => Sys2Proof.Machine.execPreempt m s
  | .jobFence m => Sys2Proof.Machine.execJobFence m s
  | .rollback m => Sys2Proof.Machine.execRollback m s
  | .reform m => Sys2Proof.Machine.execReform m s
  | .handover m => Sys2Proof.Machine.execHandover m s
  | .counterRead m => Sys2Proof.Machine.execCounterRead m s
  | .recoverWrite m => Sys2Proof.Machine.execRecoverWrite m s
  | .recoverCommit m => Sys2Proof.Machine.execRecoverCommit m s
  | .statusReport => Sys2Proof.Machine.execStatusReport s
  | .alertResend n => Sys2Proof.Machine.execAlertResend n s
  | .i3cPoll answers => Sys2Proof.Machine.execI3cPoll answers s
  | .sync y => Sys2Proof.Machine.execSync y s
  | .syncTimeout => Sys2Proof.Machine.execSyncTimeout s
  | .traceSample => Sys2Proof.Machine.execTraceSample s
  | .refclkLoss => Sys2Proof.Machine.execRefclkLoss s
  | .refclkReturn => Sys2Proof.Machine.execRefclkReturn s
  | .tagHoldExpiry port tag => Sys2Proof.Machine.execTagHoldExpiry port tag s
  | .inputEntersRange b => Sys2Proof.Machine.execInputEntersRange b s
  | .preemptDeadline => Sys2Proof.Machine.execPreemptDeadline s
  | .announce a => Sys2Proof.Machine.execAnnounce a s
  | .reservedOpcode core o => Sys2Proof.Machine.execReservedOpcode core o s
  | .reservedHostMessage m => Sys2Proof.Machine.execReservedHostMessage m s
  | .reservedMgtMessage m => Sys2Proof.Machine.execReservedMgtMessage m s
  | .mgtLinkUp => Sys2Proof.Machine.execMgtLinkUp s

end Sys2Proof.Machine
end

