-- ==== Sys2Proof/Safety.lean ====
section
/-! DEFINITION. The terms the statements use: the canonical form of the stores, what no command undoes, the commands that leave
memory or most of the state alone, and when a command is carried out. -/

namespace Sys2Proof.Machine

/-! ## The stores -/

/-- A step answers a next state. -/
def State.steps (s : State) : Prop := ∃ t, step s = .next t

/-- The memory is in canonical form: addresses strictly rising, and no byte listed that an unlisted one reads as. -/
def State.memWf (s : State) : Bool := Smap.wf (fun _ => (0 : Byte)) s.mem

/-- The symbol errors are in canonical form. -/
def State.errWf (s : State) : Bool := Smap.wf (fun _ => (0 : Byte)) s.memErr

/-- The critical words are in canonical form. -/
def State.critWf (s : State) : Bool := Smap.wf (fun _ => CritWord.zero) s.crit

/-- The registers are in canonical form: no register is listed with its reset value. -/
def State.regsWf (s : State) : Bool := Smap.wf regReset s.regs

/-- Memory, symbol errors and critical words are in canonical form. -/
def State.storesWf (s : State) : Bool := s.memWf && s.errWf && s.critWf

/-- `t` holds the same memory, symbol errors and critical words as `s`. -/
def State.sameStores (s t : State) : Prop := t.mem = s.mem ∧ t.memErr = s.memErr ∧ t.crit = s.crit

/-! ## What no command undoes -/

/-- From `s` to `t` the queue of commands is the same, a seal stays with its owner key hash (R543), the fused security epoch
does not fall (R547), and the fuses of manufacture stay (R462). -/
structure State.Kept (s t : State) : Prop where
  queue : t.pending = s.pending
  owner : ∀ o, s.fuse.owner = some o → t.fuse.owner = some o
  epoch : s.fuse.epoch ≤ t.fuse.epoch
  factory : t.fuse.bad = s.fuse.bad ∧ t.fuse.noSpare = s.fuse.noSpare ∧ t.fuse.erased = s.fuse.erased ∧
    t.fuse.laneRx = s.fuse.laneRx ∧ t.fuse.laneTx = s.fuse.laneTx

/-! ## Commands by what they leave alone -/

/-- Commands that store nothing in memory: sequencer and queue instructions at issue, the host's events, tests, sensors, management
reads and reports. -/
def leavesStores : Instr → Bool
  | .pwrEnAssert _ | .pwrEnDeassert | .inputOutOfRange | .ringStart | .routerTestDone _ _ | .stackReady _ _ | .waveStart
  | .failureRecordWrite _ | .mrd _ | .eack _ | .evtSend | .hostLinkDown | .hostLinkUp | .batchBoundary | .nop _ _
  | .end_ _ _ | .jump _ _ | .loop _ _ | .setlc _ _ | .dload _ _ | .dset _ _ | .wait _ _ | .signal _ _
  | .tokenSignalArrive _ _ | .barrier _ _ | .drainu _ _ | .batch _ _ | .copy _ _ | .copyh _ _ | .mm _ _ | .mmw _ _
  | .mmrs _ _ | .wgbrs _ _ | .wgbclr _ _ | .smm _ _ | .smmt _ _ | .sdwrs _ _ | .urnmerge _ _ | .pred _ _ | .smmp _ _
  | .vop _ _ | .vcvt _ _ | .vfn _ _ | .vred _ _ | .softmax _ _ | .norm _ _ | .dfo _ _ | .dsoftmax _ _ | .adamw _ _
  | .sgdm _ _ | .vrs _ _ | .tileStoreWriteback _ _ | .meshFlitReceive _ _ _ | .dmaTimeout _
  | .topHotLevelReport _ _ _ _ _ | .dieRelease _ | .pushHoldExpiry _ | .gs1RdoneTimeout _ | .sipCombineTimeout _
  | .sipLaneLoss _ | .partnerDetect _ | .helloRepeat _ | .sparePrbsExclude _ _ | .criticalRead _ _
  | .criticalWrite _ _ _ | .dieErrThreshold _ _ | .ceRateLimit _ | .scrubLapLimit _ | .rowCandidateWrite _ _
  | .caddyLinkUp _ _ | .ckpHandover _ _ | .secSeal _ _ _ | .fwUpdate _ _ _ | .fwEpochRaise _ _ | .powerSample _
  | .powerTripRelease | .tempSample _ | .coolantSample _ | .sensorTimeout _ | .warmIdleEnter | .statusRead _
  | .alertAck _ | .bind _ | .power _ | .keepWarm _ | .counterRead _ | .recoverWrite _ | .recoverCommit _ | .statusReport
  | .alertResend _ | .i3cPoll _ | .sync _ | .syncTimeout | .traceSample | .refclkReturn | .inputEntersRange _
  | .preemptDeadline | .announce _ | .reservedOpcode _ _ | .reservedHostMessage _ | .reservedMgtMessage _ | .mgtLinkUp => true
  | _ => false

/-- Commands that write no critical word. -/
def leavesCritical : Instr → Bool
  | .pwrEnAssert _ | .pwrEnDeassert | .inputOutOfRange | .ringStart | .routerTestDone _ _ | .waveStart
  | .failureRecordWrite _ | .eack _ | .evtSend | .hostLinkDown | .hostLinkUp | .batchBoundary | .tileStoreWriteback _ _
  | .topHotLevelReport _ _ _ _ _ | .dieRelease _ | .pushHoldExpiry _ | .sipCombineTimeout _ | .sipLaneLoss _
  | .partnerDetect _ | .helloRepeat _ | .sparePrbsExclude _ _ | .memoryRead _ _ | .memoryWrite _ _ _
  | .dieErrThreshold _ _ | .ceRateLimit _ | .scrubLapLimit _ | .rowCandidateWrite _ _ | .caddyLinkUp _ _
  | .caddyDeviceAccess _ _ _ | .secSeal _ _ _ | .fwUpdate _ _ _ | .fwEpochRaise _ _ | .powerSample _ | .powerTripRelease
  | .tempSample _ | .coolantSample _ | .sensorTimeout _ | .warmIdleEnter | .statusRead _ | .alertAck _ | .bind _
  | .power _ | .keepWarm _ | .counterRead _ | .recoverWrite _ | .recoverCommit _ | .statusReport | .alertResend _
  | .i3cPoll _ | .sync _ | .syncTimeout | .traceSample | .refclkReturn | .inputEntersRange _ | .preemptDeadline
  | .announce _ | .reservedHostMessage _ | .reservedMgtMessage _ | .mgtLinkUp => true
  | _ => false

/-- Commands that reach neither power, dies, regions, configuration, flash, fuses nor the security, thermal and time state. -/
def leavesModule : Instr → Bool
  | .mrd _ | .eack _ | .evtSend | .hostLinkDown | .hostLinkUp | .nop _ _ | .jump _ _ | .loop _ _ | .setlc _ _
  | .dload _ _ | .dset _ _ | .wait _ _ | .drainu _ _ | .copy _ _ | .copyh _ _ | .wreq _ _ | .wdone _ _ | .publish _ _
  | .mm _ _ | .mmw _ _ | .mmrs _ _ | .wgbrs _ _ | .wgbclr _ _ | .sdwrs _ _ | .urnmerge _ _ | .pred _ _ | .smmp _ _
  | .vop _ _ | .vcvt _ _ | .vfn _ _ | .vred _ _ | .softmax _ _ | .norm _ _ | .dfo _ _ | .dsoftmax _ _ | .adamw _ _
  | .sgdm _ _ | .vrs _ _ | .rxwait _ _ | .sipred _ _ | .chkrd _ _ | .waitTimeout _ _ | .tileStoreWriteback _ _
  | .dmaTimeout _ | .topHotLevelReport _ _ _ _ _ | .wreqAccept _ | .wget _ | .wdata _ _ | .wpush _ _
  | .attemptTimeout _ _ | .followTimeout _ | .pushHoldExpiry _ | .chunkDeliver _ | .wack _ _ | .wpubTimeout _ _
  | .stageVersion _ _ | .stageCancel _ _ | .manifestRetry | .stageLimitExpiry | .rchunk _ _ | .rresend _ _ | .rdone _ _
  | .ctxTimeout _ _ | .gs1RdoneTimeout _ | .gform _ _ | .formLimitExpiry _ _ | .groupReform _ _ | .sipGroupReform _ _
  | .sipFlitReceive _ _ _ _ | .sipCombineTimeout _ | .sipNak _ _ | .siphello _ _ _ | .sipTrainComplete _
  | .sipLaneLoss _ | .govExchangeResult _ | .partnerDetect _ | .portTrainComplete _ _ _ _ | .hello _ _ | .helloRepeat _
  | .ackTimeout _ | .laneSymThreshold _ _ | .sparePrbsExclude _ _ | .fastRetrainComplete _ _ | .fastRetrainTimeout _
  | .cplReceive _ _ | .jfence _ _ | .jfenceDone _ _ | .jfenceTimeout _ | .bcopy _ _ | .back _ _ | .bcopyTimeout _
  | .fullRetrain _ _ | .fastRetrain _ _ | .portDisable _ _ | .portEnable _ _ | .sipRetrain _ _ | .lnkTest _ _
  | .memoryRead _ _ | .memoryWrite _ _ _ | .criticalRead _ _ | .criticalWrite _ _ _ | .dieErrThreshold _ _
  | .ceRateLimit _ | .scrubRead _ _ | .scrubLapLimit _ | .caddyLinkUp _ _ | .caddyDeviceAccess _ _ _ | .ckpHandover _ _
  | .powerTripRelease | .statusRead _ | .alertAck _ | .bind _ | .power _ | .keepWarm _ | .reform _ | .handover _
  | .counterRead _ | .recoverWrite _ | .statusReport | .alertResend _ | .i3cPoll _ | .traceSample | .tagHoldExpiry _ _
  | .preemptDeadline | .reservedOpcode _ _ | .reservedHostMessage _ | .reservedMgtMessage _ | .mgtLinkUp => true
  | _ => false

/-- Commands whose effect is registers, messages, records and the issuing core alone. -/
def leavesMost : Instr → Bool
  | .eack _ | .evtSend | .hostLinkDown | .hostLinkUp | .nop _ _ | .jump _ _ | .loop _ _ | .setlc _ _ | .dset _ _
  | .wait _ _ | .drainu _ _ | .copy _ _ | .copyh _ _ | .mm _ _ | .mmw _ _ | .mmrs _ _ | .wgbrs _ _ | .wgbclr _ _
  | .sdwrs _ _ | .urnmerge _ _ | .pred _ _ | .smmp _ _ | .vop _ _ | .vcvt _ _ | .vfn _ _ | .vred _ _ | .softmax _ _
  | .norm _ _ | .dfo _ _ | .dsoftmax _ _ | .adamw _ _ | .sgdm _ _ | .vrs _ _ | .tileStoreWriteback _ _ | .dmaTimeout _
  | .topHotLevelReport _ _ _ _ _ | .gs1RdoneTimeout _ | .partnerDetect _ | .sparePrbsExclude _ _ | .criticalRead _ _
  | .criticalWrite _ _ _ | .ceRateLimit _ | .powerTripRelease | .statusRead _ | .alertAck _ | .bind _ | .power _
  | .keepWarm _ | .counterRead _ | .recoverWrite _ | .statusReport | .alertResend _ | .i3cPoll _ | .traceSample
  | .preemptDeadline | .reservedOpcode _ _ | .reservedHostMessage _ | .reservedMgtMessage _ | .mgtLinkUp => true
  | _ => false

/-! ## Issue -/

/-- The word at the program counter of core `i` is `op`, and nothing holds its issue or ends it (R127, R130, R134): the core can
issue, its reads are voted, no field that must be zero is set, and every token it waits for is held. -/
structure State.Issues (s : State) (op : Op) (i : Nat) (o : IssueObs) : Prop where
  can : s.canIssue i = true
  is : Op.ofCode (iOpcode (s.core i).word) = some op
  voted : o.vote ≠ .noMajority
  clean : wordClean (usesOf op (s.core i).word) (s.core i).word = true
  met : tokensMet (s.core i).tok (s.core i).word = true

/-- The signal of the word finds room in its token (R130). -/
def Core.signalRoom (c : Core) : Prop := iSignalEn c.word = true → nth 0 (takeTokens c.tok c.word) (iSignal c.word) < 65535

/-- The tokens once the word has issued and completed with OK: waits taken, its signal added. -/
def Core.tokensAfter (c : Core) : List Nat :=
  let t := takeTokens c.tok c.word
  if iSignalEn c.word then setNth t (iSignal c.word) (nth 0 t (iSignal c.word) + 1) else t

/-- The core after an instruction that the sequencer completes with OK, its program counter at `next`. -/
def Core.completed (c : Core) (next : Nat) : Core :=
  { c with tok := c.tokensAfter, pc := next % 16384, st := .running, waits := .none }

/-- The core after an instruction that goes to queue `q` as `e`. -/
def Core.queued (c : Core) (q : Nat) (e : QEntry) : Core :=
  { c with tok := takeTokens c.tok c.word, pc := (c.pc + 1) % 16384, st := .running, waits := .none, queues := modNth c.queues q (· ++ [e]) }

/-- Every core but `i` is as it was. -/
def State.otherCores (s t : State) (i : Nat) : Prop := ∀ j, j ≠ i → t.core j = s.core j

/-- The entry of an instruction that goes to its queue at issue (R126, R127): the word, its address and number, the copies of the
descriptor entries it names, and the status its check gives it. -/
def State.issuedEntry (s : State) (op : Op) (check : State → Nat → BitVec 128 → List (BitVec 256) → Status) (i : Nat) : QEntry :=
  { word := (s.core i).word, pc := (s.core i).pc, seq := (s.advance i ((s.core i).pc + 1)).2.instrs i
    d := (s.core i).copies op (s.core i).word, item := 0, acc := []
    status := check s i (s.core i).word ((s.core i).copies op (s.core i).word), replaying := false
    fr := (s.advance i ((s.core i).pc + 1)).2.freeIx, aux := 0, data := [], ahead := .none }

/-- The state in which an instruction that nothing holds runs: the voted reads of its word, entries and tokens are counted (R134). -/
def State.voted (s : State) (op : Op) (i : Nat) (o : IssueObs) : State :=
  s.countVotes i (votedReads op (s.core i).word) o.vote

/-- `r` is a next state in which core `i` is `c` and every other core is as in `s`. -/
def State.leadsTo (s : State) (r : Next) (i : Nat) (c : Core) : Prop := ∃ t, r = .next t ∧ t.core i = c ∧ s.otherCores t i

/-! ## Arrivals -/

/-- A message of the host link that R408 lets through: the link is up, head and length obey R405 and R406, it has the type, and its
tag, if it carries one, is free. -/
structure State.HostHears (s : State) (m : HostMsg) (type : Nat) : Prop where
  up : s.host.linkUp = true
  good : msgBad m = false
  kind : m.type = type
  free : s.host.tags.contains m.tag = false

/-- The command that a CMD carries. -/
def hostCmd (m : HostMsg) : Cmd := { code := cmdCode m, tag := m.tag, body := m.payload, prog := 0, data := [] }

/-- The state in which the command of a CMD starts: its tag is outstanding, and it runs in its queue. -/
def State.taken (s : State) (m : HostMsg) : State :=
  State.setCmdq { s with host := { s.host with tags := s.host.tags ++ [m.tag] } } m.queue
    { s.cmdq m.queue with running := some (hostCmd m), waiting := [] }

/-- A CMD that starts when it arrives (R408, R412): no command waits in any of the 16 queues and its own is idle. -/
structure State.Takes (s : State) (m : HostMsg) (code : Nat) : Prop where
  hears : s.HostHears m 3
  kind : cmdCode m = code
  queues : s.host.queues.length = 16
  quiet : ∀ x ∈ s.host.queues, x.waiting = []
  idle : (s.cmdq m.queue).running = none
  body : (hostCmd m).bodyOk = true

/-- The state in which an accepted command but ATTEST has its effect: WARM_IDLE has ended (R565). -/
def State.begun (s : State) (m : HostMsg) : State := (s.taken m).leaveWarm

/-- The module state accepts the command (R413). -/
def State.accepts (s : State) (m : HostMsg) : Prop := (hostCmd m).accepted (s.taken m).workState = true

/-- HELLO, JFENCE and JFENCE_DONE need no job and no topology (R349). -/
def baseType (t : Nat) : Bool := [mHello, mJfence, mJfenceDone].contains t

/-- A message that R349 lets through on an ACTIVE port: well formed, of the port's job, allowed by its role, and addressed to its
rank. -/
structure State.PortHears (s : State) (p : Nat) (m : Msg) (type : Nat) : Prop where
  port : p < 16
  kind : m.type.toNat = type
  active : s.portState p = psActive
  good : msgOk m = true
  job : if m.job = 0 then baseType type = true else m.job.toNat = s.portJob p
  role : roleAllows (s.portRole p) type = true
  topo : s.topoMatch p = true ∨ baseType type = true ∨ type = mCpl
  rank : m.dst.toNat = s.rfield .lnkPort p Reg.LNK_ROLE 47 32 ∨ rankFree type = true

/-- A request of the management port that R574 to R577 let through: the module is powered and its link up, magic and serial are its
own, no reply to the seq is kept and no JOB_FENCE of that seq runs, it comes from the bound manager where a job is open, it is
well formed, of version 1, and accepted in the module's state. -/
structure State.MgtHears (s : State) (m : MgtMsg) (type : Nat) : Prop where
  powered : s.powered = true
  up : s.mgtUp = true
  addressed : gAddressed m = true
  kind : m.type.toNat = type
  fresh : s.keptReply m = none
  once : ∀ x, s.mgt.fence = some x → x.src = m.src → x.seq ≠ m.seq
  own : s.gForeign m = false
  form : m.rsvd = false ∧ m.length = m.body.length ∧ m.length ≤ 1200 ∧ gBodyOk type m.body = true
  version : m.version = 1
  accepted : s.gAccepts type = true

/-- The state in which a request has its effect: counted and traced, and WARM_IDLE ended but by STATUS_READ (R565). -/
def State.mgtHeard (s : State) (m : MgtMsg) : State :=
  let t := m.type.toNat
  let u := s.add .mgtMod 0 Reg.MGT_RX 1
  (if t = gStatusRead then u else u.leaveWarm).trace 8 19 7 0 (leBytes 1 t ++ zeros 3 ++ leBytes 4 m.seq.toNat)

/-- After a write of a register: its status goes back to the writer, and what waits for the stream queues goes on. -/
def State.wrote (r : Status × State) : State := (r.2.answer r.1).settleStreams

end Sys2Proof.Machine
end

