-- ==== Sys2Proof/Certificates/Slice0/Obligations.lean ====
section
/-! DEFINITION. The statements about the model, for the provers. Each docstring says what the statement says and the rules it
rests on. -/

open Sys2Proof Sys2Proof.Machine

/-- For every command c, queue q and state s: if the queue of s is c followed by q, a step at s is exec of c on s with its
queue set to q. The queue is the model's own (log entry 88). (spec/00_scope.md) -/
def Obligations.StepRunsFrontCommand : Prop :=
  ∀ (c : Instr) (q : List Instr) (s : State), s.pending = c :: q → step s = exec c { s with pending := q }

/-- For every state with an empty queue, a step answers the state after one cycle of the reference clock, with the queue
still empty; before the service rail is good nothing changes. That a step with an empty queue is a cycle is the model's
choice (log entry 2). (R583) -/
def Obligations.IdleStepIsOneClockCycle : Prop :=
  ∀ s : State, s.pending = [] →
  step s = .next s.tick ∧ s.tick.pending = [] ∧ (s.tim.started = false → s.tick = s)

/-- For every command and every state exec answers a next state: no command ends in a fault or a refusal of the model.
Malformed, denied and stale commands are answered as the spec says, in a next state. (R12, R13) -/
def Obligations.EveryCommandAnswersNext : Prop :=
  ∀ (c : Instr) (s : State), ∃ t, exec c s = .next t

/-- The state after reset: the module is COLD, no job is open, no command waits, no rail of any die is on, every byte of
memory reads 0, and every register but TOP_STATE (which holds the COLD state) reads the reset value of its table. Memory that
reads 0 is the model's choice (log entry 4). (R459, R476, R556) -/
def Obligations.ResetIsColdWithRegistersAtReset : Prop :=
  State.reset.topState = stCold ∧ State.reset.job.isOpen = false ∧ State.reset.pending = [] ∧
  (∀ d, State.reset.die d = Die.off) ∧ (∀ a, State.reset.byteAt a = 0) ∧
  ∀ a, a ≠ blockBase .topMod 0 + Reg.TOP_STATE → State.reset.peekAddr a = regReset a

/-- Memory, symbol errors and critical words of the state after reset are in canonical form, so the invariant of
StepKeepsStoresCanonical holds there. (spec/11_bonded_memory.md) -/
def Obligations.ResetStoresAreCanonical : Prop :=
  State.reset.storesWf = true

/-- From every state whose memory, symbol errors and critical words are in canonical form (keys strictly rising, nothing
listed that reads as an unlisted entry), every step that answers a next state, whatever command is at the front, leaves them
in canonical form. Equal contents are therefore equal data. (spec/11_bonded_memory.md, R382) -/
def Obligations.StepKeepsStoresCanonical : Prop :=
  ∀ s t : State, s.storesWf = true → step s = .next t → t.storesWf = true

/-- For every command and every state, the next state that exec answers has the same queue of waiting commands; if the module
was sealed, it is sealed with the same owner key hash; its fused security epoch is not lower; its bad-core, no-spare, erased-
die and lane fuses are the same. (R462, R543, R547) -/
def Obligations.ExecKeepsQueueSealAndFuses : Prop :=
  ∀ (c : Instr) (s t : State), exec c s = .next t → s.Kept t

/-- For every state and the state a step answers: the queue is the old one without its front command; a seal stays with its
owner key hash; the fused security epoch does not fall. With an empty queue the queue stays empty. (R543, R547) -/
def Obligations.StepKeepsSealAndTakesOneCommand : Prop :=
  ∀ s t : State, step s = .next t → t.pending = s.pending.tail ∧ s.fuse.epoch ≤ t.fuse.epoch ∧
  ∀ o, s.fuse.owner = some o → t.fuse.owner = some o

/-- For every command that leavesStores names (instructions at issue, the host's event acknowledgements, tests of bring-up,
sensors, time, management reads and reports) and every state: in the next state every byte of the module address space and
every symbol error is as before. For every command that leavesCritical names, every critical word is as before. (R114, R127,
R407, R415) -/
def Obligations.CommandsThatStoreNothingLeaveMemory : Prop :=
  ∀ (c : Instr) (s t : State), exec c s = .next t →
  (leavesStores c = true → (∀ a, t.byteAt a = s.byteAt a) ∧ t.memErr = s.memErr) ∧ (leavesCritical c = true → t.crit = s.crit)

/-- For every command that leavesModule names and every state: in the next state the fuses, flash, loaded Blend, dies,
clusters, regions, signals under way, takeovers, registers pending a boundary, and the security, thermal, time and bring-up
state are as before. (R127, R407, R415, R578) -/
def Obligations.CommandsThatLeaveTheModuleAlone : Prop :=
  ∀ (c : Instr) (s t : State), leavesModule c = true → exec c s = .next t →
  t.fuse = s.fuse ∧ t.flash = s.flash ∧ t.blend = s.blend ∧ t.dies = s.dies ∧ t.clusters = s.clusters ∧ t.regions = s.regions ∧
  t.sigs = s.sigs ∧ t.takeovers = s.takeovers ∧ t.top = s.top ∧
  t.pendRegs = s.pendRegs ∧ t.sec = s.sec ∧ t.ktl = s.ktl ∧ t.tim = s.tim

/-- For every command that leavesMost names (instructions that only issue, the host's event traffic, management requests that
only report or set a management field) and every state: in the next state memory, stacks, ports, groups and Sip units,
weights, clusters, dies, regions, Blend, flash, fuses and the checkpoint, security, thermal and time state are as before.
(R127, R415, R578) -/
def Obligations.CommandsThatLeaveMostAlone : Prop :=
  ∀ (c : Instr) (s t : State), leavesMost c = true → exec c s = .next t →
  t.mem = s.mem ∧ t.memErr = s.memErr ∧ t.stackSt = s.stackSt ∧ t.ports = s.ports ∧ t.coll = s.coll ∧ t.wts = s.wts ∧
  t.clusters = s.clusters ∧ t.dies = s.dies ∧ t.regions = s.regions ∧ t.sigs = s.sigs ∧ t.takeovers = s.takeovers ∧
  t.top = s.top ∧ t.blend = s.blend ∧ t.flash = s.flash ∧ t.fuse = s.fuse ∧ t.pendRegs = s.pendRegs ∧ t.ckp = s.ckp ∧
  t.sec = s.sec ∧ t.ktl = s.ktl ∧ t.tim = s.tim

/-- When 48 V leaves the range, the next state is COLD, no rail of any die is on, and flash and fuses are as before. Whatever
else two modules held (memory, registers, jobs, cores, ports, weights, time), two with equal flash and fuses come to the same
state: nothing else is kept. The model's own fields (queue, free-value counter, what was sent) and the inputs PWR_EN and
reference clock are taken equal. (R556) -/
def Obligations.PowerLossKeepsOnlyFlashAndFuses : Prop :=
  (∀ s : State, ∃ t, exec .inputOutOfRange s = .next t ∧ t.topState = stCold ∧ (∀ d, (t.die d).rails = 0) ∧
    t.flash = s.flash ∧ t.fuse = s.fuse) ∧
  ∀ s u : State, s.flash = u.flash → s.fuse = u.fuse →
    s.pending = u.pending → s.freeIx = u.freeIx → s.out = u.out → s.tim.refclk = u.tim.refclk → s.top.pwrEn = u.top.pwrEn →
    exec .inputOutOfRange s = exec .inputOutOfRange u

/-- When a ready stack's corrected reads exceed the limit within a second, the next state is the one with MEM_EVENT.ce_rate
(bit 7) of that stack raised and condition 3 of DEGRADED (TOP_HEALTH bit 3) entered; a stack that is not ready has no reads
and nothing changes. (R390) -/
def Obligations.CorrectableRateDegrades : Prop :=
  ∀ (n : Nat) (s : State),
  ((s.stack n).ready = true → exec (.ceRateLimit n) s = .next ((s.raise .memDie n Reg.MEM_EVENT 7).degrade 3)) ∧
  ((s.stack n).ready = false → exec (.ceRateLimit n) s = .next s)

/-- For every state, core and observation: where the instruction at the program counter is the row's and nothing holds its
issue, the next word lies in the program and its signal finds room, exec answers a next state. The core has taken its waits,
added its signal, and its program counter is: the next word; for JUMP imm[13:0]; for LOOP imm[13:0] if the counter was above
1, otherwise the next word, with the counter one lower (0 stays 0). SETLC sets the counter, DSET the one field of the entry.
WAIT needs imm[15:0] not 0, DRAINU empty queues. Every other field of the core, and every other core, is as before. (R127,
R130, R143, R145, R146, R147) -/
def Obligations.SequencerInstructionsComplete : Prop :=
  ∀ (s : State) (i : Nat) (o : IssueObs), (s.core i).signalRoom →
  let c := s.core i
  let w := c.word
  let n := c.prog.length
  (s.Issues .nop i o → c.pc + 1 < n → s.leadsTo (exec (.nop i o) s) i (c.completed (c.pc + 1))) ∧
  (s.Issues .jump i o → iImm w % 16384 < n → s.leadsTo (exec (.jump i o) s) i (c.completed (iImm w % 16384))) ∧
  (s.Issues .loop i o →
    let v := nth 0 c.lc (iFunc w % 4)
    let next := if 1 < v then iImm w % 16384 else c.pc + 1
    next < n → s.leadsTo (exec (.loop i o) s) i { c.completed next with lc := setNth c.lc (iFunc w % 4) (v - 1) }) ∧
  (s.Issues .setlc i o → c.pc + 1 < n →
    s.leadsTo (exec (.setlc i o) s) i { c.completed (c.pc + 1) with lc := setNth c.lc (iFunc w % 4) (iImm w) }) ∧
  (s.Issues .dset i o → c.pc + 1 < n → ∀ d, dsetEntry (iFunc w) (iImm w) (c.entryOf (iDst w)) = some d →
    s.leadsTo (exec (.dset i o) s) i { c.completed (c.pc + 1) with work := Smap.set 0 c.work (iDst w) d }) ∧
  (s.Issues .wait i o → c.pc + 1 < n → iImm w % 65536 ≠ 0 → s.leadsTo (exec (.wait i o) s) i (c.completed (c.pc + 1))) ∧
  (s.Issues .drainu i o → c.pc + 1 < n → (∀ q, q < 4 → (iFunc w).testBit q = true → nth [] c.queues q = []) →
    s.leadsTo (exec (.drainu i o) s) i (c.completed (c.pc + 1)))

/-- For every state, core and observation: where the row's instruction is at the program counter, nothing holds its issue,
its queue has room (fewer than 8) and the next word lies in the program, exec answers a next state in which the core has
taken its waits, its program counter is one further, and its queue (0 engine, 1 vector) ends with the instruction's entry:
its word and index, copies of the entries it names, and the status its operand check gives. Every other field of the core,
and every other core, is as before. The rows: MM, MMW, MMRS, WGBRS, WGBCLR, SDWRS, PRED, SMMP, VOP, VCVT, VFN, VRED, SOFTMAX,
NORM, DFO, DSOFTMAX, ADAMW, SGDM, VRS. (R126, R127, R130, R149, R150) -/
def Obligations.QueueInstructionsIssue : Prop :=
  ∀ (s : State) (i : Nat) (o : IssueObs), (s.core i).pc + 1 < (s.core i).prog.length →
  let enters (op : Op) (q : Nat) (check : State → Nat → BitVec 128 → List (BitVec 256) → Status) (row : Instr) : Prop :=
    s.Issues op i o → s.queueFull i q = false →
      s.leadsTo (exec row s) i ((s.core i).queued q ((s.voted op i o).issuedEntry op check i))
  enters .mm 0 mmCheck (.mm i o) ∧ enters .mmw 0 mmwCheck (.mmw i o) ∧ enters .mmrs 0 mmrsCheck (.mmrs i o) ∧
  enters .wgbrs 0 wgbrsCheck (.wgbrs i o) ∧ enters .wgbclr 0 wgbclrCheck (.wgbclr i o) ∧ enters .sdwrs 0 sdwrsCheck (.sdwrs i o) ∧
  enters .pred 0 predCheck (.pred i o) ∧ enters .smmp 0 smmpCheck (.smmp i o) ∧
  enters .vop 1 vopCheck (.vop i o) ∧ enters .vcvt 1 vcvtCheck (.vcvt i o) ∧ enters .vfn 1 vfnCheck (.vfn i o) ∧
  enters .vred 1 vredCheck (.vred i o) ∧ enters .softmax 1 softmaxCheck (.softmax i o) ∧ enters .norm 1 normCheck (.norm i o) ∧
  enters .dfo 1 dfoCheck (.dfo i o) ∧ enters .dsoftmax 1 dsoftmaxCheck (.dsoftmax i o) ∧ enters .adamw 1 optCheck (.adamw i o) ∧
  enters .sgdm 1 optCheck (.sgdm i o) ∧ enters .vrs 1 vrsCheck (.vrs i o)

/-- For every state, core and observation: where COPY or COPYH is at the program counter, nothing holds its issue, the DMA
queue has room, the next word lies in the program and copy-before-overwrite does not hold it, exec answers a next state in
which the core has taken its waits, its program counter is one further and queue 2 ends with the instruction's entry; every
other core is as before. For COPYH, once the queue has taken it, the shard-hash entry named by imm[15:0] is listed. (R126,
R127, R149, R150, R513) -/
def Obligations.CopyInstructionsIssue : Prop :=
  ∀ (s : State) (i : Nat) (o : IssueObs), (s.core i).pc + 1 < (s.core i).prog.length → s.queueFull i 2 = false →
  (s.Issues .copy i o → (s.voted .copy i o).copyWaits i = false →
    s.leadsTo (exec (.copy i o) s) i ((s.core i).queued 2 ((s.voted .copy i o).issuedEntry .copy copyCheck i))) ∧
  (s.Issues .copyh i o → (s.voted .copyh i o).copyWaits i = false →
    ∃ t, exec (.copyh i o) s = .next t ∧
      t.core i = (s.core i).queued 2 ((s.voted .copyh i o).issuedEntry .copyh copyhCheck i) ∧ s.otherCores t i ∧
      ((nth [] (s.core i).queues 2).length < (nth [] (t.core i).queues 2).length →
        t.job.slices.any (fun x => decide (x.1 = iImm (s.core i).word % 65536)) = true))

/-- For every state, core and observation: where the row's instruction is at the program counter, nothing holds its issue,
its queue has room and the next word lies in the program, there is a state u in which the core has taken its waits, its
program counter is one further and the queue (0 engine, 3 stream) ends with the instruction's entry, every other core as
before; and exec answers u for URNMERGE, u after the instruction has met its Urn session for SMM and SMMT, and u after what
waits in the module for the stream queues has gone on for WREQ, WDONE, PUBLISH, RXWAIT and SIPRED. (R126, R127, R151, R166,
R167, R225, R235) -/
def Obligations.SparseAndStreamInstructionsIssue : Prop :=
  ∀ (s : State) (i : Nat) (o : IssueObs), (s.core i).pc + 1 < (s.core i).prog.length →
  let enters (op : Op) (q : Nat) (check : State → Nat → BitVec 128 → List (BitVec 256) → Status) (row : Instr)
      (then_ : State → State) : Prop :=
    s.Issues op i o → s.queueFull i q = false →
      ∃ u, u.core i = (s.core i).queued q ((s.voted op i o).issuedEntry op check i) ∧ s.otherCores u i ∧ exec row s = .next (then_ u)
  enters .smm 0 smmCheck (.smm i o) (fun u => s.urnIssue u i) ∧ enters .smmt 0 smmCheck (.smmt i o) (fun u => s.urnIssue u i) ∧
  enters .urnmerge 0 (fun s i w d => (urnmergeCheck s i w d).join (if s.urnQueued (s.homeCluster i) then .busy else .ok))
    (.urnmerge i o) id ∧
  enters .wreq 3 wreqCheck (.wreq i o) State.settleStreams ∧ enters .wdone 3 wdoneCheck (.wdone i o) State.settleStreams ∧
  enters .publish 3 publishCheck (.publish i o) State.settleStreams ∧
  enters .rxwait 3 rxwaitCheck (.rxwait i o) State.settleStreams ∧ enters .sipred 3 sipredCheck (.sipred i o) State.settleStreams

/-- For every state, core in service and observation: where END is at the program counter and nothing holds it, exec answers
a next state in which the core has ended issue, its program counter unchanged: its sequencer is ENDED if its queues are
empty, otherwise it still runs; every other core is as before, and the core's bit is set among its cluster's ended cores.
(R127, R132) -/
def Obligations.EndStopsIssue : Prop :=
  ∀ (s : State) (i : Nat) (o : IssueObs), s.Issues .end_ i o →
  let c := s.core i
  ∃ t, exec (.end_ i o) s = .next t ∧ s.otherCores t i ∧
    t.core i = { c with ending := true, waits := .none, st := if c.queues.all (·.isEmpty) then .ended else .running } ∧
    (t.cluster (s.homeCluster i)).endedMask = (s.cluster (s.homeCluster i)).endedMask ||| 2 ^ s.maskBit i

/-- For every state, core and observation: where BATCH is at the program counter, nothing holds its issue, the next word lies
in the program and its signal finds room, exec answers a next state in which the core has completed the instruction and lists
imm among the batches it has executed; every other core is as before. (R127, R148) -/
def Obligations.BatchIsMarked : Prop :=
  ∀ (s : State) (i : Nat) (o : IssueObs), s.Issues .batch i o → (s.core i).signalRoom → (s.core i).pc + 1 < (s.core i).prog.length →
  s.leadsTo (exec (.batch i o) s) i
    { (s.core i).completed ((s.core i).pc + 1) with batches := (s.core i).batches ++ [iImm (s.core i).word] }

/-- For every state, core and observation: where SIGNAL is at the program counter, nothing holds its issue, imm[7:0] is not
0, the target is a core of the wafer and the next word lies in the program, exec answers a next state with the signal
(source, target, token func[3:0], count imm[7:0]) as the newest under way; the core has taken its waits and its program
counter is one further, its own signal still to come at the acknowledgement; every other core is as before. (R127, R146) -/
def Obligations.SignalLeavesForItsTarget : Prop :=
  ∀ (s : State) (i : Nat) (o : IssueObs), s.Issues .signal i o → (s.core i).pc + 1 < (s.core i).prog.length →
  iImm (s.core i).word % 256 ≠ 0 → isCore (iCore (s.core i).word) = true →
  let w := (s.core i).word
  ∃ t g, exec (.signal i o) s = .next t ∧ t.sigs = s.sigs ++ [g] ∧ g.src = i ∧ g.target = iCore w ∧ g.tok = iFunc w % 16 ∧
    g.count = iImm w % 256 ∧ s.otherCores t i ∧
    t.core i = { s.core i with
      tok := takeTokens (s.core i).tok w, pc := ((s.core i).pc + 1) % 16384, st := .running, waits := .none }

/-- For every state, core not yet waiting at a barrier and observation, where BARRIER is at the program counter, nothing
holds it and no barrier with another imm is open: with func 0, if some core of the cluster with a program has not arrived,
the core waits and the cluster's barrier is open under imm with its arrival added; if it is the last, every core of the
cluster with a program that waits at the barrier, this core among them, completes its BARRIER, provided each has a next word
and room for its signal. With func 1 the same over the region. (R127, R147) -/
def Obligations.BarrierHoldsAndReleases : Prop :=
  ∀ (s : State) (i : Nat) (o : IssueObs), s.Issues .barrier i o → (s.core i).waits ≠ .barrier →
  let c := s.core i
  let id := iImm c.word % 65536
  let fits (cores : List Nat) : Prop := ∀ j ∈ cores, (s.core j).pc + 1 < (s.core j).prog.length ∧ (s.core j).signalRoom
  let passes (cores : List Nat) : Prop :=
    ∃ t, exec (.barrier i o) s = .next t ∧ t.core i = c.completed (c.pc + 1) ∧
      ∀ j ∈ cores, j ≠ i → (s.core j).waits = .barrier → t.core j = (s.core j).completed ((s.core j).pc + 1)
  (iFunc c.word = 0 →
    let h := s.homeCluster i
    let mask := (s.cluster h).barArrived ||| 2 ^ s.maskBit i
    ((s.cluster h).barOpen = true → (s.cluster h).barId = id) →
    ((∃ j ∈ s.clusterProg h, mask.testBit (s.maskBit j) = false) →
      ∃ t, exec (.barrier i o) s = .next t ∧ t.core i = { c with st := .waiting, waits := .barrier } ∧ s.otherCores t i ∧
        t.cluster h = { s.cluster h with barOpen := true, barId := id, barArrived := mask }) ∧
    (i ∈ s.clusterProg h → (∀ j ∈ s.clusterProg h, mask.testBit (s.maskBit j) = true) → fits (s.clusterProg h) →
      passes (s.clusterProg h))) ∧
  (iFunc c.word = 1 →
    let r := (s.coreRegion i).getD 256
    let got := if (s.region r).barArrived.contains i then (s.region r).barArrived else (s.region r).barArrived ++ [i]
    ((s.region r).barOpen = true → (s.region r).barId = id) →
    ((∃ j ∈ s.regionProg i, got.contains j = false) →
      ∃ t, exec (.barrier i o) s = .next t ∧ t.core i = { c with st := .waiting, waits := .barrier } ∧ s.otherCores t i ∧
        t.region r = { s.region r with barOpen := true, barId := id, barArrived := got }) ∧
    (i ∈ s.regionProg i → (∀ j ∈ s.regionProg i, got.contains j = true) → fits (s.regionProg i) → passes (s.regionProg i)))

/-- For every state, core and observation: where DLOAD is at the program counter, nothing holds it, its count n is 1 to 256
with dst + n at most 256, its source lies in the core's own tile store, every read of it decodes without correction, the next
word lies in the program and its signal finds room, exec answers a next state in which the core has completed and entries dst
to dst + n - 1 of its working copy hold the 32-byte entries that lie at the source; every other core is as before. (R127,
R144) -/
def Obligations.DloadFillsTheWorkingCopy : Prop :=
  ∀ (s : State) (i : Nat) (o : IssueObs) (x : Tensor), s.Issues .dload i o → (s.core i).signalRoom →
  (s.core i).pc + 1 < (s.core i).prog.length → o.double = false → o.corrected = [] →
  let c := s.core i
  let n := iImm c.word % 512
  parseTensor (s.voted .dload i o).govFormat (c.entryOf (iSrc0 c.word)) = some x →
  1 ≤ n → n ≤ 256 → iDst c.word + n ≤ 256 → ownRange i x.base (32 * n) = true →
  s.leadsTo (exec (.dload i o) s) i
    { c.completed (c.pc + 1) with work := loadEntries c.work (iDst c.word) (chunksOf 32 (getBytes s.mem x.base (32 * n))) }

/-- For every state, core and observation: where CHKRD is at the program counter, nothing holds it, its func is 0 to 2
(chkrdBytes then gives the 64 bytes), its dst lies in the core's own tile store, the next word lies in the program and its
signal finds room, exec answers a next state in which the program counter is one further and the memory is the old one with
those bytes at the dst's base. (R127, R168) -/
def Obligations.ChkrdWritesItsBytes : Prop :=
  ∀ (s : State) (i : Nat) (o : IssueObs) (x : Tensor) (bs : List Byte), s.Issues .chkrd i o → (s.core i).signalRoom →
  (s.core i).pc + 1 < (s.core i).prog.length →
  parseTensor (s.voted .chkrd i o).govFormat ((s.core i).entryOf (iDst (s.core i).word)) = some x →
  (s.voted .chkrd i o).chkrdBytes i (iFunc (s.core i).word) = some bs → ownRange i x.base 64 = true →
  ∃ t, exec (.chkrd i o) s = .next t ∧ t.mem = putBytes s.mem x.base bs ∧ (t.core i).pc = ((s.core i).pc + 1) % 16384 ∧
    s.otherCores t i

/-- For every state, core and observation with a voted read: where the core can issue and the word at its program counter has
an opcode that no instruction carries, exec answers the state in which the instruction has completed with MALFORMED. (R12,
R170) -/
def Obligations.ReservedOpcodeIsMalformed : Prop :=
  ∀ (s : State) (i : Nat) (o : IssueObs), s.canIssue i = true → Op.ofCode (iOpcode (s.core i).word) = none → o.vote ≠ .noMajority →
  exec (.reservedOpcode i o) s = .next ((s.countVotes i 1 o.vote).seqDone i .malformed ((s.core i).pc + 1))

/-- For every state and boot observation, the second of PWR_EN and 48 V in range answers a next state that rests on flash and
fuses alone: no memory, no core, no die powered by the cores' rail, the timebase started. With a firmware slot that starts
(k), a fuse map with a majority and a default Blend that verifies, the module is in BRINGUP phase 2 with PWR_GOOD and slot k;
with no slot it is SAFE with cause 1 and every converter off; with no fuse majority SAFE with cause 2; with no default Blend
SAFE with cause 3, and health FAILED in both. With the other condition missing, the first of the two is only noted. (R459,
R461, R472, R473, R600) -/
def Obligations.PowerOnStartsBringup : Prop :=
  ∀ (s : State) (b : BootObs),
  let up (t : State) : Prop :=
    t.mem = [] ∧ t.cores = [] ∧ t.flash = s.flash ∧ t.fuse = s.fuse ∧ t.tim.started = true ∧ t.top.pwrEn = true ∧ t.top.inRange = true ∧
    match s.bootSlot b with
    | none => t.topState = stSafe ∧ t.safeCause = 1 ∧ t.dies = [] ∧ t.top.pwrGood = false
    | some k =>
      t.top.pwrGood = true ∧ t.sec.slot = k ∧
      if b.fuseVote = false then t.topState = stSafe ∧ t.safeCause = 2 ∧ t.health = 2
      else if b.default0Ok = false ∧ b.default1Ok = false then t.topState = stSafe ∧ t.safeCause = 3 ∧ t.health = 2
      else t.topState = stBringup ∧ t.rfield .topMod 0 Reg.TOP_STATE 35 32 = 2 ∧ t.dies = []
  (s.top.pwrEn = false → s.top.inRange = true → ∃ t, exec (.pwrEnAssert b) s = .next t ∧ up t) ∧
  (s.top.inRange = false → s.top.pwrEn = true → ∃ t, exec (.inputEntersRange b) s = .next t ∧ up t) ∧
  (s.top.pwrEn = false → s.top.inRange = false →
    exec (.pwrEnAssert b) s = .next { s with top := { s.top with pwrEn := true } } ∧
    exec (.inputEntersRange b) s = .next { s with top := { s.top with inRange := true } })

/-- For every state in which PWR_EN is asserted, its deassertion answers a next state that is COLD with PWR_GOOD and PWR_EN
low, no memory, no core, no die and no port powered, every register but TOP_STATE at its reset value, and flash and fuses as
before. (R472, R556, R600) -/
def Obligations.PowerEnableLowIsCold : Prop :=
  ∀ s : State, s.top.pwrEn = true → ∃ t, exec .pwrEnDeassert s = .next t ∧ t.topState = stCold ∧ t.top.pwrGood = false ∧
  t.top.pwrEn = false ∧ t.top.inRange = s.top.inRange ∧ t.mem = [] ∧ t.cores = [] ∧ t.dies = [] ∧ t.ports = [] ∧
  t.flash = s.flash ∧ t.fuse = s.fuse ∧
  ∀ a, a ≠ blockBase .topMod 0 + Reg.TOP_STATE → t.peekAddr a = regReset a

/-- For every state in BRINGUP with fewer than four rings started, RING_START answers a next state with one more ring
started, in which every die of that ring is in phase 1 with its router and memory rails on, and the edge rail where it
carries a port; every other die is as before. (R459, R465) -/
def Obligations.RingStartRaisesItsDies : Prop :=
  ∀ s : State, s.topState = stBringup → s.top.ringsStarted < 4 → ∃ t, exec .ringStart s = .next t ∧
  t.top = { s.top with ringsStarted := s.top.ringsStarted + 1 } ∧
  ∀ d, d < 64 →
    if dieRing d = s.top.ringsStarted then t.die d = { s.die d with phase := 1, rails := if (diePort d).isSome then 7 else 3 }
    else t.die d = s.die d

/-- A passed router test brings its die to phase 2 with its router in service; a failed one fences the die, and that of die 0
or 7 leads to SAFE. A trained stack with at most one lost die (the fuse map's and the test's together) is up with that die
erased; any other is failed and reported UNAVAILABLE. A wave powers its clusters for their test. The end of the oldest wave
tests its cores. A failure record is written while fewer than 256 are held and none of that core. BRINGUP ends when every
cluster that can has reported. The management link is up when the module is powered with its reference clock. (R389, R463,
R465, R466, R467, R468, R472) -/
def Obligations.BringupReportsTakeEffect : Prop :=
  (∀ (s : State) (d : Nat), d < 64 → s.raising d = true → (s.die d).phase = 1 → s.top.routerReports.contains d = false →
    let u : State := { s with top := { s.top with routerReports := s.top.routerReports ++ [d] } }
    exec (.routerTestDone d true) s =
      .next (u.setDie d { s.die d with routerOk := true, phase := 2, edgeReady := edgeDies.contains d }) ∧
    exec (.routerTestDone d false) s = .next (if d = 0 ∨ d = 7 then u.routerSafe else u.fenceDie d)) ∧
  (∀ (s : State) (d : Nat) (o : StackObs), d < 64 → (s.die d).fenced = false → s.raising d = true → (s.die d).phase = 2 →
    s.top.stackReports.contains d = false →
    let gone := ((match Smap.get 0 s.fuse.erased d with | 0 => [] | k + 1 => [k]) ++ o.lostDies).eraseDups
    let u := State.setDie { s with top := { s.top with stackReports := s.top.stackReports ++ [d] } } d { s.die d with phase := 3 }
    exec (.stackReady d o) s = .next (
      if o.trained = true ∧ gone.length ≤ 1 then
        (if s.topState = stSafe then u else u.softRepair d).stackUp d gone.head? (!gone.isEmpty)
      else
        ((u.setStack d { Stack.blank with failed := true }).raise .topMod 0 Reg.TOP_EVENT 2).funcReady 0 d .unavailable)) ∧
  (∀ (s : State) (c : Nat) (cs : List Nat), s.nextWave = c :: cs →
    exec .waveStart s = .next (((c :: cs).foldl State.powerCluster
      { s with top := { s.top with waves := s.top.waves ++ [c :: cs] } }).showDies)) ∧
  (∀ (s : State) (w : List Nat) (ws : List (List Nat)) (bad units : List Nat), s.top.waves = w :: ws →
    exec (.coreTestDone bad units) s = .next ((s.waveDone bad).endResets.runQueues)) ∧
  (∀ (s : State) (i : Nat), s.top.failCounts.contains i = true → s.flash.failures.length < 256 → s.flash.failures.contains i = false →
    exec (.failureRecordWrite i) s = .next { s with
      top := { s.top with failCounts := s.top.failCounts.erase i }, flash := { s.flash with failures := s.flash.failures ++ [i] } }) ∧
  (∀ s : State, s.topState = stBringup → s.allReported = true → exec .bringupComplete s = .next s.bringupDone.applyWaiting) ∧
  (∀ s : State, s.powered = true → s.mgtUp = false → s.tim.refclk = true →
    exec .mgtLinkUp s = .next ((s.rbit .mgtMod 0 Reg.MGT_STATUS 0 true).funcReady 4 0 .ok))

/-- For every state and message that the host link lets through: MRD reads length bytes at arg[48:0], is counted, and
completes with their status and bytes; MWR writes its payload there, is counted, and completes with the status; both count
the flit retries that the link has made since the last one, and both complete with MALFORMED and leave the rest alone where
the access crosses a 256-byte boundary. EACK acknowledges events up to arg[31:0]. Where the link is up, a message of a
reserved type is answered as row 1 of R408 says. HOST_LINK_DOWN of a link that is up takes it down with the outstanding tags
lost and counted, and changes nothing else. HOST_LINK_UP of one that can train brings it up: the first time with a STATE
event of COLD to the present state, later counted, with LINK_RESTORED and the number of completions discarded, and every
event sent and not acknowledged again. (R405, R407, R408, R415, R417, R419) -/
def Obligations.HostMessagesTakeEffect : Prop :=
  (∀ (s : State) (m : HostMsg) (o : StoreObs) (n : Nat), s.HostHears m 1 →
    let r := s.hostRead (fld m.arg 48 0) m.length o
    exec (.mrd ⟨m, o, n⟩) s = .next (((r.2.2.add .hifMod 0 Reg.HIF_FLIT_RETRIES n).add .hifMod 0 Reg.HIF_MRD 1).sendCpl m.tag r.1 r.2.1) ∧
    (256 < fld m.arg 48 0 % 256 + m.length →
      exec (.mrd ⟨m, o, n⟩) s = .next (((s.add .hifMod 0 Reg.HIF_FLIT_RETRIES n).add .hifMod 0 Reg.HIF_MRD 1).sendCpl m.tag .malformed []))) ∧
  (∀ (s : State) (m : HostMsg) (o : StoreObs) (n : Nat), s.HostHears m 2 →
    let r := s.hostWrite (fld m.arg 48 0) m.payload o
    exec (.mwr ⟨m, o, n⟩) s = .next (((r.2.add .hifMod 0 Reg.HIF_FLIT_RETRIES n).add .hifMod 0 Reg.HIF_MWR 1).sendCpl m.tag r.1 []) ∧
    (256 < fld m.arg 48 0 % 256 + m.payload.length →
      exec (.mwr ⟨m, o, n⟩) s = .next (((s.add .hifMod 0 Reg.HIF_FLIT_RETRIES n).add .hifMod 0 Reg.HIF_MWR 1).sendCpl m.tag .malformed []))) ∧
  (∀ (s : State) (m : HostMsg), s.HostHears m 4 → exec (.eack m) s = .next (s.ackEvents (fld m.arg 31 0))) ∧
  (∀ (s : State) (m : HostMsg), s.host.linkUp = true → m.type = 0 ∨ 5 ≤ m.type →
    exec (.reservedHostMessage m) s = .next (s.refuseMsg m)) ∧
  (∀ s : State, s.host.linkUp = true →
    let lost := s.host.tags.filter fun t => !s.host.stale.contains t
    exec .hostLinkDown s = .next { s with host := { s.host with
      linkUp := false, ready := false, stale := s.host.stale ++ lost, discarded := s.host.discarded + lost.length } }) ∧
  (∀ s : State, s.host.linkUp = false → s.hostCanTrain = true →
    let u : State := { s with host := { s.host with linkUp := true, ready := true, trained := true } }
    (s.host.trained = false →
      exec .hostLinkUp s = .next (u.hostEvent evState (leBytes 1 s.topState ++ leBytes 1 s.health ++ leBytes 1 stCold))) ∧
    (s.host.trained = true →
      let v := (u.add .hifMod 0 Reg.HIF_RETRAINS 1).raise .hifMod 0 Reg.HIF_EVENT 0
      let e : Evt := { seq := 0, code := evLinkRestored, payload := padTo 16 (leBytes 4 v.host.discarded) }
      let w : State := { v with host := { v.host with discarded := 0, buf := v.host.buf ++ [e] } }
      exec .hostLinkUp s = .next ((s.host.buf.filter fun e => !decide (e.seq = 0)).foldl State.sendEvt (w.sendEvt e))))

/-- For every state: where the link is up, fewer events than HIF_CTRL.evt_window are sent and unacknowledged, and k is the
first event never sent, EVT_SEND answers a next state in which that event leaves under the next number, keeps its place under
that number, the number has gone up by one and the event is counted. An EACK that the link lets through, of a number n that
has been given out, is not 0 and not below the last one acknowledged, answers a next state that holds exactly the events not
sent or numbered above n, with n the last acknowledged. (R415) -/
def Obligations.EventsAreNumberedAndAcknowledged : Prop :=
  (∀ (s : State) (k : Nat) (e : Evt), s.host.linkUp = true →
    (s.host.buf.filter fun e => !decide (e.seq = 0)).length < s.rfield .hifMod 0 Reg.HIF_CTRL 39 32 →
    s.host.buf[k]? = some e → e.seq = 0 → (∀ j x, j < k → s.host.buf[j]? = some x → x.seq ≠ 0) →
    ∃ t, exec .evtSend s = .next t ∧ t.out = s.out ++ [.evt s.host.nextSeq e.code e.payload] ∧
      t.host.nextSeq = s.host.nextSeq + 1 ∧ t.host.buf = setNth s.host.buf k { e with seq := s.host.nextSeq } ∧
      t.peek .hifMod 0 Reg.HIF_EVTS_SENT = s.peek .hifMod 0 Reg.HIF_EVTS_SENT + 1) ∧
  (∀ (s : State) (m : HostMsg), s.HostHears m 4 → let n := fld m.arg 31 0
    n ≠ 0 → n < s.host.nextSeq → s.host.acked ≤ n →
    ∃ t, exec (.eack m) s = .next t ∧ t.host.acked = n ∧
      t.host.buf = s.host.buf.filter fun e => decide (e.seq = 0) || decide (n < e.seq))

/-- For every state and CMD that starts when it arrives, with a body of its code's form and accepted in the module's state:
JOB_OPEN opens the job with its first step and seed; STEP_DATA holds the data for a step not yet started and at most one
beyond the first; BLEND_LOAD loads the whole image, or a part of it; each then completes with its status. A BLEND_LOAD in
BRINGUP is read and waits for its end, or completes with the status of its fault. CHECKPOINT is asked for, RESTORE begins, as
a dry run with flag bit 0, JOB_CLOSE lets no further step start, and ATTEST forms its report; these run on until they
complete. (R203, R408, R412, R413, R414, R448, R450, R523, R528, R529, R549, R565) -/
def Obligations.HostCommandsTakeEffect : Prop :=
  ∀ (s : State) (m : HostMsg),
  let u := s.begun m
  let b := m.payload
  (s.Takes m cJobOpen → s.accepts m → leAt b 8 8 ≠ 0 → u.mgt.manager ≠ none → u.job.isOpen = false → leAt b 0 2 ≠ 0 →
    u.rflag .cfgMod 0 Reg.CFG_STATUS 4 = true → leAt b 0 2 = u.blend.job → u.loadBusy = false →
    exec (.jobOpen m) s = .next ((u.openJob (leAt b 8 8) ((b.drop 16).take 32)).finishCmd m.queue .ok [])) ∧
  (s.Takes m cStepData → s.accepts m → u.job.isOpen = true →
    let first := if u.job.st = .running ∨ u.job.st = .stopped then u.job.step + 1 else u.job.step
    first ≤ leAt b 0 8 → leAt b 0 8 ≤ first + 1 →
    exec (.stepData m) s = .next (State.finishCmd { u with job := { u.job with
      data := (u.job.data.filter fun d => !decide (d.1 = leAt b 0 8)) ++ [(leAt b 0 8, leAt b 8 8)] } } m.queue .ok [])) ∧
  (s.Takes m cBlendLoad → s.accepts m → leAt b 12 4 = 0 → u.job.isOpen = false → u.loadBusy = false → u.topState ≠ stBringup →
    u.othersRun m.queue (fun x => decide (x.code = cRegionDrain ∨ x.code = cRegionReset ∨ x.code = cSelfTest)) = false →
    let r := u.fullLoad (leAt b 0 8) (leAt b 8 4)
    exec (.blendLoadFull m) s = .next (r.2.finishCmd m.queue r.1 [])) ∧
  (s.Takes m cBlendLoad → s.accepts m → leAt b 12 4 = 0 → u.job.isOpen = false → u.loadBusy = false → u.topState = stBringup →
    let r := u.earlyLoad m.queue (leAt b 0 8) (leAt b 8 4)
    exec (.blendLoadFull m) s = .next (match r.1 with
      | some st => r.2.finishCmd m.queue st []
      | none => r.2)) ∧
  (s.Takes m cBlendLoad → s.accepts m → leAt b 12 4 = 1 → u.loadBusy = false →
    let r := u.partialLoad (leAt b 0 8) (leAt b 8 4)
    exec (.blendLoadPartial m) s = .next (r.2.finishCmd m.queue r.1 [])) ∧
  (s.Takes m cCheckpoint → s.accepts m → leAt b 0 8 ≤ 1 → u.job.isOpen = true →
    exec (.checkpoint m) s = .next (u.askCkp [m.queue] false (decide (leAt b 0 8 = 1)))) ∧
  (s.Takes m cRestore → s.accepts m → leAt b 8 8 ≤ 3 → u.job.isOpen = false → u.blend.job ≠ 0 → u.loadBusy = false →
    u.ckp.write = none →
    (leAt b 8 8 % 2 = 0 → exec (.restore m) s = .next (u.beginRestore m.queue (leAt b 0 8) false (decide (2 ≤ leAt b 8 8)))) ∧
    (leAt b 8 8 % 2 = 1 → exec (.restoreDryRun m) s = .next (u.beginRestore m.queue (leAt b 0 8) true (decide (2 ≤ leAt b 8 8))))) ∧
  (s.Takes m cJobClose → s.accepts m → u.job.isOpen = true → leAt b 0 2 = u.job.id →
    exec (.jobClose m) s = .next (State.settleClose { u with job := { u.job with closing := true, data := [] } })) ∧
  (s.Takes m cAttest →
    let v := s.taken m
    let a := if v.topState = stSafe then 0 else leAt b 32 8
    a % 4096 = 0 → populated a 4096 = true → v.top.identityOk = true →
    let w : State := { v with sec := { v.sec with reports := v.sec.reports + 1 } }
    exec (.attest m) s = .next { w with sec := { w.sec with
      attests := w.sec.attests ++ [(m.queue, w.reportBody (b.take 32), a)] } })

/-- For every state and CMD that starts when it arrives and is accepted, naming a region that exists with no command of
another queue on it: REGION_DRAIN of a region not drained marks it draining and stops its cores, and the step fails with
cause DRAIN where the region is busy; of a drained one it completes with OK. REGION_RESET of a region not being reset starts
its reset. SELF_TEST 1 to 3 of a drained region notes its start. A draining region whose cores are idle is drained by
REGION_DRAIN_COMPLETE, with its event, and its REGION_DRAINs complete. With no wave under way, CORE_TEST_DONE ends the
SELF_TEST of the lowest queue. (R412, R413, R414, R470, R491, R495) -/
def Obligations.RegionCommandsTakeEffect : Prop :=
  (∀ (s : State) (m : HostMsg),
    let u := s.begun m
    let r := leAt m.payload 0 2
    s.accepts m → u.knownRegion r = true → u.regionTaken m.queue r = false →
    (s.Takes m cRegionDrain → (u.region r).drained = true → exec (.regionDrain m) s = .next (u.finishCmd m.queue .ok [])) ∧
    (s.Takes m cRegionDrain → (u.region r).drained = false →
      let v := (u.regionCores r).foldl State.stopCore (u.setRegion r { u.region r with draining := true })
      exec (.regionDrain m) s = .next (if u.regionBusy r then v.stepFail csDrain lvRollback .unavailable r else v)) ∧
    (s.Takes m cRegionReset → (u.region r).resetting = false →
      exec (.regionReset m) s = .next ((((u.startReset r).settleOrder).holdQueued r).endResets)) ∧
    (s.Takes m cSelfTest → 1 ≤ leAt m.payload 2 2 → leAt m.payload 2 2 ≤ 3 → (u.region r).drained = true →
      exec (.selfTest m) s = .next (u.setCmdq m.queue { u.cmdq m.queue with
        running := (u.cmdq m.queue).running.map fun y => { y with data := [u.now] } }))) ∧
  (∀ (s : State) (r : Nat), (s.region r).draining = true → s.regionIdle r = true →
    let u := ((s.setRegion r { s.region r with draining := false, drained := true, released := false }).regionEvent r 0).restState
    exec (.regionDrainComplete r) s =
      .next ((u.finishCmds (u.queuesRunning fun c => decide (c.code = cRegionDrain ∧ c.region = r)) .ok).runQueues)) ∧
  (∀ (s : State) (q : Nat) (qs : List Nat) (c : Cmd) (bad units : List Nat), s.top.waves = [] →
    (s.queuesRunning fun c => decide (c.code = cSelfTest)) = q :: qs → (s.cmdq q).running = some c →
    exec (.coreTestDone bad units) s = .next ((s.selfTested q c bad units).runQueues))

/-- For every state: a step that may start starts, every powered core with a program and not fenced beginning at its
program's start, the job RUNNING, and the power ramp begins. A step that is over closes once the exchange of the one before
is in (GOV_EVENT.boundary_waited, bit 1, is raised while it is not) and no area holds its tail; where its number stands
still, what waits goes on. The first batch that every cluster with a program has reported or is past is declared at each of
them, and opens the weights' next. A signature that ends goes to the first record that is not signed and not dead, else to a
checkpoint header that is due, else to the first report. A migration that is under way ends as migrated says, and what it
held back goes on. (R60, R61, R203, R205, R206, R207, R148, R488) -/
def Obligations.StepsStartAndClose : Prop :=
  (∀ s : State, s.canStart = true → exec .stepStart s = .next s.leaveWarm.startStep.beginRamp.settleStreams ∧
    s.leaveWarm.startStep.job.st = .running ∧
    ∀ i, (s.leaveWarm.core i).hasProg = true → (s.leaveWarm.core i).fenced = false → (s.leaveWarm.core i).powered = true →
      s.leaveWarm.startStep.core i = { s.leaveWarm.core i with excValid := false, recovered := 0 }.begin_) ∧
  (∀ s : State, s.stepOver = true → s.exchangeIn = true → s.tailHeld s.job.step = false →
    let c := s.closeStep
    exec .stepBoundary s = .next (if c.job.step = s.job.step then c.settleStreams.runQueues
      else (((c.boundaryCopy s.job.step).storeRecords.settleCkp).settleClose).settleStreams.runQueues)) ∧
  (∀ s : State, s.stepOver = true → s.exchangeIn = true → s.tailHeld s.job.step = true → exec .stepBoundary s = .next s) ∧
  (∀ s : State, s.stepOver = true → s.exchangeIn = false → exec .stepBoundary s = .next (s.raise .govMod 0 Reg.GOV_EVENT 1)) ∧
  (∀ s : State, let cs := (s.programCores.map s.homeCluster).eraseDups
    ∀ n, s.job.st = .running → (cs.flatMap fun c => (s.cluster c).openBatches).find? (fun n => cs.all (s.batchReported n)) = some n →
    ∃ t, exec .batchBoundary s = .next t ∧ t.wts = { s.wts with open_ := true, between := true } ∧
      ∀ c, t.cluster c = if c ∈ cs then { s.cluster c with batchDecl := (s.cluster c).batchDecl ++ [n] } else s.cluster c) ∧
  (∀ (s : State) (r : RingSlot), s.nextRecord = some r → r.dead = false →
    exec (.signatureComplete true) s = .next ((s.recordSigned r).nextSign.settleClose.runQueues) ∧
    exec (.signatureComplete false) s = .next ((s.recordUnsigned r).nextSign.settleClose.runQueues)) ∧
  (∀ (s : State) (ok : Bool), (∀ r, s.nextRecord = some r → r.dead = true) → s.sec.ckpDue = true →
    exec (.signatureComplete ok) s = .next ((s.headerSigned ok).nextSign.settleClose.runQueues)) ∧
  (∀ (s : State) (ok : Bool) (q : Nat) (body : List Byte) (a : Nat) (rest : List (Nat × List Byte × Nat)),
    (∀ r, s.nextRecord = some r → r.dead = true) →
    s.sec.ckpDue = false → s.sec.attests = (q, body, a) :: rest →
    exec (.signatureComplete ok) s = .next ((s.attestSigned ok q body a).nextSign.settleClose.runQueues)) ∧
  (∀ (s : State) (i : Nat) (ok : Bool), (s.takeovers.find? fun t => decide (t.core = i)).isSome = true →
    exec (.migrationComplete i ok) s = .next ((s.migrated i ok).settleOrder.settleStreams.runQueues))

/-- For every state and core in service and powered, with e at the head of a queue: INSTRUCTION_COMPLETE, a tile pass, a beat
check and a DMA timeout end an entry with an error with that status. With status OK: INSTRUCTION_COMPLETE runs the items of
an engine or vector head, the transfers of a copy, or the stream instruction; TILE_PASS_VERDICT judges the head's pass,
beginning the passes first where none has begun (a fault there ends it), makes a failed Urn addition again, or judges the
pass in the other bank; VECTOR_BEAT_CHECK fences the core on a double-bit read, marks the failing lane, or goes on;
DMA_TIMEOUT gives the transfer up and ends the copy with TIMEOUT; SAMOVAR_ACCEPT offers a chunk, which waits, is accepted or
ends the instruction; WAIT_TIMEOUT ends a token wait, or an RXWAIT or SIPRED, with TIMEOUT. (R39, R90, R94, R98, R99, R129,
R131, R154, R238, R302, R493) -/
def Obligations.QueueHeadsAdvance : Prop :=
  ∀ (s : State) (i : Nat) (e : QEntry), s.coreWorks i = true →
  (∀ q o, q < 4 → s.headOf i q = some e → e.status ≠ .ok →
    exec (.instructionComplete i ⟨q, o⟩) s = .next (s.retire i q e.status false).settleStreams) ∧
  (∀ o, s.headOf i 0 = some e → e.status = .ok →
    exec (.instructionComplete i ⟨0, o⟩) s = .next (s.runItems i 0 e.seq o (2 * s.totalItems i e + 2)).settleStreams) ∧
  (∀ o, s.headOf i 1 = some e → e.status = .ok →
    exec (.instructionComplete i ⟨1, o⟩) s = .next (s.runItems i 1 e.seq o (s.vecCount e + s.vrsChunks e + 2)).settleStreams) ∧
  (∀ o, s.headOf i 2 = some e → e.status = .ok →
    exec (.instructionComplete i ⟨2, o⟩) s = .next (s.copyRun i e.seq o (s.transfersLeft e)).settleStreams) ∧
  (∀ o, s.headOf i 3 = some e → e.status = .ok → exec (.instructionComplete i ⟨3, o⟩) s = .next (s.streamItem i e o).settleStreams) ∧
  (∀ o, s.headOf i 0 = some e → passOp e.word = true → e.offered = false →
    let again := urnBound e.word = true ∧ (e.aux = 2 ∨ e.aux = 3)
    let other := e.replaying = true ∧ e.ahead = .due
    (e.status ≠ .ok → exec (.tilePassVerdict i o) s = .next (s.retireUrn i e.status)) ∧
    (e.status = .ok → again → ∀ p, s.passOf i { e with aux := 0 } = some p →
      exec (.tilePassVerdict i o) s = .next ((s.urnAdd i e p e.acc o).releaseAhead i e.seq)) ∧
    (e.status = .ok → ¬ again → other → exec (.tilePassVerdict i o) s = .next (s.judgeAhead i e o)) ∧
    (e.status = .ok → ¬ again → ¬ other → e.fresh = false → exec (.tilePassVerdict i o) s = .next (s.judgePass i e o)) ∧
    (e.status = .ok → e.fresh = true → ∀ st, (s.beginPasses i e).1 = some st → exec (.tilePassVerdict i o) s =
      .next (if st = .ok then (s.beginPasses i e).2.judgePass i e o else (s.beginPasses i e).2.retireUrn i st))) ∧
  (∀ o, s.headOf i 1 = some e →
    let u := s.tsReads i (s.groupWords e (min 256 (s.vecCount e - 256 * e.item))) o.corrected o.double
    let r := u.vecBegin e
    (e.status ≠ .ok → exec (.vectorBeatCheck i o) s = .next (s.retire i 1 e.status false)) ∧
    (e.status = .ok → s.badRecord e = false → o.double = true → exec (.vectorBeatCheck i o) s = .next (u.fenceCore i csStore)) ∧
    (e.status = .ok → s.badRecord e = false → o.double = false → ∀ lane kind, firstFailing o = some (lane, kind) →
      exec (.vectorBeatCheck i o) s = .next (r.2.failBeat i r.1 lane kind)) ∧
    (e.status = .ok → s.badRecord e = false → o.double = false → firstFailing o = none →
      exec (.vectorBeatCheck i o) s = .next (r.2.passBeat i r.1 o))) ∧
  (s.headOf i 2 = some e → e.status ≠ .ok → exec (.dmaTimeout i) s = .next (s.retire i 2 e.status false)) ∧
  (s.headOf i 2 = some e → e.status = .ok → exec (.dmaTimeout i) s =
    .next (((s.check cDma (b2n (decide (16 ≤ e.aux))) 0 0 0).transferLost i).retire i 2 .timeout false)) ∧
  ((s.core i).st = .waiting → (s.core i).waits ≠ .none → (s.core i).waits ≠ .genArea →
    exec (.waitTimeout i false) s = .next (s.waitOver i)) ∧
  (s.headOf i 3 = some e → iOpcode e.word = 0x41 ∨ iOpcode e.word = 0x48 → exec (.waitTimeout i true) s =
    .next (((s.leaveSip e.seq i).raise .seqCore i Reg.SEQ_EVENT 1).retire i 3 .timeout false).settleStreams) ∧
  (∀ o q x t vals, s.offered i = some (q, e, x, t, vals) → ¬ (e.readsOut q = true ∧ o.double = true) →
    let r := s.contribute x (x.chunkBase + t) vals
    (r.1 = .waits → exec (.samovarAccept ⟨i, o⟩) s = .next r.2.settleStreams) ∧
    (∀ st area, r.1 = .ends st area → exec (.samovarAccept ⟨i, o⟩) s = .next (r.2.retire i q st area).settleStreams) ∧
    (r.1 = .accepted → exec (.samovarAccept ⟨i, o⟩) s =
      .next (((r.2.offerReads i q e o).govChunk i x.layer vals).offerDone i q e).settleStreams))

/-- For every state and core in service whose vector head e has status OK, is no VRS, has begun, and has elements left: a
beat check with no failure, no double error and no corrected word answers a next state. From the state in which the group's
reads are counted (and a recomputed group's pass): the group's results are written, and either the head stands at its next
group, or, at the last group, the instruction's reports are made, its check is counted and it retires with OK. (R99, R129) -/
def Obligations.VectorGroupIsWritten : Prop :=
  ∀ (s : State) (i : Nat) (e : QEntry), s.coreWorks i = true → s.headOf i 1 = some e → e.status = .ok → iOpcode e.word ≠ 0x40 →
  e.acc ≠ [] →
  let n := s.vecCount e
  let u := s.tsReads i (s.groupWords e (min 256 (n - 256 * e.item))) [] false
  let w := if e.replaying then (u.bump .vecCore i Reg.VEC_REPLAYS_PASSED (beatsPer e.word)).raise .vecCore i Reg.VEC_EVENT 1 else u
  let d : QEntry := { e with replaying := false }
  exec (.vectorBeatCheck i BeatObs.clean) s = .next (
    let v := w.writeGroup i d
    if 256 * (e.item + 1) < v.vecCount d then v.setHead i 1 { d with item := e.item + 1 }
    else ((v.vecReports i d).vecDone i d).retire i 1 .ok false)

/-- For every state and core in service whose DMA head e has status OK: an OK for a transfer that is not the last answers a
next state in which the core has one transfer more behind it, its head at the next with no try failed, every other core as
before; an OK for the last, where no generation area holds the destination, checks the transfer and then copies. Another
answer after fewer than two failed tries answers a next state in which the head has one try more, and remembers a CRC
failure, every other core as before. After two, the transfer is counted as failed, given up, and the instruction ends with
CHECK_FAIL. (R37, R52, R110) -/
def Obligations.DmaTransferIsTriedThreeTimes : Prop :=
  ∀ (s : State) (i : Nat) (e : QEntry) (a : LeafAnswer), s.coreWorks i = true → s.headOf i 2 = some e → e.status = .ok →
  let crc := decide (16 ≤ e.aux) || decide (a = .crcFail)
  (a = .ok → 1 < s.transfersLeft e →
    s.leadsTo (exec (.dmaTransferAck i a) s) i { s.core i with
      xfer := (s.core i).xfer + 1, queues := modNth (s.core i).queues 2 fun l => { e with item := e.item + 1, aux := 0 } :: l.tail }) ∧
  (a = .ok → s.transfersLeft e ≤ 1 → s.copyHeld e = false →
    exec (.dmaTransferAck i a) s = .next ((s.transferOk i e).copyDone i e ItemObs.clean)) ∧
  (a ≠ .ok → e.aux % 16 ≠ 2 →
    s.leadsTo (exec (.dmaTransferAck i a) s) i { s.core i with
      queues := modNth (s.core i).queues 2 fun l => { e with aux := e.aux % 16 + 1 + 16 * b2n crc } :: l.tail }) ∧
  (a ≠ .ok → e.aux % 16 = 2 →
    let u := (s.check cDma 1 (b2n (decide (e.aux < 16))) 0 0).setHead i 2 { e with aux := 18 }
    exec (.dmaTransferAck i a) s = .next ((u.transferLost i).retire i 2 .checkFail false))

/-- For every state with g the first signal under way from one core to another, and i the core at the target's seat. Where no
takeover of i is due, it leaves the list of those under way: where the control path reaches i, i takes signals and the count
fits the token, and the signal's instruction signals no token of its own, the token of i is higher by the count and every
other core is as before; where i does not take it or is not reached, its source is answered with that status. Where a
takeover is due and fewer than 64 signals wait for i, it waits with the home cluster, no core changing. A tile-store word
that waits for its write-back, on a core that is powered and not fenced, is written back: it waits no longer and
VEC_TS_WRITEBACKS counts it, every other core as before. (R94, R130, R146, R489) -/
def Obligations.SignalsArriveAndWordsAreWrittenBack : Prop :=
  (∀ (s : State) (src target k : Nat) (g : Sig), s.sigs.findIdx? (fun g => decide (g.src = src ∧ g.target = target)) = some k →
    s.sigs[k]? = some g →
    let i := s.seat target
    let rest : State := { s with sigs := s.sigs.eraseIdx k }
    let st := if s.ctlReaches (coreDie g.src) (coreDie i) then s.signalStatus i else .unavailable
    (s.takeoverDue i = false → st = .ok → nth 0 (s.core i).tok g.tok + g.count ≤ 65535 →
      (∀ w pc seq, g.instr = some (w, pc, seq) → iSignalEn w = false) →
      ∃ t, exec (.tokenSignalArrive src target) s = .next t ∧ t.sigs = s.sigs.eraseIdx k ∧ s.otherCores t i ∧
        (t.core i).tok = setNth (s.core i).tok g.tok (nth 0 (s.core i).tok g.tok + g.count)) ∧
    (s.takeoverDue i = false → st ≠ .ok → exec (.tokenSignalArrive src target) s = .next (rest.signalDone g st)) ∧
    (s.takeoverDue i = true → ((s.cluster (s.homeCluster i)).held.filter fun y => decide (y.target = i)).length < 64 →
      ∃ t, exec (.tokenSignalArrive src target) s = .next t ∧ t.sigs = s.sigs.eraseIdx k ∧ t.cores = s.cores ∧
        t.cluster (s.homeCluster i) = { s.cluster (s.homeCluster i) with
          held := (s.cluster (s.homeCluster i)).held ++ [{ g with target := i }] } ∧
        ∀ c, c ≠ s.homeCluster i → t.cluster c = s.cluster c)) ∧
  (∀ (s : State) (i word : Nat), (s.core i).writeback.contains word = true → (s.core i).fenced = false → (s.core i).powered = true →
    ∃ t, exec (.tileStoreWriteback i word) s = .next t ∧ t.core i = { s.core i with writeback := (s.core i).writeback.erase word } ∧
      s.otherCores t i ∧ t.peek .vecCore i Reg.VEC_TS_WRITEBACKS = s.peek .vecCore i Reg.VEC_TS_WRITEBACKS + 1)

/-- For every state and core of the wafer that is fenced, holds a program and has no takeover under way, with a spare j for
its cluster: a core whose state cannot move is taken over alone, and its migration counts as lost; one with no work left in
the step is taken over alone; a busy one whose stores decode has them copied, is taken over, and its takeover is under way;
where they do not decode, or it does not answer, the step fails with cause TILE_STORE or TILE and level ROLLBACK. With no
spare, and health not yet FAILED for that, health fails and the step with it. (R39, R451, R485, R486, R487, R488) -/
def Obligations.SparesTakeOver : Prop :=
  ∀ (s : State) (i : Nat) (o : CopyOutcome), isCore i = true → (s.core i).fenced = true → (s.core i).hasProg = true →
  s.takeoverRuns i = false →
  (s.spareFor (s.homeCluster i) = none → s.health ≠ 2 →
    exec (.spareTakeover i o) s = .next ((s.failHealth 3).stepFail csNoSpare lvOperator .checkFail i)) ∧
  (∀ j b, s.spareFor (s.homeCluster i) = some (j, b) →
    ((s.core i).noMigrate = true → exec (.spareTakeover i o) s = .next (s.migrationLost.takeoverOnly i j b)) ∧
    ((s.core i).noMigrate = false → s.coreBusy i = false → exec (.spareTakeover i o) s = .next (s.takeoverOnly i j b)) ∧
    ((s.core i).noMigrate = false → s.coreBusy i = true →
      (∀ tile wgb, o = .decoded tile wgb → let u := (s.copyStores i j tile wgb).applyTakeover i j b
        exec (.spareTakeover i o) s = .next { u with takeovers := u.takeovers ++ [{ core := i, spare := j }] }) ∧
      (o = .undecoded → exec (.spareTakeover i o) s =
        .next ((((s.tsReads i 2097152 [] true).migrationLost).stepFail csStore lvRollback .dataErr i).takeoverOnly i j b)) ∧
      (o = .noAnswer → exec (.spareTakeover i o) s =
        .next ((s.migrationLost.stepFail csTile lvRollback .checkFail i).takeoverOnly i j b))))

/-- For every state, die with its router in service, port not fenced, and flit whose class is not the reserved one. A flit
whose CRC-16 holds answers a next state: it is sent to its port where its destination is here, copied to every port its
tree's entry names where it is multicast, and dropped, counted in TOP_RTR_MCAST_DROPS, where that entry is not valid; a
control flit also clears the port's count of failures, no other die changing. A data flit whose CRC-16 fails is dropped, sent
nowhere, and noted as lost of its transfer, no die changing. A control flit that fails is sent nowhere; while fewer than 8
have failed in a row it raises the port's count by one, no other die changing; the ninth in a row clears it and fences the
link. A hot-level report writes TOP_HOT_LEVEL, with level 0 for a share of at most 1; one with a reserved level, or with
level 0 and a larger share, changes nothing. (R106, R109, R111, R112, R113, R122, R123) -/
def Obligations.MeshFlitsAreChecked : Prop :=
  (∀ (s : State) (d p : Nat) (f : MeshFlit), d < 64 → p < 13 → (s.die d).routerOk = true → s.linkFenced d p = false →
    let h := flitHead f
    h.cls < 3 →
    let n := Smap.get 0 (s.die d).linkFails p
    let failsOf (k : Nat) : Die := { s.die d with linkFails := Smap.set 0 (s.die d).linkFails p k }
    let w := s.peek .topDie d (Reg.TOP_RTR_MCAST + 8 * h.tree)
    (flitOk f = true → ∃ t, exec (.meshFlitReceive d p f) s = .next t ∧
      (h.cls = 0 → t.die d = failsOf 0) ∧ (h.cls ≠ 0 → t.die d = s.die d) ∧ (∀ e, e ≠ d → t.die e = s.die e) ∧
      (h.mcast = false → h.dest = d → t.out = s.out ++ [.mesh d h.port f]) ∧
      (h.mcast = true → flag w 63 = true → t.out = s.out ++ (treeOut w).map fun q => .mesh d q f) ∧
      (h.mcast = true → flag w 63 = false → t.out = s.out ∧
        t.peek .topDie d Reg.TOP_RTR_MCAST_DROPS = s.peek .topDie d Reg.TOP_RTR_MCAST_DROPS + 1)) ∧
    (flitOk f = false → h.cls ≠ 0 → ∃ t, exec (.meshFlitReceive d p f) s = .next t ∧
      t.meshLost = s.meshLost ++ [(h.source, h.xfer)] ∧ t.dies = s.dies ∧ t.out = s.out) ∧
    (flitOk f = false → h.cls = 0 → n ≠ 8 → ∃ t, exec (.meshFlitReceive d p f) s = .next t ∧
      t.die d = failsOf (n + 1) ∧ (∀ e, e ≠ d → t.die e = s.die e) ∧ t.out = s.out) ∧
    (flitOk f = false → h.cls = 0 → n = 8 →
      ∃ u : State, exec (.meshFlitReceive d p f) s = .next (u.fenceLink d p) ∧ u.die d = failsOf 0 ∧ ∀ e, e ≠ d → u.die e = s.die e)) ∧
  (∀ (s : State) (d level port core share : Nat), d < 64 → (s.die d).routerOk = true →
    let lv := if share ≤ 1 then 0 else level
    let w := mkWord [(min share 255, 32), (lv % 16, 20), ((if 3 ≤ lv ∧ lv ≤ 8 then port else 0) % 16, 16),
      ((if lv = 1 ∨ lv = 2 then core else 0) % 16384, 0)]
    (lv < 9 → ¬ (lv = 0 ∧ 1 < share) →
      ∃ t, exec (.topHotLevelReport d level port core share) s = .next t ∧ t.peek .topDie d Reg.TOP_HOT_LEVEL = w) ∧
    (9 ≤ lv ∨ lv = 0 ∧ 1 < share → exec (.topHotLevelReport d level port core share) s = .next s))

/-- For every state: a THERMAL_TRIP of a die whose core rail is on answers the state in which the die is tripped with its
core rail off, the trip is counted and raised, and its regions are tripped. A POWER_TRIP with some core rail on and none
pending takes every core rail off and changes no die otherwise; KTL_STATUS.power_tripped is set, the trip is counted and
raised, and the regions of those dies are tripped. DIE_RELEASE of a tripped die answers a next state in which that die is
tripped no longer, its rails and every other die as before. POWER_TRIP_RELEASE clears KTL_STATUS.power_tripped and changes no
die. (R494, R561, R563) -/
def Obligations.TripsTakeCoreRailsOff : Prop :=
  (∀ (s : State) (d : Nat), d < 64 → (s.die d).coreOn = true →
    let u := s.setDie d { s.die d with tripped := true, rails := (s.die d).rails % 8 }
    let v := (u.add .ktlMod 0 Reg.KTL_TRIPS 1).raise .ktlMod 0 Reg.KTL_EVENT 2
    exec (.thermalTrip d) s = .next (((v.tripDies [d]).showDies).settleStreams)) ∧
  (∀ s : State, let on := (List.range 64).filter fun d => (s.die d).coreOn
    s.powerTripped = false → on ≠ [] →
    let u := on.foldl State.coreRailOff s
    let v := ((u.rbit .ktlMod 0 Reg.KTL_STATUS 12 true).raise .ktlMod 0 Reg.KTL_EVENT 6).add .ktlMod 0 Reg.KTL_POWER_TRIPS 1
    (∀ d, u.die d = if d ∈ on then { s.die d with rails := (s.die d).rails % 8 } else s.die d) ∧ v.powerTripped = true ∧
    exec .powerTrip s = .next (((v.tripDies on).showDies).settleStreams)) ∧
  (∀ (s : State) (d : Nat), d < 64 → (s.die d).tripped = true →
    ∃ t, exec (.dieRelease d) s = .next t ∧ t.die d = { s.die d with tripped := false } ∧ ∀ e, e ≠ d → t.die e = s.die e) ∧
  (∀ s : State, s.powerTripped = true →
    ∃ t, exec .powerTripRelease s = .next t ∧ t.powerTripped = false ∧ t.dies = s.dies)

/-- For every powered state: a power sample joins the last 100, adds its energy, is shown in KTL_INPUT with their mean, moves
the ramp of a step start on by 20 mV up to 800 and V_cap against the cap. For every state and die that has started: a
temperature sample with two or more junction readings is shown and heats or cools its die's limit against KTL_CTRL's
threshold; with fewer, the limit is v_min and KTL_EVENT bit 8 is raised. A coolant sample is shown; within R562's bounds it
lengthens the run, otherwise ends it, and the mode is judged; a sensor that is late ends the run too and raises KTL_EVENT bit
8. A module in READY, or in RUNNING with no step running and no core at work, with a keep-warm target and no tripped region
enters WARM_IDLE and remembers from where. (R558, R559, R562, R563, R564, R566, R571) -/
def Obligations.KettleSamplesTakeEffect : Prop :=
  (∀ (s : State) (o : PowerObs), s.powered = true →
    let p := o.millivolts * o.deciAmps
    let ps := (s.ktl.powers ++ [p]).drop (s.ktl.powers.length - 99)
    let e := s.ktl.energy + p
    let u : State := { s with ktl := { s.ktl with powers := ps, energy := e % 1000000000 } }
    let v := (u.add .ktlMod 0 Reg.KTL_ENERGY (e / 1000000000)).poke .ktlMod 0 Reg.KTL_INPUT
      (mkWord [((ps.foldl (· + ·) 0 / (10000 * ps.length)) % 2 ^ 32, 32), (o.deciAmps % 65536, 16), (o.millivolts % 65536, 0)])
    exec (.powerSample o) s = .next (((v.moveRamp.moveCap p).showKettle).showDies) ∧ v.moveRamp.ktl.ramp = min 800 (s.ktl.ramp + 20)) ∧
  (∀ (s : State) (o : TempObs) (t : Int), o.die < 64 → (s.die o.die).phase ≠ 0 → 2 ≤ o.junction.length →
    o.junction.max? = some t →
    let thr : Int := 16 * s.rfield .ktlMod 0 Reg.KTL_CTRL 15 8
    let top := t + s.calibOf 1 o.die
    let u := s.setDie o.die ((s.die o.die).heat (decide (thr ≤ 16 * o.stack) || decide (thr ≤ top)) (decide (top < thr - 48)))
    let r := Reg.KTL_DIE + 8 * o.die
    exec (.tempSample o) s = .next
      ((((u.rset .ktlMod 0 r 31 16 (ofSigned 16 top)).rset .ktlMod 0 r 15 8 (ofSigned 8 o.stack)).judgeThrottle o.die).showDies)) ∧
  (∀ (s : State) (o : TempObs), o.die < 64 → (s.die o.die).phase ≠ 0 → o.junction.length < 2 →
    let u := (s.setDie o.die { s.die o.die with limit := s.blend.power.vMin, hot := 0, cool := 0 }).raise .ktlMod 0 Reg.KTL_EVENT 8
    let r := Reg.KTL_DIE + 8 * o.die
    let v := match o.junction.max? with
      | some t => u.rset .ktlMod 0 r 31 16 (ofSigned 16 (t + s.calibOf 1 o.die))
      | none => u
    exec (.tempSample o) s = .next (((v.rset .ktlMod 0 r 15 8 (ofSigned 8 o.stack)).judgeThrottle o.die).showDies)) ∧
  (∀ (s : State) (o : CoolantObs), s.powered = true →
    let flow : Int := (o.flow : Int) + s.calibOf 3 0
    let inlet := o.inlet + s.calibOf 4 0
    let outlet := o.outlet + s.calibOf 5 0
    let u : State := { s with ktl := { s.ktl with run := if 5500 ≤ flow ∧ inlet ≤ 560 then s.ktl.run + 1 else 0 } }
    let w := mkWord [(ofSigned 16 flow, 32), (ofSigned 16 outlet, 16), (ofSigned 16 inlet, 0)]
    exec (.coolantSample o) s = .next ((u.poke .ktlMod 0 Reg.KTL_COOLANT w).judgeMode s.liquidNow)) ∧
  (∀ (s : State) (n : Nat), s.powered = true →
    let u : State := { s with ktl := { s.ktl with run := 0 } }
    exec (.sensorTimeout n) s = .next ((u.raise .ktlMod 0 Reg.KTL_EVENT 8).judgeMode s.liquidNow)) ∧
  (∀ s : State, s.topState = stReady ∨ s.topState = stRunning ∧ s.job.st ≠ .running ∧
      (∀ e ∈ s.cores, e.2.st ≠ .running ∧ e.2.st ≠ .waiting) → s.warmTarget ≠ 0 → (∀ e ∈ s.regions, e.2.tripped = false) →
    let u : State := { s with ktl := { s.ktl with warmFrom := s.topState } }
    exec .warmIdleEnter s = .next (((u.rbit .ktlMod 0 Reg.KTL_STATUS 10 true).raise .ktlMod 0 Reg.KTL_EVENT 7).setState stWarm))

/-- For every state, port and message of the row's type that R349 lets through on an ACTIVE port, the row's command answers
the state in which the handler of that message has run (wdataIn for WDATA, wpushIn for WPUSH, wackIn, rchunkIn, rresendIn,
rdoneIn, gformIn, helloIn, jfenceIn, fenceAnswered for JFENCE_DONE, holdIn for a BCOPY of blocks to hold, handIn for one of a
handover, cplIn for CPL, backIn for BACK) and what waits for the stream queues has gone on; after CPL and BACK, what they
ended is answered too. (R259, R264, R271, R287, R307, R346, R349, R352, R511, R512, R536, R581) -/
def Obligations.StreamMessagesAreHandled : Prop :=
  ∀ (s : State) (p : Nat) (m : Msg),
  (s.PortHears p m mWdata → exec (.wdata p m) s = .next (s.wdataIn p m).settleStreams) ∧
  (s.PortHears p m mWpush → exec (.wpush p m) s = .next (s.wpushIn p m).settleStreams) ∧
  (s.PortHears p m mWack → exec (.wack p m) s = .next (s.wackIn p m).settleStreams) ∧
  (s.PortHears p m mRchunk → exec (.rchunk p m) s = .next (s.rchunkIn p m).settleStreams) ∧
  (s.PortHears p m mRresend → exec (.rresend p m) s = .next (s.rresendIn p m).settleStreams) ∧
  (s.PortHears p m mRdone → exec (.rdone p m) s = .next (s.rdoneIn p m).settleStreams) ∧
  (s.PortHears p m mGform → exec (.gform p m) s = .next (s.gformIn p m).settleStreams) ∧
  (s.PortHears p m mHello → exec (.hello p m) s = .next (s.helloIn p m).settleStreams) ∧
  (s.PortHears p m mJfence → exec (.jfence p m) s = .next (s.jfenceIn p m).settleStreams) ∧
  (s.PortHears p m mJfenceDone → exec (.jfenceDone p m) s = .next (s.fenceAnswered p m).settleStreams) ∧
  (s.PortHears p m mBcopy → showsHandover m = false → exec (.bcopy p m) s = .next (s.holdIn p m).settleStreams) ∧
  (s.PortHears p m mBcopy → showsHandover m = true → exec (.bcopyHandover p m) s = .next (s.handIn p m).settleStreams) ∧
  (s.PortHears p m mCpl → exec (.cplReceive p m) s = .next ((s.cplIn p m).settleStreams.flushErr).settleStreams) ∧
  (s.PortHears p m mBack → exec (.back p m) s = .next ((s.backIn p m).settleStreams.flushErr).settleStreams)

/-- For every state, port and WDATA of the row, by the state the port receives in (that from which a fast retrain began,
while it runs): where it is LINK_UP, NO_VERSION or ROLE_MISMATCH it is dropped and counted as denied by role; where it is
ACTIVE, a malformed one is dropped as MALFORMED, a well-formed one for another job as foreign, one of the port's job that the
role does not allow or whose topology does not match is counted as denied by role and completed with DENIED if it asks for
it, and one that all these let through but that has another rank's address is counted as misrouted. In any other state
nothing happens to it. Each answers a next state, in which what waits for the stream queues has gone on. (R349) -/
def Obligations.MessagesStoppedByR349 : Prop :=
  ∀ (s : State) (p : Nat) (m : Msg), p < 16 → m.type.toNat = mWdata →
  let mine := m.job ≠ 0 ∧ m.job.toNat = s.portJob p
  let allowed := roleAllows (s.portRole p) mWdata = true ∧ s.topoMatch p = true
  (s.rxState p = psLinkUp ∨ s.rxState p = psNoVersion ∨ s.rxState p = psRoleMismatch →
    exec (.wdata p m) s = .next (s.bump .lnkPort p Reg.LNK_ROLE_DENIED 1).settleStreams) ∧
  (s.rxState p = psActive → msgOk m = false → exec (.wdata p m) s = .next (s.msgMalformed p m).settleStreams) ∧
  (s.rxState p = psActive → msgOk m = true → ¬ mine → exec (.wdata p m) s = .next (s.foreignJob p).settleStreams) ∧
  (s.rxState p = psActive → msgOk m = true → mine → ¬ allowed →
    exec (.wdata p m) s = .next ((s.bump .lnkPort p Reg.LNK_ROLE_DENIED 1).cplTo p m .denied).settleStreams) ∧
  (s.rxState p = psActive → msgOk m = true → mine → allowed → m.dst.toNat ≠ s.rfield .lnkPort p Reg.LNK_ROLE 47 32 →
    exec (.wdata p m) s = .next (s.bump .lnkPort p Reg.LNK_MISROUTED 1).settleStreams) ∧
  (s.rxState p ∉ [psLinkUp, psNoVersion, psRoleMismatch, psActive] → exec (.wdata p m) s = .next s.settleStreams)

/-- For every state and Infuser: WREQ_ACCEPT with a request waiting, an active version, no decision due and room for it,
takes it on, or ends it with MALFORMED where the manifest does not hold its chunks. WGET, with no chunk to ask for again and
no index wanted, begins the next chunk of the request that asks, one more asked for. CHUNK_DELIVER delivers the next chunk,
as deliverNext says, where one is next. A fetch attempt or a publication that its server does not answer in time holds its
tag and is failed or pushed again; a followed chunk goes to its next attempt; the oldest pushed chunk held too long is
dropped, raised and counted, the rest of every Infuser as before. STAGE_VERSION of a version that is not active stages it and
asks for its manifest, of the active one is DENIED; STAGE_CANCEL clears the stage; a manifest without a tag is asked for
again; a stage that takes too long is failed, or, with no version active, what waits is. (R258, R259, R260, R264, R265, R268,
R269, R271, R273) -/
def Obligations.WeightServiceTakesEffect : Prop :=
  (∀ (s : State) (p v : Nat) (q : InfReq) (rest : List InfReq), p < 16 → (s.inf p).waiting = q :: rest → s.wts.active = some v →
    s.decisionDue = false → (s.inf p).reqs.length < 16 →
    let u := s.setInf p { s.inf p with waiting := rest }
    let entry := (s.manifestOf v).bind fun m => m.entryFor q.strm.layer q.strm.colForm
    (entry = none → exec (.wreqAccept p) s = .next (u.retire q.core 3 .malformed false).settleStreams) ∧
    (∀ r, entry = some r → r.count < q.strm.chunkFirst + q.strm.chunkCount →
      exec (.wreqAccept p) s = .next (u.retire q.core 3 .malformed false).settleStreams) ∧
    (∀ r, entry = some r → q.strm.chunkFirst + q.strm.chunkCount ≤ r.count →
      let y := u.inf p
      exec (.wreqAccept p) s =
        .next ((u.setInf p { y with reqs := y.reqs ++ [{ q with version := v, entry := r }] }).retire q.core 3 .ok false).settleStreams)) ∧
  (∀ (s : State) (p : Nat) (q : InfReq), p < 16 → (s.inf p).chunks.filter (·.tagless) = [] → (s.inf p).indexWanted = [] →
    (s.inf p).asking = some q → q.asked < q.done + q.strm.lead → (s.inf p).places < 256 →
    exec (.wget p) s = .next ((s.setReq p { q with asked := q.asked + 1 }).begin_ p
      (q.chunk (.chunk (q.strm.chunkFirst + q.asked)))).settleStreams) ∧
  (∀ (s : State) (p : Nat) (fails : List (Nat × Nat)), p < 16 →
    ((s.nextDelivery p).isSome = true → exec (.chunkDeliver ⟨p, fails⟩) s = .next (s.deliverNext p fails).settleStreams) ∧
    (s.nextDelivery p = none → exec (.chunkDeliver ⟨p, fails⟩) s = .next s.settleStreams)) ∧
  (∀ (s : State) (p tag : Nat), p < 16 → s.tagUse p tag = some .infuser → s.pubOfTag p tag = none →
    exec (.attemptTimeout p tag) s = .next ((s.holdTag p tag).fetchFailed p tag true).settleStreams) ∧
  (∀ (s : State) (p tag : Nat) (w : Wpub), s.pubOfTag p tag = some w →
    exec (.wpubTimeout p tag) s = .next ((s.holdTag p tag).pushPub { w with tag := none }).settleStreams) ∧
  (∀ (s : State) (p : Nat) (c : InfChunk), p < 16 → (s.inf p).chunks.find? (·.follow) = some c →
    exec (.followTimeout p) s = .next (s.nextAttempt p { c with follow := false }).settleStreams) ∧
  (∀ (s : State) (w : Writer) (v : Word), flag v 32 = false → s.wts.active ≠ some (fld v 31 0) →
    exec (.stageVersion w v) s =
      .next ((((s.dropMan false).setStage 1 0 (fld v 31 0) []).startMan (fld v 31 0) false).answer .ok).settleStreams) ∧
  (∀ (s : State) (w : Writer) (v : Word), flag v 32 = false → s.wts.active = some (fld v 31 0) →
    exec (.stageVersion w v) s = .next (s.answer .denied).settleStreams) ∧
  (∀ (s : State) (w : Writer) (v : Word), flag v 32 = true →
    exec (.stageCancel w v) s = .next ((((s.dropMan false).setStage 0 0 s.stagedVersion []).answer .ok).settleStreams)) ∧
  (∀ s : State, exec .manifestRetry s = .next ((s.wts.man.filter fun f => f.tag.isNone).foldl State.sendMan s).settleStreams) ∧
  (∀ s : State, s.wts.waitFrom ≠ none → s.stageState = 1 → exec .stageLimitExpiry s = .next
    (((((s.dropMan false).setStage 3 5 s.stagedVersion []).stageEvent 2).stageEvent 3).failWaiting.settleStreams)) ∧
  (∀ s : State, s.wts.waitFrom ≠ none → s.stageState = 0 → s.wts.active = none →
    exec .stageLimitExpiry s = .next ((s.stageEvent 3).failWaiting.settleStreams)) ∧
  (∀ (s : State) (p : Nat) (x : HeldPush) (rest : List HeldPush), p < 16 → (s.inf p).pushes = x :: rest →
    ∃ t, exec (.pushHoldExpiry p) s = .next t ∧ t.inf p = { s.inf p with pushes := rest } ∧ (∀ q, q ≠ p → t.inf q = s.inf q) ∧
      t.mem = s.mem ∧ t.cores = s.cores ∧ t.rflag .infPort p Reg.INF_EVENT 7 = true ∧
      t.peek .infPort p Reg.INF_PUSH_DROPS = s.peek .infPort p Reg.INF_PUSH_DROPS + 1)

/-- For every state: a reduction context that is not held and times out is counted in SAM_CTX_TIMEOUTS, raises SAM_EVENT bit
4, and ends as late with TIMEOUT; a GS1 chunk whose RDONE does not come in a running step fails the step with cause REDUCE
and level ROLLBACK. A group still forming at its limit is FAILED, a reduction group with its home's event. A SAM_GRP_CMD with
its valid bit, of a known group that is not forming, with a job, an epoch that its kept set does not hold and a member of it,
gives a reduction group its epoch with the member replaced, or a Sip group its epoch, and answers OK. The first result of the
governor's exchange is taken off and ends its reduction; in a running step an exchange that is not complete and takes too
long fails with TIMEOUT. (R195, R196, R286, R301, R307, R309, R310, R311) -/
def Obligations.ReductionsEnd : Prop :=
  (∀ (s : State) (p k : Nat) (c : Ctx), (s.sam p).ctxs[k]? = some c → c.held = false →
    let u := (s.bump .samPort p Reg.SAM_CTX_TIMEOUTS 1).raise .samPort p Reg.SAM_EVENT 4
    exec (.ctxTimeout p k) s = .next (State.ctxLate u p { c with status := .timeout })) ∧
  (∀ (s : State) (p : Nat), (s.sam p).retained.any (fun r => decide (r.format = 0xB) && !r.final) = true → s.job.st = .running →
    exec (.gs1RdoneTimeout p) s = .next (s.stepFail csReduce lvRollback .timeout 0)) ∧
  (∀ (s : State) (n : Nat) (g : Grp), s.grp n = some g → g.st = .forming → exec (.formLimitExpiry false n) s = .next
    ((s.setGrp n { g with st := .failed }).raise .samPort (s.groupHome g) Reg.SAM_EVENT 9).settleStreams) ∧
  (∀ (s : State) (n : Nat) (g : SipGrp), s.sipg n = some g → g.st = .forming →
    exec (.formLimitExpiry true n) s = .next (s.setSipg n { g with st := .failed }).settleStreams) ∧
  (∀ (s : State) (w : Writer) (v : Word) (g : Grp) (x : Member), flag v 63 = true → flag v 62 = false →
    s.grp (fld v 47 40) = some g → g.cfg.job ≠ 0 → g.cfg.members[fld v 31 16]? = some x → g.st ≠ .forming →
    let r := s.epochKept (fld v 47 40) (fld v 55 48)
    r.1 = false → exec (.groupReform w v) s = .next
      ((((r.2.newEpoch (fld v 47 40) (fld v 55 48) (reformed g.cfg (fld v 31 16) (fld v 15 0))).memberReplaced x.rank
        (fld v 15 0)).answer .ok).settleStreams)) ∧
  (∀ (s : State) (w : Writer) (v : Word) (g : SipGrp), flag v 63 = true → flag v 62 = true → s.sipg (fld v 47 40) = some g →
    g.job ≠ 0 → fld v 31 16 < g.cfg.modules → g.st ≠ .forming →
    let r := s.epochKept (256 + fld v 47 40) (fld v 55 48)
    r.1 = false →
    exec (.sipGroupReform w v) s = .next (((r.2.sipNewEpoch (fld v 47 40) (fld v 55 48)).answer .ok).settleStreams)) ∧
  (∀ (s : State) (x : Exchange) (k : Nat) (st : Status) (p : List (BitVec 32)) (rest : List (Nat × Status × List (BitVec 32))),
    s.coll.exch = some x → x.results = (k, st, p) :: rest → exec (.govExchangeResult false) s =
      .next (State.exchangeEnd { s with coll := { s.coll with exch := some { x with results := rest } } } k st p).settleStreams) ∧
  (∀ (s : State) (x : Exchange), s.coll.exch = some x → s.job.st = .running → x.open_ ≠ [] ∨ x.next < 2 * s.layers →
    exec (.govExchangeResult true) s = .next (s.exchangeFail .timeout).settleStreams)

/-- For every state and Sip port: a named port that is down, with its rail ready and the clock running, comes up with nothing
sent and no partner, sends SIPHELLO, and reports. On a port that is up: a flit whose CRC-32C fails is answered in the next
slot by a NAK of its slot, and waited for; one that holds and is no control flit ends one such wait, is counted, and is
handled as its bytes give it, with MALFORMED joined to its status where a reserved code or a rsvd field is not as it must be;
an IDLE is checked and nothing else. SIPHELLO shows the partner. A NAK of a slot that is kept resends its flit with one NAK
more, up to three; at the fourth the port goes down. A NAK or SIPHELLO with a field not as R359 gives it is counted in
LNK_MALFORMED and raised. A lane lost, too, takes the port down: its flits sent and waits are gone. The first combine at the
port's unit is, when it lasts too long, dropped, counted in SIP_TIMEOUTS and raised. (R311, R312, R315, R358, R359, R360,
R440) -/
def Obligations.SipPathTakesEffect : Prop :=
  (∀ (s : State) (p : Nat), p < 16 → s.sipNamed p = true → s.sipUp p = false → s.tim.refclk = true →
    (s.die (portDie p)).edgeReady = true →
    let u := s.setPort p { s.port p with sipSlot := 0, sipUpAt := s.now, sipSent := [], sipNaks := [], sipNakWait := 0, sipPartner := 0 }
    let v := (u.rbit .lnkPort p Reg.LNK_STATUS 11 true).sendSlot p (sipHelloFlit s.blend.rank p)
    exec (.sipTrainComplete p) s = .next (v.funcReady 5 p .ok).settleStreams) ∧
  (∀ (s : State) (p slot faults : Nat) (f : FlitBytes), p < 16 → s.sipUp p = true →
    let x := s.port p
    (sipOk f = false → ∃ t, exec (.sipFlitReceive p slot f faults) s = .next t ∧
      t.out.getLast? = some (.sip p (s.sipNext p % 256) (sipNakFlit slot)) ∧
      t.port p = { x with sipNakWait := x.sipNakWait + 1, sipSlot := s.sipNext p + 1 } ∧ ∀ q, q ≠ p → t.port q = s.port q) ∧
    (sipOk f = true → leAt f 0 2 ≠ 0 →
      let u := (s.check cSip 1 0 (b2n (decide (0 < x.sipNakWait))) 0).setPort p { x with sipNakWait := x.sipNakWait - 1 }
      let g := if sipClean f then sipOf f else { sipOf f with status := (sipOf f).status.join .malformed }
      exec (.sipFlitReceive p slot f faults) s = .next ((u.bump .lnkPort p Reg.LNK_SIP_FLITS_RX 1).sipFlitIn p g faults).settleStreams) ∧
    (f = sipIdleFlit → exec (.sipFlitReceive p slot f faults) s = .next (s.check cSip 1 0 0 0))) ∧
  (∀ (s : State) (p slot : Nat) (f : FlitBytes), p < 16 → s.sipUp p = true →
    let v := s.check cSip 1 0 0 0
    let bad := (v.bump .lnkPort p Reg.LNK_MALFORMED 1).raise .lnkPort p Reg.LNK_EVENT 11
    (sipIs 2 f = true → sipControlClean f = true → ∃ t, exec (.siphello p slot f) s = .next t ∧
      t.port p = { s.port p with sipPartner := leAt f 4 2 + 65536 * bitsAt f 6 3 0 } ∧ ∀ q, q ≠ p → t.port q = s.port q) ∧
    (sipIs 2 f = true → sipControlClean f = false → exec (.siphello p slot f) s = .next bad) ∧
    (sipIs 1 f = true → sipControlClean f = false → exec (.sipNak p ⟨slot, f⟩) s = .next bad) ∧
    (∀ k g, sipIs 1 f = true → sipControlClean f = true →
      (v.port p).sipSent.find? (fun e => decide (e.1 % 256 = leAt f 3 1 ∧ v.sipNext p ≤ e.1 + 64)) = some (k, g) →
      let x := v.port p
      let n := Smap.get 0 x.sipNaks k + 1
      let u := v.setPort p { x with sipSent := Smap.del x.sipSent k, sipNaks := Smap.del x.sipNaks k }
      (n < 4 → exec (.sipNak p ⟨slot, f⟩) s = .next ((u.sendSip p g n).bump .lnkPort p Reg.LNK_SIP_NAKS 1)) ∧
      (4 ≤ n → exec (.sipNak p ⟨slot, f⟩) s = .next (((u.check cSip 0 0 0 1).raise .lnkPort p Reg.LNK_EVENT 13).sipGoesDown p)))) ∧
  (∀ (s : State) (p : Nat), p < 16 → s.sipUp p = true → ∃ t, exec (.sipLaneLoss p) s = .next t ∧ t.sipUp p = false ∧
    t.port p = { s.port p with sipSent := [], sipNaks := [], sipNakWait := 0 } ∧ ∀ q, q ≠ p → t.port q = s.port q) ∧
  (∀ (s : State) (p : Nat) (c : Combine),
    s.coll.combines.find? (fun c => match s.sipg c.group with
      | some g => decide (g.cfg.unit = p)
      | none => false) = some c →
    let u : State := { s with coll := { s.coll with combines := s.coll.combines.erase c } }
    exec (.sipCombineTimeout p) s = .next ((u.bump .sipPort p Reg.SIP_TIMEOUTS 1).raise .sipPort p Reg.SIP_EVENT 2))

/-- For every state and port, in the port state the row needs: DETECT goes to TRAIN when a partner shows; training that ends
well sets the lanes and the precoders, is LINK_UP and sends HELLO; one that fails trains again, and at the third failure the
port is fenced, as with too few lanes. LINK_UP repeats its HELLO. A linked port counts the pattern errors of a pair and takes
it in as pairIn says; what is not acknowledged in time is replayed as replay says; a lane in use past its symbol limit starts
a fast retrain without it, or fences the port where fewer than 32 lanes are left; a spare past its pattern limit is excluded,
with an open count of errors. A fast retrain that ends goes back to the state it began in without the lanes that failed,
sends again what is not acknowledged, and pumps; with too few lanes it fences; one that is late trains fully. A JFENCE that
is not answered in time holds its tag, retrains a linked port and is done with; a BCOPY that is late goes on as bcopyLate
says; a held tag is freed and granted to who waits for one. (R15, R330, R334, R336, R337, R341, R342, R352, R511, R581) -/
def Obligations.PortsTrainAndRecover : Prop :=
  (∀ (s : State) (p : Nat), p < 16 → s.portState p = psDetect → s.tim.refclk = true →
    exec (.partnerDetect p) s = .next (s.setPortState p psTrain)) ∧
  (∀ (s : State) (p rx tx pre : Nat), p < 16 → s.portState p = psTrain → s.tim.refclk = true →
    let x := s.port p
    let u := s.setPort p { x with trainFails := x.trainFails + 1 }
    exec (.portTrainComplete p false rx ⟨tx, pre⟩) s =
      .next (if 3 ≤ x.trainFails + 1 then u.fencePort p else u.retrain p).settleStreams) ∧
  (∀ (s : State) (p rx tx pre : Nat), p < 16 → s.portState p = psTrain → s.tim.refclk = true →
    let x := s.port p
    let r := rx % 2 ^ 34 ||| s.fusedLanes p true
    let t := tx % 2 ^ 34 ||| s.fusedLanes p false
    let u := (s.setLanes p Reg.LNK_LANES_RX r).setLanes p Reg.LNK_LANES_TX t
    (tooFew r = true ∨ tooFew t = true → exec (.portTrainComplete p true rx ⟨tx, pre⟩) s = .next (u.fencePort p).settleStreams) ∧
    (tooFew r = false → tooFew t = false →
      let v := (u.setPort p { x.fresh with trainFails := 0, precode := pre % 2 ^ 34 }).setPortState p psLinkUp
      exec (.portTrainComplete p true rx ⟨tx, pre⟩) s = .next (((v.judgeLanes p).sendHello p).compareTopo).settleStreams)) ∧
  (∀ (s : State) (p : Nat), p < 16 → s.portState p = psLinkUp → exec (.helloRepeat p) s = .next (s.sendHello p)) ∧
  (∀ (s : State) (p : Nat) (o : PairObs), p < 16 → linkedStates.contains (s.portState p) = true →
    exec (.pairReceive p o) s = .next ((o.prbs.foldl (State.prbsErrors p) s).pairIn p o).flushErr.settleStreams ∧
    exec (.ackTimeout p) s = .next (s.replay p).settleStreams) ∧
  (∀ (s : State) (p lane : Nat), p < 16 → linkedStates.contains (s.portState p) = true →
    (lanesInUse (s.peek .lnkPort p Reg.LNK_LANES_RX)).contains lane = true → (s.port p).fastFail.testBit lane = false →
    let left := 34 - popcount 34 (fld (s.peek .lnkPort p Reg.LNK_LANES_RX) 33 0 ||| (s.port p).fastFail ||| 2 ^ lane)
    exec (.laneSymThreshold p lane) s =
      .next (if left < 32 then (s.fencePort p).settleStreams else s.fastRetrain p (2 ^ lane))) ∧
  (∀ (s : State) (p lane : Nat), p < 16 → lane < 34 → linkedStates.contains (s.portState p) = true →
    flag (s.peek .lnkPort p Reg.LNK_LANES_RX) lane = false →
    (lanesInUse (s.peek .lnkPort p Reg.LNK_LANES_RX)).contains lane = false →
    let u := (s.useFree 1).add .lnkPort p (Reg.LNK_PRBS_ERRS + 8 * lane) (30721 + Config.freeValue s.freeIx)
    exec (.sparePrbsExclude p lane) s =
      .next (((u.raise .lnkPort p Reg.LNK_EVENT 14).excludeLanes p Reg.LNK_LANES_RX (2 ^ lane)).judgeLanes p)) ∧
  (∀ (s : State) (p tx : Nat), p < 16 → s.portState p = psFast →
    let x := s.port p
    let u := (s.setPort p { x with fastFail := 0 }).setPortState p x.fastFrom
    let v := (u.excludeLanes p Reg.LNK_LANES_RX x.fastFail).excludeLanes p Reg.LNK_LANES_TX (tx % 2 ^ 34)
    exec (.fastRetrainTimeout p) s = .next (s.retrain p).settleStreams ∧
    (tooFew (tx ||| s.rfield .lnkPort p Reg.LNK_LANES_TX 33 0) = true →
      exec (.fastRetrainComplete p tx) s = .next (v.fencePort p).settleStreams) ∧
    (tooFew (tx ||| s.rfield .lnkPort p Reg.LNK_LANES_TX 33 0) = false →
      exec (.fastRetrainComplete p tx) s = .next ((((v.judgeLanes p).resend p).pump p).compareTopo).settleStreams)) ∧
  (∀ (s : State) (p t : Nat), p < 16 → (s.port p).jfence = some t →
    let u := (s.setPort p { s.port p with
      jfence := none, tagq := (s.port p).tagq.filter fun q => !decide (q.1 = .jfence) }).holdTag p t
    exec (.jfenceTimeout p) s =
      .next ((if linkedStates.contains (u.portState p) then u.retrain p else u).fencePortDone p).settleStreams) ∧
  (∀ (s : State) (p tag : Nat), p < 16 →
    exec (.bcopyTimeout p) s = .next (s.bcopyLate p).flushErr.settleStreams ∧
    exec (.tagHoldExpiry p tag) s = .next ((s.setPort p { s.port p with
      heldTags := (s.port p).heldTags.filter fun t => !decide (t.1 = tag) }).grantTag p).settleStreams)

/-- For every state, port and word with its go bit and the row's command: on a port in TRAIN it answers BUSY, on one DISABLED
or FENCED (but for enable) DENIED, the port unchanged. Otherwise it answers OK: a full retrain (1) trains again, a fast
retrain (2) starts on a linked port, disable (3) closes the port as DISABLED, Sip retrain (5) takes the Sip port down; enable
(4) starts a DISABLED port with a role, and changes nothing on one that is neither. A write of LNK_TEST in mode 1 or 2, of
every lane, on a DISABLED port, closes it for test and answers OK; a mode of 3 or a pattern of 3 answers MALFORMED, loopback
(2) on a port not DISABLED, in TEST or FENCED is DENIED, and patterns (1) on a lane in use are BUSY, the port unchanged.
After each, what waits for the stream queues goes on. (R361, R367) -/
def Obligations.PortCommandsTakeEffect : Prop :=
  (∀ (s : State) (p : Nat) (v : Word), p < 16 → flag v 63 = true →
    let c := fld v 3 0
    let st := s.portState p
    let busy : Next := .next (s.answer .busy).settleStreams
    let denied : Next := .next (s.answer .denied).settleStreams
    let shut := st = psDisabled ∨ st = psFenced
    (c = 1 → (st = psTrain → exec (.fullRetrain p v) s = busy) ∧ (shut → exec (.fullRetrain p v) s = denied) ∧
      (st ≠ psTrain → ¬ shut → exec (.fullRetrain p v) s = .next ((s.retrain p).answer .ok).settleStreams)) ∧
    (c = 2 → (st = psTrain → exec (.fastRetrain p v) s = busy) ∧ (shut → exec (.fastRetrain p v) s = denied) ∧
      (linkedStates.contains st = true → exec (.fastRetrain p v) s = .next ((s.fastRetrain p 0).answer .ok).settleStreams)) ∧
    (c = 3 → (st = psTrain → exec (.portDisable p v) s = busy) ∧ (shut → exec (.portDisable p v) s = denied) ∧
      (st ≠ psTrain → ¬ shut → exec (.portDisable p v) s = .next (((s.closePort p psDisabled).compareTopo).answer .ok).settleStreams)) ∧
    (c = 4 → (st = psTrain → exec (.portEnable p v) s = busy) ∧
      (st = psDisabled → s.portRole p ≠ 0 → exec (.portEnable p v) s = .next ((s.startPort p).answer .ok).settleStreams) ∧
      (st ≠ psTrain → ¬ (st = psDisabled ∧ s.portRole p ≠ 0) → exec (.portEnable p v) s = .next (s.answer .ok).settleStreams)) ∧
    (c = 5 → (st = psTrain → exec (.sipRetrain p v) s = busy) ∧ (shut → exec (.sipRetrain p v) s = denied) ∧
      (st ≠ psTrain → ¬ shut → exec (.sipRetrain p v) s = .next ((s.sipGoesDown p).answer .ok).settleStreams))) ∧
  (∀ (s : State) (p : Nat) (v : Word), p < 16 →
    let mode := fld v 37 36
    let st := s.portState p
    (mode = 3 ∨ fld v 39 38 = 3 → exec (.lnkTest p v) s = .next (s.answer .malformed).settleStreams) ∧
    (mode = 2 → fld v 39 38 ≠ 3 → st ≠ psDisabled → st ≠ psTest → st ≠ psFenced →
      exec (.lnkTest p v) s = .next (s.answer .denied).settleStreams) ∧
    (mode = 1 → fld v 39 38 ≠ 3 → st = psLinkUp ∨ st = psActive ∨ st = psFast → (∃ l ∈ s.usedLanes p, (fld v 33 0).testBit l = true) →
      exec (.lnkTest p v) s = .next (s.answer .busy).settleStreams) ∧
    (st = psDisabled → mode = 1 ∨ mode = 2 → fld v 39 38 ≠ 3 → fld v 33 0 = 2 ^ 34 - 1 →
      let u := (s.rset .lnkPort p Reg.LNK_TEST 39 36 (fld v 39 36)).rset .lnkPort p Reg.LNK_TEST 33 0 (fld v 33 0)
      exec (.lnkTest p v) s = .next ((((u.closePort p psTest).compareTopo).answer .ok).settleStreams)))

/-- For every state, aligned granule of populated memory of a stack that is ready: with no flip armed, a MEMORY_WRITE of 64
bytes answers a next state in which those bytes stand at the granule's addresses and every other address reads as before, no
symbol of the granule is in error, and the answer is OK. A MEMORY_READ whose codewords all decode clean answers a next state
with memory, symbol errors and critical words as before, whose last two outputs are the 64 bytes held there and OK. (R373,
R377, R380) -/
def Obligations.WholeGranuleIsStoredAndDelivered : Prop :=
  (∀ (s : State) (a : Nat) (bs : List Byte) (u : Upset), a % 64 = 0 → populated a 64 = true → (s.stack (stackOf a)).ready = true →
    bs.length = 64 → flag (s.peek .memDie (stackOf a) Reg.MEM_FLIP_MASK) 63 = false →
    ∃ t, exec (.memoryWrite a bs u) s = .next t ∧ (∀ k, k < 64 → Smap.get 0 t.mem (a + k) = nth 0 bs k) ∧
      (∀ x, x < a ∨ a + 64 ≤ x → Smap.get 0 t.mem x = Smap.get 0 s.mem x) ∧
      (∀ j i, j < 4 → i < 18 → Smap.get 0 t.memErr (symKey a j i) = 0) ∧ t.out.getLast? = some (.status .ok)) ∧
  (∀ (s : State) (a : Nat), a % 64 = 0 → populated a 64 = true → (s.stack (stackOf a)).ready = true →
    (∀ j, j < 4 → ∀ x ∈ s.cwErrs a j, x = 0) →
    ∃ t, exec (.memoryRead a []) s = .next t ∧ t.mem = s.mem ∧ t.memErr = s.memErr ∧ t.crit = s.crit ∧
      ∃ o, t.out = o ++ [.dma (getBytes s.mem a 64), .status .ok])

/-- For every state, address and bytes: a MEMORY_WRITE or MEMORY_READ of bytes that are not populated in one stack answers
the state with the stack's count of such accesses one higher and MALFORMED; one of populated bytes of a stack that is not
ready answers the same state and UNAVAILABLE. A read delivers no byte. (R373, R417) -/
def Obligations.MemoryIsRefused : Prop :=
  ∀ (s : State) (a : Nat) (bs : List Byte) (u : Upset),
  (populated a bs.length = false →
    exec (.memoryWrite a bs u) s = .next ((s.bump .memDie (stackOf a % 64) Reg.MEM_UNPOP 1).answer .malformed)) ∧
  (populated a bs.length = true → (s.stack (stackOf a)).ready = false → exec (.memoryWrite a bs u) s = .next (s.answer .unavailable)) ∧
  (populated a 64 = false → exec (.memoryRead a u) s =
    .next (((s.bump .memDie (stackOf a % 64) Reg.MEM_UNPOP 1).send (.dma [])).answer .malformed)) ∧
  (populated a 64 = true → (s.stack (stackOf a)).ready = false →
    exec (.memoryRead a u) s = .next ((s.send (.dma [])).answer .unavailable))

/-- For every state and aligned address of a critical word in a stack that is ready: a write that is not the host's, with no
flip armed, answers a next state in which that word holds the value with three sound copies, every other word and bonded
memory as before, and OK. A read of a word of which at most one copy has two flipped bits and the others none or one, with
nothing disturbed, answers a next state whose last two outputs are its 8 bytes and OK, no word changed. A host write answers
the same state and DENIED; before the stack is ready a read or write is UNAVAILABLE. (R383, R384, R385) -/
def Obligations.CriticalWordsAreVotedOn : Prop :=
  ∀ (s : State) (a : Nat), spaceOf a = .critical → a % 8 = 0 →
  (∀ (w : Writer) (v : Word), w ≠ .host → (s.stack (critStack a)).ready = true →
    flag (s.peek .memDie (critStack a) Reg.MEM_FLIP_MASK) 63 = false →
    ∃ t, exec (.criticalWrite w a v) s = .next t ∧ t.critWord a = { val := v, errs := [0, 0, 0] } ∧
      (∀ c, (c - critBase) / 8 ≠ (a - critBase) / 8 → t.critWord c = s.critWord c) ∧ t.mem = s.mem ∧
      t.out = s.out ++ [.status .ok]) ∧
  (∀ e : BitVec 72, (s.stack (critStack a)).ready = true →
    (s.critWord a).errs = [e, 0, 0] ∨ (s.critWord a).errs = [0, e, 0] ∨ (s.critWord a).errs = [0, 0, e] → popcount 72 e.toNat ≤ 2 →
    ∃ t o, exec (.criticalRead a []) s = .next t ∧ t.out = o ++ [.dma (leBytes 8 (s.critWord a).val.toNat), .status .ok] ∧
      (∀ c, t.critWord c = s.critWord c) ∧ t.mem = s.mem) ∧
  (∀ v, exec (.criticalWrite .host a v) s = .next (s.answer .denied)) ∧
  (∀ w v, w ≠ .host → (s.stack (critStack a)).ready = false → exec (.criticalWrite w a v) s = .next (s.answer .unavailable)) ∧
  (∀ u, (s.stack (critStack a)).ready = false → exec (.criticalRead a u) s = .next ((s.send (.dma [])).answer .unavailable))

/-- For every state with the stack ready: the first of its 18 dies past its threshold is erased, MEM_EVENT bit 3 is raised
and health DEGRADED (condition 1); the same again changes nothing; a further one raises bit 4 only. A scrub read, with the
scrubber on, reads the granule at its position and goes 64 bytes on, from the end of bonded memory to the first critical
word, then scrubs critical words one by one, and ends its lap at the last. A lap past its limit is marked, raised and
alerted, once. A marked row not yet stored is stored among the soft repairs unless it is there. MEM_FLIP_MASK takes the word
written, with bit 63 to arm and without to cancel, while the module is not RUNNING, an armed mask not being empty. (R379,
R385, R386, R387, R389) -/
def Obligations.MemoryReportsTakeEffect : Prop :=
  (∀ (s : State) (n die : Nat), (s.stack n).ready = true → die < 18 → let st := s.stack n
    (st.erased = none → exec (.dieErrThreshold n die) s =
      .next (((s.setStack n { st with erased := some die }).raise .memDie n Reg.MEM_EVENT 3).degrade 1)) ∧
    (st.erased = some die → exec (.dieErrThreshold n die) s = .next s) ∧
    (∀ d, st.erased = some d → d ≠ die → exec (.dieErrThreshold n die) s = .next (s.raise .memDie n Reg.MEM_EVENT 4))) ∧
  (∀ (s : State) (n : Nat) (u : Upset) (c : CritUpset), (s.stack n).ready = true → s.rflag .scrMod 0 Reg.SCR_CTRL 32 = true →
    let pos := (s.stack n).scrubPos
    let g := 0x2000000000 * n + pos
    let r := ((s.upset g u).readGranule .scrubber g).2.2
    let a := critBase + 0x1000000 * n + 8 * pos
    let k := (s.critUpset a c).scrubCritical n a
    ((s.stack n).scrubCrit = false → pos + 64 < stackBytes →
      exec (.scrubRead n ⟨u, c⟩) s = .next (r.setStack n { r.stack n with scrubPos := pos + 64 })) ∧
    ((s.stack n).scrubCrit = false → stackBytes ≤ pos + 64 →
      exec (.scrubRead n ⟨u, c⟩) s = .next (r.setStack n { r.stack n with scrubPos := 0, scrubCrit := true })) ∧
    ((s.stack n).scrubCrit = true → pos + 1 < 2097152 →
      exec (.scrubRead n ⟨u, c⟩) s = .next (k.setStack n { k.stack n with scrubPos := pos + 1 })) ∧
    ((s.stack n).scrubCrit = true → 2097152 ≤ pos + 1 → exec (.scrubRead n ⟨u, c⟩) s = .next (k.lapDone n))) ∧
  (∀ (s : State) (n : Nat), (s.stack n).ready = true → (s.stack n).lapSlow = false → s.rflag .scrMod 0 Reg.SCR_CTRL 32 = true →
    exec (.scrubLapLimit n) s =
      .next (((s.setStack n { s.stack n with lapSlow := true }).raise .scrDie n Reg.SCR_EVENT 0).mgtAlert 10 n 0)) ∧
  (∀ (s : State) (n k : Nat) (x : RowCand), (s.stack n).cands[k]? = some x → x.marked = true → x.stored = false →
    let u := s.setStack n { s.stack n with cands := setNth (s.stack n).cands k { x with stored := true } }
    let row : SoftRow := { stack := n, row := x.row, bank := x.bank, channel := x.channel, applied := false }
    ((∀ r ∈ s.flash.soft, ¬ (r.stack = n ∧ r.row = x.row ∧ r.bank = x.bank ∧ r.channel = x.channel)) →
      exec (.rowCandidateWrite n k) s = .next { u with flash := { u.flash with soft := u.flash.soft ++ [row] } }) ∧
    ((∃ r ∈ s.flash.soft, r.stack = n ∧ r.row = x.row ∧ r.bank = x.bank ∧ r.channel = x.channel) →
      exec (.rowCandidateWrite n k) s = .next u)) ∧
  (∀ (s : State) (n : Nat) (v : Word), n < 64 → (s.die n).phase ≠ 0 → s.topState ≠ stRunning → fld v 61 60 ≠ 3 →
    let u := s.poke .memDie n Reg.MEM_FLIP_MASK (v &&& 0xF00000FF0F03FFFF)
    (flag v 63 = false → exec (.memFlipCancel n v) s = .next (u.answer .ok).settleStreams) ∧
    (flag v 63 = true → fld v 39 32 ≠ 0 → (flag v 62 = false → fld v 27 24 ≠ 0 ∧ fld v 17 0 ≠ 0) →
      exec (.memFlipArm n v) s = .next (u.answer .ok).settleStreams))

/-- For every state: with die 63's edge ready, the clock running and no store, the store's size and transfer limit are noted
and the commands of its bring-up are issued in order; a store that is there goes down as caddyDown says. The first NVMe
command ends OK and the next goes; one that fails is counted and sent once more, or, the second time, ends failed and the
next goes; one that is late is aborted and fails. A device access to bytes not populated, or to no buffer with no command
under way, is refused and counted; one inside a buffer reads or writes memory. A pre-emption notice by pin is a notice for 30
s from now in RUNNING and WARM_IDLE and is ignored, counted, elsewhere; at its margin a running step with a pre-emption
checkpoint held is abandoned; at its deadline a write for it raises CKP_EVENT bit 2. CKP_HANDOVER to a buddy port's rank that
holds the step wanted, with none under way and BCOPY in the partner's message set, starts a handover and answers OK. (R511,
R518, R519, R521, R524, R526, R527, R536, R603) -/
def Obligations.CaddyStoreTakesEffect : Prop :=
  (∀ (s : State) (nsze mdts : Nat), (s.die 63).edgeReady = true → s.tim.refclk = true → s.ckp.caddyReady = false → s.ckp.nv = [] →
    let u : State := { s with ckp := { s.ckp with
      nsze := nsze, xfer := if mdts = 0 then 262144 else min (4096 * 2 ^ mdts) 262144, storeHead := [], goodSlots := [none, none] } }
    exec (.caddyLinkUp nsze mdts) s = .next (nvLinkUp.foldl State.nvIssue (u.rset .ckpMod 0 Reg.CKP_STATUS 25 24 u.boardPosition)) ∧
    ∃ t, exec (.caddyLinkUp nsze mdts) s = .next t ∧ t.ckp.nv = nvLinkUp) ∧
  (∀ s : State, s.ckp.nv ≠ [] ∨ s.ckp.caddyReady = true →
    exec .caddyLinkDown s = .next ((s.caddyDown.settleCkp).settleStreams.runQueues)) ∧
  (∀ (s : State) (c : NvCmd) (rest : List NvCmd) (data : List Byte), s.ckp.nv = c :: rest →
    let u := s.add .ckpMod 0 Reg.CKP_NVME_ERRS 1
    let again : State := State.send { u with ckp := { u.ckp with nv := { c with retried := true } :: rest } } (.nvme { c with retried := true })
    exec (.nvmeCompletion true data) s = .next ((s.nvNext rest fun s => s.nvOk c data).settleStreams.runQueues) ∧
    (c.retried = false → exec (.nvmeCompletion false data) s = .next (again.settleStreams.runQueues)) ∧
    (c.retried = true → exec (.nvmeCompletion false data) s = .next ((u.nvNext rest fun s => s.nvFailed c).settleStreams.runQueues)) ∧
    exec .nvmeCmdTimeout s =
      .next (((s.send (.nvme { c with opcode := nvAbort, data := [] })).nvDone false []).settleStreams.runQueues)) ∧
  (∀ (s : State) (a : Nat) (bs : List Byte) (w : Bool), populated a bs.length = false ∨
      (∀ r ∈ s.nvBuffer, ¬ (r.1 ≤ a ∧ a + bs.length ≤ r.1 + r.2)) ∧ s.ckp.nv = [] →
    exec (.caddyDeviceAccess w a bs) s = .next ((s.add .ckpMod 0 Reg.CKP_DMA_REFUSED 1).answer .denied)) ∧
  (∀ (s : State) (a b n : Nat) (bs : List Byte), (b, n) ∈ s.nvBuffer → b ≤ a → a + bs.length ≤ b + n → populated a bs.length = true →
    exec (.caddyDeviceAccess true a bs) s = .next ((s.memWrite a bs).2.answer (s.memWrite a bs).1) ∧
    (let r := s.memRead a bs.length
     exec (.caddyDeviceAccess false a bs) s = .next ((r.2.2.send (.dma r.2.1)).answer r.1))) ∧
  (∀ s : State, (s.topState = stRunning ∨ s.topState = stWarm →
      exec .preemptPin s = .next ((s.notice (s.now + 30000000000)).settleStreams.runQueues)) ∧
    (s.topState ≠ stRunning → s.topState ≠ stWarm → exec .preemptPin s = .next (s.add .ckpMod 0 Reg.CKP_PREEMPT_IGNORED 1))) ∧
  (∀ (s : State) (h : CkpReq), s.ckp.held = some h → h.preempt = true → s.job.st = .running →
    exec .preemptMarginExpiry s =
      .next (((s.abandonStep.raise .ckpMod 0 Reg.CKP_EVENT 3).settleCkp).settleStreams.runQueues)) ∧
  (∀ (s : State) (w : CkpWrite), s.ckp.write = some w → w.req.preempt = true →
    exec .preemptDeadline s = .next (s.raise .ckpMod 0 Reg.CKP_EVENT 2)) ∧
  (∀ (s : State) (w : Writer) (v : Word), flag v 63 = true → let h := s.peek .ckpMod 0 Reg.CKP_BUDDY_HOLD
    s.canSend (fld v 35 32) mBcopy ≠ .version → s.portRole (fld v 35 32) = 3 → s.expectRank (fld v 35 32) = fld v 15 0 → fld h 31 30 = 2 →
    fld h 63 32 = (s.peek .ckpMod 0 Reg.CKP_HANDOVER_STEP).toNat % 2 ^ 32 → s.ckp.hand = none → s.ckp.recv = none →
    exec (.ckpHandover w v) s = .next ((s.goHand
      { port := fld v 35 32, step := fld h 63 32, block := 0, tries := 0, tag := 0, rank := fld v 15 0 }).answer .ok))

/-- For every state and word with its valid bit: SEC_SEAL with the magic, on an unsealed module in READY with no job and an
owner key, answers a next state in which the owner hash is the one written, every other fuse as before, and OK; where the
fuse does not read back it answers CHECK_FAIL and health is FAILED. With another magic or no owner key it answers MALFORMED,
and with both on a sealed module DENIED; nothing else changes. SEC_FW_CMD 2, of address 0, raises the fuse epoch to that of
the running firmware where it is higher, and is DENIED where it is not; SEC_FW_CMD 1 writes the slot as R546 says and shows
its status. (R543, R546, R547) -/
def Obligations.FusesAreWrittenOnce : Prop :=
  ∀ (s : State) (w : Writer) (v : Word), flag v 63 = true →
  (s.fuse.owner = none → s.topState = stReady → s.job.isOpen = false → fld v 31 0 = 0x5345414C → s.ownerHash ≠ 0 →
    (∃ t, exec (.secSeal w v true) s = .next t ∧ t.fuse = { s.fuse with owner := some (BitVec.ofNat 256 s.ownerHash) } ∧
      t.rflag .secMod 0 Reg.SEC_EVENT 0 = true ∧ t.out.getLast? = some (.status .ok) ∧ t.mem = s.mem) ∧
    exec (.secSeal w v false) s = .next ((s.failHealth 0).answer .checkFail)) ∧
  (∀ same, fld v 31 0 ≠ 0x5345414C ∨ s.ownerHash = 0 → exec (.secSeal w v same) s = .next (s.answer .malformed)) ∧
  (∀ h same, s.fuse.owner = some h → fld v 31 0 = 0x5345414C → s.ownerHash ≠ 0 →
    exec (.secSeal w v same) s = .next (s.answer .denied)) ∧
  (∀ same, fld v 62 60 = 1 → let r := s.fwWrite (fld v 48 0) same
    exec (.fwUpdate w v same) s = .next ((r.2.rset .secMod 0 Reg.SEC_FW_STATUS 35 32 r.1.code).answer r.1)) ∧
  (fld v 62 60 = 2 → fld v 48 0 = 0 → s.fuse.epoch < s.fwRunning.epoch →
    ∃ t, exec (.fwEpochRaise w v) s = .next t ∧ t.fuse = { s.fuse with epoch := s.fwRunning.epoch } ∧
      t.rflag .secMod 0 Reg.SEC_EVENT 2 = true ∧ t.out.getLast? = some (.status .ok)) ∧
  (fld v 62 60 = 2 → fld v 48 0 = 0 → s.fwRunning.epoch ≤ s.fuse.epoch →
    exec (.fwEpochRaise w v) s = .next ((s.rset .secMod 0 Reg.SEC_FW_STATUS 35 32 Status.denied.code).answer .denied))

/-- For every state and word, and every row's register: the status of the write goes back to the writer, and what waits for
the stream queues goes on. ENG_TAU takes a factor (bits 9:0) that is not 0, and no other bit; one of 0 is MALFORMED and
changes nothing. A seed word is DENIED in RUNNING, and otherwise written, and kept in an open job's seed. A core's counter is
BUSY unless its region is drained, and otherwise takes bits 49:0. TIM_CTRL takes its RW fields. TOP_REGION_RELEASE releases a
drained region, and is DENIED for one that is not. An event register that is reached is cleared of the bits written as 1, as
clearEvents says. A write to an address that is no register's is DENIED in the counter space and MALFORMED elsewhere; any
other goes to its register. (R7, R9, R34, R84, R88, R92, R506, R593, R613) -/
def Obligations.RegisterWritesTakeEffect : Prop :=
  (∀ (s : State) (w : Writer) (v : Word),
    let a := blockBase .engMod 0 + Reg.ENG_TAU
    let word := (s.shown .engMod 0 Reg.ENG_TAU &&& ~~~0x3FF) ||| (v &&& 0x3FF)
    (fld v 9 0 = 0 → exec (.engTauWrite w v) s = .next (s.answer .malformed).settleStreams) ∧
    (fld v 9 0 ≠ 0 → exec (.engTauWrite w v) s = .next
      ((State.poke { s with pendRegs := Smap.del s.pendRegs a } .engMod 0 Reg.ENG_TAU word).answer .ok).settleStreams)) ∧
  (∀ (s : State) (w : Writer) (v : Word) (k : Nat), k < 4 →
    (s.topState = stRunning → exec (.engSrSeedWrite w k v) s = .next (s.answer .denied).settleStreams) ∧
    (s.topState ≠ stRunning → s.job.isOpen = false →
      exec (.engSrSeedWrite w k v) s = .next ((s.poke .engMod 0 (Reg.ENG_SR_SEED + 8 * k) v).answer .ok).settleStreams) ∧
    (s.topState ≠ stRunning → s.job.isOpen = true →
      let u := s.poke .engMod 0 (Reg.ENG_SR_SEED + 8 * k) v
      let seed := padTo 32 u.job.seed
      exec (.engSrSeedWrite w k v) s = .next (State.answer { u with job := { u.job with
        seed := seed.take (8 * k) ++ leBytes 8 v.toNat ++ seed.drop (8 * k + 8) } } .ok).settleStreams)) ∧
  (∀ (s : State) (w : Writer) (v : Word) (i r : Nat), isCore i = true → s.blockGate .engCore i = .ok → s.coreRegion i = some r →
    ((s.region r).drained = true → exec (.engSrCounterWrite w i v) s =
      .next ((s.setCore i { s.core i with srCounter := fld v 49 0 }).answer .ok).settleStreams) ∧
    ((s.region r).drained = false → exec (.engSrCounterWrite w i v) s = .next (s.answer .busy).settleStreams)) ∧
  (∀ (s : State) (w : Writer) (v : Word) (r : RegDef), findReg .timMod Reg.TIM_CTRL = some r → exec (.timCtrlWrite w v) s = .next
    ((s.poke .timMod 0 Reg.TIM_CTRL (r.written (s.peek .timMod 0 Reg.TIM_CTRL) v (BitVec.allOnes 64))).answer .ok).settleStreams) ∧
  (∀ (s : State) (w : Writer) (v : Word), flag v 63 = true → s.knownRegion (fld v 15 0) = true →
    ((s.region (fld v 15 0)).drained = true → exec (.topRegionRelease w v) s = .next
      ((s.setRegion (fld v 15 0) { s.region (fld v 15 0) with released := true }).answer .ok).settleStreams) ∧
    ((s.region (fld v 15 0)).drained = false → exec (.topRegionRelease w v) s = .next (s.answer .denied).settleStreams)) ∧
  (∀ (s : State) (w : Writer) (v : Word) (a : Nat) (b : RBlk) (i o : Nat) (r : RegDef), regSite a = some (b, i, o) → o % 8 = 0 →
    findReg b o = some r → r.latches = true → s.blockGate b i = .ok →
    exec (.eventRegisterClear w a v) s = .next ((s.clearEvents b i o r v (BitVec.allOnes 64)).answer .ok).settleStreams) ∧
  (∀ (s : State) (w : Writer) (v : Word) (a n : Nat),
    (regSite a = none → exec (.registerWrite w a n v) s =
      .next (s.answer (if spaceOf a = .counter then .denied else .malformed))) ∧
    (∀ b i o, regSite a = some (b, i, o) → exec (.registerWrite w a n v) s = .next (State.wrote (s.regWrite b i o n v))))

/-- For every state and request of the row's type that the module hears and accepts, the row answers a next state, from the
state counted and traced: STATUS_READ the status body; ALERT_ACK takes the alerts of its number off; BIND makes the source
the manager, with no reply kept; POWER takes a cap no higher than the Blend's, 0 restoring it, and refuses a higher one;
KEEP_WARM takes a target of 0, of 40.0 to 85.0 degrees, or, for 0xFFFF, none of its own, and refuses another with MALFORMED;
COUNTER_READ answers 1 to 128 words of the counter space. (R565, R574, R575, R576, R577, R578, R579) -/
def Obligations.ManagementRequestsTakeEffect : Prop :=
  ∀ (s : State) (m : MgtMsg),
  let u := s.mgtHeard m
  let b := m.body
  (s.MgtHears m gStatusRead → exec (.statusRead m) s = .next (u.gReply m .ok u.statusBody)) ∧
  (s.MgtHears m gAlertAck →
    let v : State := { u with mgt := { u.mgt with alerts := u.mgt.alerts.filter fun a => !decide (a.num % 2 ^ 32 = leAt b 0 4) } }
    exec (.alertAck m) s = .next (v.alertPin.gReply m .ok [])) ∧
  (s.MgtHears m gBind →
    let v : State := { u with mgt := { u.mgt with manager := some m.src, replies := [] } }
    exec (.bind m) s = .next (((v.rbit .mgtMod 0 Reg.MGT_STATUS 1 true).raise .mgtMod 0 Reg.MGT_EVENT 0).gReply m .ok [])) ∧
  (s.MgtHears m gPower → let cap := leAt b 0 4
    let v : State := { u with mgt := { u.mgt with capOrder := if cap = 0 then none else some cap } }
    (cap ≤ u.blend.power.cap → exec (.power m) s = .next (v.showKettle.gReply m .ok [])) ∧
    (u.blend.power.cap < cap → exec (.power m) s = .next (u.gReply m .denied []))) ∧
  (s.MgtHears m gKeepWarm → let t := leAt b 0 2
    let v : State := { u with mgt := { u.mgt with warmOrder := if t = 0xFFFF then none else some t } }
    (t = 0 ∨ t = 0xFFFF ∨ 400 ≤ t ∧ t ≤ 850 → exec (.keepWarm m) s = .next (v.gReply m .ok [])) ∧
    (¬ (t = 0 ∨ t = 0xFFFF ∨ 400 ≤ t ∧ t ≤ 850) → exec (.keepWarm m) s = .next (u.gReply m .malformed []))) ∧
  (s.MgtHears m gCounterRead → let a := leAt b 0 8
    let n := leAt b 8 2
    1 ≤ n → n ≤ 128 → 0x300000000000 ≤ a → a + 8 * n ≤ 0x300100000000 →
    let r := pieces u.counterRead a (8 * n)
    exec (.counterRead m) s = .next (u.gReply m r.1 r.2))

/-- For every state and request of the row's type that the module hears and accepts, from the state counted and traced:
PREEMPT is a notice for its deadline, 30 s from now for 0, and not before now. JOB_FENCE is BUSY while another runs; of a job
that is neither open nor on a port it is answered OK; otherwise the job is fenced as fenceOpen and fenceParts say, with OK at
once where no port has it, and noted as running on its ports where some have. ROLLBACK to a step whose predecessor is held is
answered OK and ordered; to another, or of another job, it is DENIED. REFORM is answered as a write of SAM_GRP_CMD, HANDOVER
as one of CKP_HANDOVER after its step is noted. RECOVER_WRITE of a whole KiB below 16 MiB buffers it; RECOVER_COMMIT of an
image that verifies is answered OK, fills slot 0 and starts the module again, and of another is DENIED. (R310, R497, R498,
R515, R523, R536, R548, R575, R581, R582) -/
def Obligations.ManagementOrdersTakeEffect : Prop :=
  ∀ (s : State) (m : MgtMsg),
  let u := s.mgtHeard m
  let b := m.body
  (s.MgtHears m gPreempt → let d := leAt b 0 8
    exec (.preempt m) s =
      .next (((u.notice (if d = 0 then u.now + 30000000000 else max d u.now)).settleStreams.runQueues).gReply m .ok [])) ∧
  (s.MgtHears m gJobFence → let j := leAt b 0 2
    let ports := (List.range 16).filter fun p => decide (j ≠ 0) && decide (u.portJob p = j)
    let v := ((u.fenceOpen j).fenceParts j ports).settleStreams.runQueues
    (u.mgt.fence ≠ none → exec (.jobFence m) s = .next (u.gReply m .busy [])) ∧
    (u.mgt.fence = none → ports = [] → ¬ (u.job.isOpen = true ∧ u.job.id = j) → exec (.jobFence m) s = .next (u.gReply m .ok [])) ∧
    (u.mgt.fence = none → ports = [] → u.job.isOpen = true → u.job.id = j → exec (.jobFence m) s = .next (v.gReply m .ok [])) ∧
    (u.mgt.fence = none → ports ≠ [] →
      let x := u.fenceOpen j
      let w : State := { x with mgt := { x.mgt with
        fence := some { src := m.src, seq := m.seq, type := m.type, job := m.job.toNat, ports := ports } } }
      exec (.jobFence m) s = .next (w.fenceParts j ports).settleStreams.runQueues)) ∧
  (s.MgtHears m gRollback → let r := leAt b 8 8
    let h := u.holdsStep (r - 1)
    (u.job.isOpen = true → leAt b 0 2 = u.job.id → r ≠ 0 → h.1 = true →
      let v := h.2.gReply m .ok []
      exec (.rollback m) s =
        .next ((State.settleOrder { v with mgt := { v.mgt with order := some r } }).settleStreams.runQueues)) ∧
    (u.job.isOpen = true → leAt b 0 2 = u.job.id → r ≠ 0 → h.1 = false → exec (.rollback m) s = .next (h.2.gReply m .denied [])) ∧
    (u.job.isOpen = false ∨ leAt b 0 2 ≠ u.job.id ∨ r = 0 → exec (.rollback m) s = .next (u.gReply m .denied []))) ∧
  (s.MgtHears m gReform → let r := u.wrGrpCmd (BitVec.ofNat 64 (leAt b 0 8))
    exec (.reform m) s = .next (r.2.settleStreams.gReply m r.1 [])) ∧
  (s.MgtHears m gHandover →
    let v := u.poke .ckpMod 0 Reg.CKP_HANDOVER_STEP (BitVec.ofNat 64 (leAt b 0 8))
    let r := v.wrHandover (BitVec.ofNat 64 (leAt b 8 8))
    exec (.handover m) s = .next (r.2.settleStreams.gReply m r.1 [])) ∧
  (s.MgtHears m gRecoverWrite → let o := leAt b 0 4
    o % 1024 = 0 → o + 1024 ≤ 16777216 →
    exec (.recoverWrite m) s =
      .next (State.gReply { u with mgt := { u.mgt with image := putBytes u.mgt.image o (b.drop 8) } } m .ok [])) ∧
  (s.MgtHears m gRecoverCommit → let n := leAt b 0 4
    4096 ≤ n → n ≤ 16777216 →
    (∀ x, u.recovered n = some x → exec (.recoverCommit m) s =
      .next (((u.gReply m .ok []).putSlot 0 x).coldStart { u.top.boot with slot0Ok := true })) ∧
    (u.recovered n = none → exec (.recoverCommit m) s = .next (u.gReply m .denied [])))

/-- For every powered state with the management link up: a message of a reserved type, addressed to the module and not
repeated, from any source while no job is open, is answered with MALFORMED. A STATUS_REPORT sends the status; ALERT_RESEND
sends an alert that is still held. For every powered state an I3C poll of the first target alone that answers sets its sensor
register and clears its misses; one that does not counts a miss. (R574, R575, R578, R579, R580) -/
def Obligations.ManagementMessagesAreChecked : Prop :=
  (∀ (s : State) (m : MgtMsg), s.powered = true → s.mgtUp = true → gAddressed m = true → m.type.toNat ∉ gRequests →
    s.keptReply m = none → s.mgt.fence = none → s.job.isOpen = false →
    exec (.reservedMgtMessage m) s = .next ((s.add .mgtMod 0 Reg.MGT_RX 1).leaveWarm.gReply m .malformed [])) ∧
  (∀ s : State, s.powered = true → exec .statusReport s = .next s.sendStatus) ∧
  (∀ (s : State) (n : Nat) (a : Alert), s.mgt.alerts.find? (fun a => decide (a.num = n)) = some a →
    exec (.alertResend n) s = .next (s.mgtSend 3 (s.alertBody a))) ∧
  (∀ (s : State) (w : Word), s.powered = true →
    (∃ t, exec (.i3cPoll [some w]) s = .next t ∧ t.peek .mgtMod 0 Reg.MGT_SENSOR = w ∧
      t.mgt = { s.mgt with misses := setNth s.mgt.misses 0 0 }) ∧
    (∃ t, exec (.i3cPoll [none]) s = .next t ∧ t.mgt.misses = setNth s.mgt.misses 0 (nth 0 s.mgt.misses 0 + 1)))

/-- For every state with the management link up: an announcement in the domain in force selects the better master and sets
TIM_STATUS bit 1. A Sync of the selected master in that domain steps the timebase by its offset where it is the first, or
above 1 ms with no job open; any other is counted, shown and slews, the time unchanged; the sixteenth in a row below 500 ns
locks, one above 1 µs unlocks. For every state: a Sync that is late unlocks a started timebase and is counted. Trace samples
are taken of the 16 slots of a powered module when their period is set. With the reference clock lost on an unpowered module
nothing else changes; its return is noted and the trace lanes shown. With 48 V out of range the module is COLD with no
memory, no core and no die, PWR_EN as it was, flash and fuses kept. (R583, R584, R585, R588, R593, R604) -/
def Obligations.TimeServiceTakesEffect : Prop :=
  (∀ (s : State) (a : PtpAnnounce), s.mgtUp = true → a.domain = s.tim.domain → s.rfield .timMod 0 Reg.TIM_CTRL 7 0 = s.tim.domain →
    ∃ t, exec (.announce a) s = .next t ∧ t.tim = { s.tim with best := some (bestOf s.tim.best a.master) } ∧
      t.rflag .timMod 0 Reg.TIM_STATUS 1 = true) ∧
  (∀ (s : State) (y : PtpSync) (b : PtpMaster), s.mgtUp = true → s.tim.best = some b → b.port = y.port → y.domain = s.tim.domain →
    let u := (s.add .timMod 0 Reg.TIM_SYNCS 1).rset .timMod 0 Reg.TIM_STATUS 63 32 (offset32 y.offset)
    let good := if y.offset.natAbs < 500 then s.tim.good + 1 else 0
    (s.tim.stepped = false ∨ 1000000 < y.offset.natAbs ∧ s.job.isOpen = false → ∃ t, exec (.sync y) s = .next t ∧
      t.tim.ns = (((s.tim.ns : Int) - y.offset) % 2 ^ 64).toNat ∧ t.tim.stepped = true ∧ t.tim.good = good) ∧
    (s.tim.stepped = true → y.offset.natAbs ≤ 1000000 ∨ s.job.isOpen = true →
      exec (.sync y) s = .next (u.slew.judgeLock y.offset) ∧ (u.slew.judgeLock y.offset).tim.ns = s.tim.ns ∧
      (1000 < y.offset.natAbs → (u.slew.judgeLock y.offset).rflag .timMod 0 Reg.TIM_STATUS 0 = false) ∧
      (y.offset.natAbs < 500 → 15 ≤ s.tim.good → (u.slew.judgeLock y.offset).rflag .timMod 0 Reg.TIM_STATUS 0 = true))) ∧
  (∀ s : State, s.tim.started = true → ∃ t, exec .syncTimeout s = .next t ∧ t.tim = { s.tim with good := 0 } ∧
    t.rflag .timMod 0 Reg.TIM_STATUS 0 = false ∧
    t.peek .timMod 0 Reg.TIM_SYNC_TIMEOUTS = s.peek .timMod 0 Reg.TIM_SYNC_TIMEOUTS + 1) ∧
  (∀ s : State, s.powered = true → s.rfield .trcMod 0 Reg.TRC_CTRL 63 48 ≠ 0 →
    exec .traceSample s = .next ((List.range 16).foldl State.sampleSlot s)) ∧
  (∀ s : State, s.tim.refclk = true → s.powered = false →
    exec .refclkLoss s = .next { s with tim := { s.tim with refclk := false } }) ∧
  (∀ s : State, s.tim.refclk = false →
    exec .refclkReturn s = .next (State.showTrace { s with tim := { s.tim with refclk := true } })) ∧
  (∀ s : State, ∃ t, exec .inputOutOfRange s = .next t ∧ t.topState = stCold ∧ t.top.inRange = false ∧ t.top.pwrEn = s.top.pwrEn ∧
    t.mem = [] ∧ t.cores = [] ∧ t.dies = [] ∧ t.flash = s.flash ∧ t.fuse = s.fuse)

/-- For every powered state with the reference clock, REFCLK_LOSS answers the state in which the clock is gone, the timebase
unlocked, the management link down, every linked port retraining and every Sip port down, the Caddy store down where there is
one, the manager alerted, and what waited goes on. (R604) -/
def Obligations.RefclkLossTakesLinksDown : Prop :=
  ∀ s : State, s.tim.refclk = true → s.powered = true →
  let u : State := State.unlock { s with tim := { s.tim with refclk := false } }
  let v := (List.range 16).foldl (fun s p => if linkedStates.contains (s.portState p) then s.retrain p else s)
    (u.rbit .mgtMod 0 Reg.MGT_STATUS 0 false)
  let w := (List.range 16).foldl (fun s p => if s.sipUp p then s.sipGoesDown p else s) v
  let x := if w.ckp.nv.isEmpty ∧ ¬ w.ckp.caddyReady then w else w.caddyDown.settleCkp
  exec .refclkLoss s = .next (((x.showTrace.mgtAlert 18 7 0).settleStreams).runQueues) ∧ ∀ p, p < 16 → w.sipUp p = false
end

