-- ==== Sys2Proof/Laws/Store.lean ====
section
/-! SUPPORT. The laws of a table (Machine/Store.lean): a read after a write, and that every operation keeps the canonical form. -/

namespace Sys2Proof.Machine

variable {β : Type}

/-! ## A read after a write -/

theorem Smap.get_put_self (d : β) (m : Smap β) (n : Nat) (v : β) : Smap.get d (Smap.put m n v) n = v := by
  induction m with
  | nil => simp [Smap.put, Smap.get]
  | cons e m ih =>
    obtain ⟨k, w⟩ := e
    simp only [Smap.put]
    split
    · simp [Smap.get]
    · split
      · simp [Smap.get]
      · simp only [Smap.get]
        split
        · contradiction
        · exact ih

theorem Smap.get_put_ne (d : β) (m : Smap β) (n k : Nat) (v : β) (h : k ≠ n) :
    Smap.get d (Smap.put m n v) k = Smap.get d m k := by
  induction m with
  | nil => simp [Smap.put, Smap.get, h]
  | cons e m ih =>
    obtain ⟨j, w⟩ := e
    simp only [Smap.put]
    split
    · simp [Smap.get, h]
    · split
      · subst j; simp [Smap.get, h]
      · simp only [Smap.get, ih]

theorem Smap.get_del_self (d : β) (m : Smap β) (n : Nat) : Smap.get d (Smap.del m n) n = d := by
  induction m with
  | nil => rfl
  | cons e m ih =>
    obtain ⟨k, w⟩ := e
    simp only [Smap.del]
    split
    · exact ih
    · simp only [Smap.get]
      split
      · contradiction
      · exact ih

theorem Smap.get_del_ne (d : β) (m : Smap β) (n k : Nat) (h : k ≠ n) :
    Smap.get d (Smap.del m n) k = Smap.get d m k := by
  induction m with
  | nil => rfl
  | cons e m ih =>
    obtain ⟨j, w⟩ := e
    simp only [Smap.del]
    split
    · subst j; simp [Smap.get, h, ih]
    · simp only [Smap.get, ih]

/-- A write lists the value or, where it is what an unlisted key reads as, lists nothing. -/
theorem Smap.set_eq [DecidableEq β] (d : β) (m : Smap β) (n : Nat) (v : β) :
    Smap.set d m n v = if v = d then Smap.del m n else Smap.put m n v := by cases m <;> rfl

@[simp] theorem Smap.get_set_self [DecidableEq β] (d : β) (m : Smap β) (n : Nat) (v : β) :
    Smap.get d (Smap.set d m n v) n = v := by
  rw [Smap.set_eq]
  split
  · rename_i h; rw [h, Smap.get_del_self]
  · exact Smap.get_put_self d m n v

theorem Smap.get_set_ne [DecidableEq β] (c d : β) (m : Smap β) (n k : Nat) (v : β) (h : k ≠ n) :
    Smap.get c (Smap.set d m n v) k = Smap.get c m k := by
  rw [Smap.set_eq]
  split
  · exact Smap.get_del_ne c m n k h
  · exact Smap.get_put_ne c m n k v h

/-! ## The canonical form -/

/-- Canonical form as a proposition: keys strictly rising, no entry that reads as an unlisted one. -/
def Smap.Canon (d : Nat → β) (m : Smap β) : Prop := (m.Pairwise fun a b => a.1 < b.1) ∧ ∀ e ∈ m, e.2 ≠ d e.1

theorem Smap.wf_iff [DecidableEq β] (d : Nat → β) (m : Smap β) : Smap.wf d m = true ↔ Smap.Canon d m := by
  simp [Smap.wf, Smap.sorted, Smap.Canon]

theorem Smap.Canon.nil (d : Nat → β) : Smap.Canon d [] := ⟨List.Pairwise.nil, by simp⟩

theorem Smap.Canon.filter {d : Nat → β} {m : Smap β} (h : Smap.Canon d m) (p : Nat × β → Bool) :
    Smap.Canon d (m.filter p) :=
  ⟨h.1.filter p, fun e he => h.2 e (List.mem_of_mem_filter he)⟩

theorem Smap.mem_del {m : Smap β} {n : Nat} {e : Nat × β} (h : e ∈ Smap.del m n) : e ∈ m := by
  induction m with
  | nil => simp [Smap.del] at h
  | cons x m ih =>
    simp only [Smap.del] at h
    split at h
    · exact List.mem_cons_of_mem _ (ih h)
    · rcases List.mem_cons.mp h with h | h
      · exact h ▸ List.mem_cons_self
      · exact List.mem_cons_of_mem _ (ih h)

theorem Smap.Canon.del {d : Nat → β} {m : Smap β} (h : Smap.Canon d m) (n : Nat) : Smap.Canon d (Smap.del m n) := by
  refine ⟨?_, fun e he => h.2 e (Smap.mem_del he)⟩
  obtain ⟨hp, -⟩ := h
  induction m with
  | nil => exact List.Pairwise.nil
  | cons x m ih =>
    simp only [Smap.del]
    obtain ⟨hx, hm⟩ := List.pairwise_cons.mp hp
    split
    · exact ih hm
    · exact List.pairwise_cons.mpr ⟨fun e he => hx e (Smap.mem_del he), ih hm⟩

theorem Smap.mem_put {m : Smap β} {n : Nat} {v : β} {e : Nat × β} (h : e ∈ Smap.put m n v) : e = (n, v) ∨ e ∈ m := by
  induction m with
  | nil => simpa [Smap.put] using h
  | cons x m ih =>
    simp only [Smap.put] at h
    split at h
    · simpa using h
    · split at h
      · rcases List.mem_cons.mp h with h | h
        · exact .inl h
        · exact .inr (List.mem_cons_of_mem _ h)
      · rcases List.mem_cons.mp h with h | h
        · exact .inr (h ▸ List.mem_cons_self)
        · exact (ih h).imp id (List.mem_cons_of_mem _)

theorem Smap.Canon.put {d : Nat → β} {m : Smap β} (h : Smap.Canon d m) (n : Nat) (v : β) (hv : v ≠ d n) :
    Smap.Canon d (Smap.put m n v) := by
  refine ⟨?_, fun e he => ?_⟩
  · obtain ⟨hp, -⟩ := h
    induction m with
    | nil => simp [Smap.put]
    | cons x m ih =>
      obtain ⟨hx, hm⟩ := List.pairwise_cons.mp hp
      simp only [Smap.put]
      split
      · rename_i hn
        refine List.pairwise_cons.mpr ⟨fun e he => ?_, hp⟩
        rcases List.mem_cons.mp he with he | he
        · exact he ▸ hn
        · exact lt_trans hn (hx e he)
      · split
        · rename_i hn
          refine List.pairwise_cons.mpr ⟨fun e he => ?_, hm⟩
          have := hx e he
          simp only at this ⊢
          omega
        · refine List.pairwise_cons.mpr ⟨fun e he => ?_, ih hm⟩
          rcases Smap.mem_put he with he | he
          · subst he; simp only; omega
          · exact hx e he
  · rcases Smap.mem_put he with he | he
    · subst he; exact hv
    · exact h.2 e he

theorem Smap.Canon.set [DecidableEq β] {d : β} {m : Smap β} (h : Smap.Canon (fun _ => d) m) (n : Nat) (v : β) :
    Smap.Canon (fun _ => d) (Smap.set d m n v) := by
  rw [Smap.set_eq]
  split
  · exact h.del n
  · exact h.put n v ‹_›

/-- A fold keeps what each of its steps keeps. -/
theorem foldl_keeps {α γ : Type} {P : γ → Prop} (f : γ → α → γ) (hf : ∀ c a, P c → P (f c a)) (l : List α) (c : γ) (h : P c) :
    P (l.foldl f c) := by
  induction l generalizing c with
  | nil => exact h
  | cons a l ih => exact ih _ (hf c a h)

theorem Smap.Canon.putBytes {m : Smap Byte} (h : Smap.Canon (fun _ => 0) m) (a : Nat) (bs : List Byte) :
    Smap.Canon (fun _ => 0) (putBytes m a bs) := by
  induction bs generalizing m a with
  | nil => exact h
  | cons b bs ih => exact ih (h.set a b) _

theorem Smap.Canon.putBits {m : Smap Byte} (h : Smap.Canon (fun _ => 0) m) (a o n v : Nat) :
    Smap.Canon (fun _ => 0) (putBits m a o n v) :=
  h.putBytes a _

/-- Bytes that a write does not name read as before. -/
theorem getByte_putBytes_out (m : Smap Byte) (a : Nat) (bs : List Byte) (k : Nat) (h : k < a ∨ a + bs.length ≤ k) :
    Smap.get 0 (putBytes m a bs) k = Smap.get 0 m k := by
  induction bs generalizing m a with
  | nil => rfl
  | cons b bs ih =>
    simp only [List.length_cons] at h
    simp only [putBytes]
    rw [ih _ _ (by omega), Smap.get_set_ne _ _ _ _ _ _ (by omega)]

/-- The bytes that a write names read as written. -/
theorem getByte_putBytes_in (m : Smap Byte) (a : Nat) (bs : List Byte) (k : Nat) (h : k < bs.length) :
    Smap.get 0 (putBytes m a bs) (a + k) = bs[k] := by
  induction bs generalizing m a k with
  | nil => simp at h
  | cons b bs ih =>
    simp only [putBytes]
    cases k with
    | zero => rw [getByte_putBytes_out _ _ _ _ (by omega)]; simp
    | succ k =>
      have := ih (Smap.set 0 m a b) (a + 1) k (by simpa using h)
      simpa [Nat.add_assoc, Nat.add_comm 1] using this

/-! ## A pair chosen by a condition -/

@[simp] theorem ite_snd {α β : Type} (c : Prop) [Decidable c] (a b : α × β) :
    (if c then a else b).2 = if c then a.2 else b.2 := by split <;> rfl

end Sys2Proof.Machine
end

