-- ==== Sys2Proof/Laws/Calm.lean ====
section
/-! SUPPORT. What reports leave alone: operations that count, trace, log, raise events or send messages change registers, messages, records and the host and management queues, and nothing else. One lemma for each. -/

namespace Sys2Proof.Machine

/-- Everything but registers, messages, records, counters of the record, the host and management queues. -/
def State.calm (s : State) : (List Instr) × (Smap Word) × (List (Nat × Nat)) × (Smap Byte) × (Smap Byte) × (Smap CritWord) × (Smap Stack) × (Smap Core) × (Smap Cluster) × (Smap Die) × (Smap Region) × (List Sig) × (List Takeover) × (Top) × (Flash) × (Fuse) × (Blend) × (Job) × (Smap Port) × (Coll) × (Wts) × (Ckp) × (Sec) × (Kettle) × (Tim) := (s.pending, s.pendRegs, s.meshLost, s.mem, s.memErr, s.crit, s.stackSt, s.cores, s.clusters, s.dies, s.regions, s.sigs, s.takeovers, s.top, s.flash, s.fuse, s.blend, s.job, s.ports, s.coll, s.wts, s.ckp, s.sec, s.ktl, s.tim)
@[simp] theorem State.calm_mk :
    ∀ x0 x1 x2 x3 x4 x5 x6 x7 x8 x9 x10 x11 x12 x13 x14 x15 x16 x17 x18 x19 x20 x21 x22 x23 x24 x25 x26 x27 x28 x29 x30 x31 x32 x33 x34, (State.mk x0 x1 x2 x3 x4 x5 x6 x7 x8 x9 x10 x11 x12 x13 x14 x15 x16 x17 x18 x19 x20 x21 x22 x23 x24 x25 x26 x27 x28 x29 x30 x31 x32 x33 x34).calm = (x0, x4, x7, x10, x11, x12, x13, x14, x15, x16, x17, x18, x19, x21, x22, x23, x24, x25, x26, x27, x28, x30, x31, x32, x34) := by
  intros; rfl
@[simp] theorem State.pair_calm (s : State) : (s.pending, s.pendRegs, s.meshLost, s.mem, s.memErr, s.crit, s.stackSt, s.cores, s.clusters, s.dies, s.regions, s.sigs, s.takeovers, s.top, s.flash, s.fuse, s.blend, s.job, s.ports, s.coll, s.wts, s.ckp, s.sec, s.ktl, s.tim) = s.calm := rfl
@[simp] theorem foldl_calm {α : Type} (f : State → α → State) (h : ∀ s a, (f s a).calm = s.calm) (l : List α) (s : State) : (l.foldl f s).calm = s.calm := by
  induction l generalizing s with
  | nil => rfl
  | cons a l ih => simp [ih, h]
@[simp] theorem ite_calm (c : Prop) [Decidable c] (a b : State) :
    (if c then a else b).calm = if c then a.calm else b.calm := by
  split <;> rfl
theorem foldl_calm_by {α β : Type} (p : β → State) (f : β → α → β) (h : ∀ b a, (p (f b a)).calm = (p b).calm) (l : List α) (b : β) :
    (p (l.foldl f b)).calm = (p b).calm := by
  induction l generalizing b with
  | nil => rfl
  | cons a l ih => simp [ih, h]

@[simp] theorem State.pokeAddr_calm (s : State) (x1 : Nat) (x2 : Word) :
    (State.pokeAddr s x1 x2).calm = s.calm := by
  simp [State.pokeAddr]
@[simp] theorem State.poke_calm (s : State) (x1 : RBlk) (x2 x3 : Nat) (x4 : Word) :
    (State.poke s x1 x2 x3 x4).calm = s.calm := by
  simp [State.poke]
@[simp] theorem State.rset_calm (s : State) (x1 : RBlk) (x2 x3 : Nat) (x4 x5 x6 : Nat) :
    (State.rset s x1 x2 x3 x4 x5 x6).calm = s.calm := by
  simp [State.rset]
@[simp] theorem State.rbit_calm (s : State) (x1 : RBlk) (x2 x3 x4 : Nat) (x5 : Bool) :
    (State.rbit s x1 x2 x3 x4 x5).calm = s.calm := by
  simp [State.rbit]
@[simp] theorem State.showCkp_calm (s : State) : (State.showCkp s).calm = s.calm := by simp [State.showCkp]
@[simp] theorem State.add_calm (s : State) (x1 : RBlk) (x2 x3 x4 : Nat) :
    (State.add s x1 x2 x3 x4).calm = s.calm := by
  simp [State.add]
@[simp] theorem State.bump_calm (s : State) (x1 : RBlk) (x2 x3 x4 : Nat) :
    (State.bump s x1 x2 x3 x4).calm = s.calm := by
  simp [State.bump]
@[simp] theorem State.memGate_calm (s : State) (x1 x2 : Nat) :
    (State.memGate s x1 x2).2.calm = s.calm := by
  simp [State.memGate]
@[simp] theorem State.errLog_calm (s : State) (x1 : RBlk) (x2 x3 : Nat) (x4 x5 : Nat) (x6 : Word) :
    (State.errLog s x1 x2 x3 x4 x5 x6).calm = s.calm := by
  simp [State.errLog]
@[simp] theorem State.send_calm (s : State) (x1 : Out) : (State.send s x1).calm = s.calm := by simp [State.send]
@[simp] theorem State.trace_calm (s : State) (x1 x2 : Nat) (x3 x4 : Nat) (x5 : List Byte) :
    (State.trace s x1 x2 x3 x4 x5).calm = s.calm := by
  simp [State.trace]
@[simp] theorem State.raise_calm (s : State) (x1 : RBlk) (x2 x3 x4 : Nat) :
    (State.raise s x1 x2 x3 x4).calm = s.calm := by
  simp [State.raise]
@[simp] theorem State.check_calm (s : State) (x1 x2 : Nat) (x3 x4 x5 : Nat) :
    (State.check s x1 x2 x3 x4 x5).calm = s.calm := by
  simp [State.check]
@[simp] theorem State.dieErr_calm (x0 : Nat) (s : State) (x2 : CwOut) :
    (State.dieErr x0 s x2).calm = s.calm := by
  unfold State.dieErr; (repeat' split) <;> simp_all
@[simp] theorem State.useFree_calm (s : State) (x1 : Nat) : (State.useFree s x1).calm = s.calm := by simp [State.useFree]
@[simp] theorem State.critRead_calm (s : State) (x1 : Nat) :
    (State.critRead s x1).2.2.calm = s.calm := by
  unfold State.critRead; dsimp only; (repeat' split) <;> first | rfl | simp
@[simp] theorem State.votedWord_calm (s : State) (x1 : Nat) (x2 : Word) :
    (State.votedWord s x1 x2).2.2.calm = s.calm := by
  simp [State.votedWord]
@[simp] theorem State.faultLog_calm (s : State) (x1 x2 : Nat) (x3 : Status) (x4 : Nat) :
    (State.faultLog s x1 x2 x3 x4).calm = s.calm := by
  simp [State.faultLog]
@[simp] theorem State.enqueueEvt_calm (s : State) (x1 : Nat) (x2 : List Byte) :
    (State.enqueueEvt s x1 x2).calm = s.calm := by
  simp [State.enqueueEvt]
@[simp] theorem State.hostEvent_calm (s : State) (x1 : Nat) (x2 : List Byte) :
    (State.hostEvent s x1 x2).calm = s.calm := by
  simp [State.hostEvent]
@[simp] theorem State.stepEnd_calm (s : State) (x1 : Nat) (x2 : Status) :
    (State.stepEnd s x1 x2).calm = s.calm := by
  simp [State.stepEnd]
@[simp] theorem State.alertPin_calm (s : State) : (State.alertPin s).calm = s.calm := by simp [State.alertPin]
@[simp] theorem State.mgtSend_calm (s : State) (x1 : Nat) (x2 : List Byte) :
    (State.mgtSend s x1 x2).calm = s.calm := by
  unfold State.mgtSend; dsimp only; (repeat' split) <;> first | rfl | simp
@[simp] theorem State.mgtAlert_calm (s : State) (x1 x2 x3 : Nat) :
    (State.mgtAlert s x1 x2 x3).calm = s.calm := by
  unfold State.mgtAlert; dsimp only; (repeat' split) <;> first | rfl | simp
@[simp] theorem State.lastCkp_calm (s : State) (x1 : Status) : (State.lastCkp s x1).calm = s.calm := by simp [State.lastCkp]
@[simp] theorem State.setCmdq_calm (s : State) (x1 : Nat) (x2 : CmdQ) :
    (State.setCmdq s x1 x2).calm = s.calm := by
  simp [State.setCmdq]
@[simp] theorem State.sendCpl_calm (s : State) (x1 : Nat) (x2 : Status) (x3 : List Byte) :
    (State.sendCpl s x1 x2 x3).calm = s.calm := by
  simp [State.sendCpl]
@[simp] theorem State.finishCmd_calm (s : State) (x1 : Nat) (x2 : Status) (x3 : List Byte) :
    (State.finishCmd s x1 x2 x3).calm = s.calm := by
  unfold State.finishCmd; dsimp only; (repeat' split) <;> first | rfl | simp
@[simp] theorem State.finishCmds_calm (s : State) (x1 : List Nat) (x2 : Status) :
    (State.finishCmds s x1 x2).calm = s.calm := by
  simp [State.finishCmds]
@[simp] theorem State.freeSlots_calm (s : State) : (State.freeSlots s).calm = s.calm := by simp [State.freeSlots]
@[simp] theorem State.ackEvents_calm (s : State) (x1 : Nat) :
    (State.ackEvents s x1).calm = s.calm := by
  simp [State.ackEvents]
@[simp] theorem State.answer_calm (s : State) (x1 : Status) : (State.answer s x1).calm = s.calm := by simp [State.answer]
@[simp] theorem State.sendPair_calm (s : State) (x1 x2 : Nat) (x3 x4 : Nat) (x5 : List FlitBytes) :
    (State.sendPair s x1 x2 x3 x4 x5).calm = s.calm := by
  simp [State.sendPair]
@[simp] theorem State.sendPairs_calm (s : State) (x1 x2 : Nat) (x3 : List FlitBytes) :
    (State.sendPairs s x1 x2 x3).calm = s.calm := by
  simp [State.sendPairs]
@[simp] theorem State.applyXbar_calm (s : State) (x1 : List TopoEntry) (x2 : TopoEntry) :
    (State.applyXbar s x1 x2).calm = s.calm := by
  simp [State.applyXbar]
@[simp] theorem State.applyTrees_calm (s : State) (x1 : Nat) (x2 : List Byte) :
    (State.applyTrees s x1 x2).calm = s.calm := by
  simp [State.applyTrees]
@[simp] theorem State.applyRoutes_calm (s : State) (x1 : Nat) (x2 : List Byte) :
    (State.applyRoutes s x1 x2).calm = s.calm := by
  simp [State.applyRoutes]
@[simp] theorem State.showHand_calm (s : State) : (State.showHand s).calm = s.calm := by simp [State.showHand]
@[simp] theorem State.showExchange_calm (s : State) :
    (State.showExchange s).calm = s.calm := by
  unfold State.showExchange; split <;> simp
@[simp] theorem State.setPortState_calm (s : State) (x1 x2 : Nat) :
    (State.setPortState s x1 x2).calm = s.calm := by
  simp [State.setPortState]
@[simp] theorem State.showCopy_calm (s : State) (x1 x2 : Nat) (x3 x4 : Nat) :
    (State.showCopy s x1 x2 x3 x4).calm = s.calm := by
  simp [State.showCopy]
@[simp] theorem State.mgtReply_calm (s : State) (x1 : MgtSrc) (x2 : BitVec 32) (x3 x4 : Nat) (x5 : Status) (x6 : List Byte) :
    (State.mgtReply s x1 x2 x3 x4 x5 x6).calm = s.calm := by
  simp [State.mgtReply]
@[simp] theorem State.fencePortDone_calm (s : State) (x1 : Nat) :
    (State.fencePortDone s x1).calm = s.calm := by
  unfold State.fencePortDone; dsimp only; (repeat' split) <;> first | rfl | simp
@[simp] theorem State.applyMemory_calm (s : State) (x1 : List Area) :
    (State.applyMemory s x1).calm = s.calm := by
  simp [State.applyMemory]
@[simp] theorem State.applyStages_calm (s : State) (x1 : List StageCfg) :
    (State.applyStages s x1).calm = s.calm := by
  simp [State.applyStages]
@[simp] theorem State.showDies_calm (s : State) : (State.showDies s).calm = s.calm := by simp [State.showDies]
@[simp] theorem State.showKettle_calm (s : State) : (State.showKettle s).calm = s.calm := by simp [State.showKettle]
@[simp] theorem State.showTopo_calm (s : State) (x1 x2 : Bool) (x3 x4 : Nat) :
    (State.showTopo s x1 x2 x3 x4).calm = s.calm := by
  simp [State.showTopo]
@[simp] theorem State.setHealth_calm (s : State) (x1 : Nat) :
    (State.setHealth s x1).calm = s.calm := by
  simp [State.setHealth]
@[simp] theorem State.sendStatus_calm (s : State) : (State.sendStatus s).calm = s.calm := by simp [State.sendStatus]
@[simp] theorem State.failHealth_calm (s : State) (x1 : Nat) :
    (State.failHealth s x1).calm = s.calm := by
  simp [State.failHealth]
@[simp] theorem State.healHealth_calm (s : State) : (State.healHealth s).calm = s.calm := by simp [State.healHealth]
@[simp] theorem State.judgeTopo_calm (s : State) (x1 : Bool) :
    (State.judgeTopo s x1).calm = s.calm := by
  unfold State.judgeTopo; dsimp only; (repeat' split) <;> first | (simp; done) | rfl
@[simp] theorem State.compareTopo_calm (s : State) : (State.compareTopo s).calm = s.calm := by simp [State.compareTopo]
@[simp] theorem State.degrade_calm (s : State) (x1 : Nat) : (State.degrade s x1).calm = s.calm := by simp [State.degrade]
@[simp] theorem State.checkSpares_calm (s : State) : (State.checkSpares s).calm = s.calm := by simp [State.checkSpares]
@[simp] theorem State.setState_calm (s : State) (x1 : Nat) : (State.setState s x1).calm = s.calm := by simp [State.setState]
@[simp] theorem State.leaveWarm_calm (s : State) : (State.leaveWarm s).calm = s.calm := by simp [State.leaveWarm]
@[simp] theorem State.loadSeed_calm (s : State) (x1 : List Byte) :
    (State.loadSeed s x1).calm = s.calm := by
  simp [State.loadSeed]
@[simp] theorem State.restState_calm (s : State) : (State.restState s).calm = s.calm := by simp [State.restState]
@[simp] theorem State.jobChanged_calm (s : State) : (State.jobChanged s).calm = s.calm := by simp [State.jobChanged]
@[simp] theorem State.chooseLayer_calm (s : State) (x1 : List (List (Option GovEntry))) (x2 : Nat) :
    (State.chooseLayer s x1 x2).calm = s.calm := by
  simp [State.chooseLayer]
@[simp] theorem State.lastLoad_calm (s : State) (x1 : Status) :
    (State.lastLoad s x1).calm = s.calm := by
  simp [State.lastLoad]
@[simp] theorem State.verified_calm (s : State) (x1 : Bool) : (State.verified s x1).calm = s.calm := by simp [State.verified]
@[simp] theorem State.countVerify_calm (s : State) (x1 : List Byte) (x2 : Option LoadFault) :
    (State.countVerify s x1 x2).calm = s.calm := by
  unfold State.countVerify; (repeat' split) <;> first | rfl | simp [-List.reduceReplicate]
@[simp] theorem State.putHash_calm (s : State) (x1 : Nat) (x2 : List Byte) :
    (State.putHash s x1 x2).calm = s.calm := by
  simp [State.putHash]
@[simp] theorem State.showLoad_calm (s : State) (x1 : Parsed) (x2 : List Byte) (x3 x4 : Bool) :
    (State.showLoad s x1 x2 x3 x4).calm = s.calm := by
  simp [State.showLoad]
@[simp] theorem State.stageEvent_calm (s : State) (x1 : Nat) :
    (State.stageEvent s x1).calm = s.calm := by
  simp [State.stageEvent]
@[simp] theorem State.tsCorrections_calm (s : State) (x1 : Nat) :
    (State.tsCorrections s x1).calm = s.calm := by
  simp [State.tsCorrections]
@[simp] theorem State.dropSpare_calm (s : State) (x1 : Nat) :
    (State.dropSpare s x1).calm = s.calm := by
  simp [State.dropSpare]
@[simp] theorem State.sipStale_calm (s : State) (x1 : Nat) : (State.sipStale s x1).calm = s.calm := by simp [State.sipStale]
@[simp] theorem State.rmax_calm (s : State) (x1 : RBlk) (x2 x3 x4 : Nat) :
    (State.rmax s x1 x2 x3 x4).calm = s.calm := by
  simp [State.rmax]
@[simp] theorem State.regionEvent_calm (s : State) (x1 x2 : Nat) :
    (State.regionEvent s x1 x2).calm = s.calm := by
  simp [State.regionEvent]
@[simp] theorem State.holdQueued_calm (s : State) (x1 : Nat) :
    (State.holdQueued s x1).calm = s.calm := by
  simp [State.holdQueued]
@[simp] theorem State.resetRegs_calm (s : State) (x1 x2 : List Nat) :
    (State.resetRegs s x1 x2).calm = s.calm := by
  simp [State.resetRegs]
@[simp] theorem State.startSelfTest_calm (s : State) (x1 : Nat) (x2 : Cmd) :
    (State.startSelfTest s x1 x2).2.calm = s.calm := by
  simp [State.startSelfTest]
@[simp] theorem State.finishCode_calm (s : State) (x1 : Nat) (x2 : Status) :
    (State.finishCode s x1 x2).calm = s.calm := by
  simp [State.finishCode]
@[simp] theorem State.foreignJob_calm (s : State) (x1 : Nat) :
    (State.foreignJob s x1).calm = s.calm := by
  simp [State.foreignJob]
@[simp] theorem State.lateReply_calm (s : State) (x1 : Nat) (x2 : Msg) :
    (State.lateReply s x1 x2).calm = s.calm := by
  simp [State.lateReply]
@[simp] theorem State.vecBegin_calm (s : State) (x1 : QEntry) :
    (State.vecBegin s x1).2.calm = s.calm := by
  simp [State.vecBegin]
@[simp] theorem State.markBeat_calm (s : State) (x1 x2 x3 : Nat) :
    (State.markBeat s x1 x2 x3).calm = s.calm := by
  simp [State.markBeat]
@[simp] theorem State.saturated_calm (s : State) (x1 x2 : Nat) :
    (State.saturated s x1 x2).calm = s.calm := by
  simp [State.saturated]
@[simp] theorem State.setPhase_calm (s : State) (x1 : Nat) : (State.setPhase s x1).calm = s.calm := by simp [State.setPhase]
@[simp] theorem State.linkMalformed_calm (s : State) (x1 : Nat) :
    (State.linkMalformed s x1).calm = s.calm := by
  simp [State.linkMalformed]
@[simp] theorem State.eventClear_calm (s : State) (x1 : RBlk) (x2 : Nat) (x3 : Word) :
    (State.eventClear s x1 x2 x3).calm = s.calm := by
  unfold State.eventClear; apply foldl_calm; intro s a; (repeat' split) <;> simp
@[simp] theorem State.clearEvents_calm (s : State) (x1 : RBlk) (x2 x3 : Nat) (x4 : RegDef) (x5 x6 : Word) :
    (State.clearEvents s x1 x2 x3 x4 x5 x6).calm = s.calm := by
  unfold State.clearEvents; dsimp only; (repeat' split) <;> first | rfl | simp
@[simp] theorem State.clearExc_calm (s : State) (x1 : RBlk) (x2 : Nat) :
    (State.clearExc s x1 x2).calm = s.calm := by
  simp [State.clearExc]
@[simp] theorem State.ringAlert_calm (s : State) : (State.ringAlert s).calm = s.calm := by simp [State.ringAlert]
@[simp] theorem State.funcReady_calm (s : State) (x1 x2 : Nat) (x3 : Status) :
    (State.funcReady s x1 x2 x3).calm = s.calm := by
  simp [State.funcReady]
@[simp] theorem State.enterSafe_calm (s : State) (x1 : Nat) :
    (State.enterSafe s x1).calm = s.calm := by
  simp [State.enterSafe]
@[simp] theorem State.refuseMsg_calm (s : State) (x1 : HostMsg) :
    (State.refuseMsg s x1).calm = s.calm := by
  simp [State.refuseMsg]
@[simp] theorem State.hostArrive_calm (s : State) (x1 : HostMsg) (x2 : State → State) (h3 : ∀ (y0 : State), (x2 y0).calm = y0.calm) :
    (State.hostArrive s x1 x2).calm = s.calm := by
  unfold State.hostArrive; (repeat' split) <;> simp_all
@[simp] theorem State.consumed_calm (s : State) (x1 : Nat) : (State.consumed s x1).calm = s.calm := by simp [State.consumed]
@[simp] theorem State.coreBeats_calm (s : State) (x1 x2 : Nat) :
    (State.coreBeats s x1 x2).calm = s.calm := by
  simp [State.coreBeats]
@[simp] theorem State.countSeg_calm (s : State) (x1 : Nat) (x2 : Pass) :
    (State.countSeg s x1 x2).calm = s.calm := by
  unfold State.countSeg; (repeat' split) <;> simp_all
@[simp] theorem State.countVotes_calm (s : State) (x1 x2 : Nat) (x3 : Vote) :
    (State.countVotes s x1 x2 x3).calm = s.calm := by
  unfold State.countVotes; (repeat' split) <;> simp_all
@[simp] theorem State.dropPush_calm (s : State) (x1 : Nat) : (State.dropPush s x1).calm = s.calm := by simp [State.dropPush]
@[simp] theorem State.ownTransfer_calm (s : State) (x1 : Nat) :
    (State.ownTransfer s x1).2.calm = s.calm := by
  simp [State.ownTransfer]
@[simp] theorem State.failLoc_calm (s : State) (x1 x2 : Nat) (x3 x4 x5 : Nat) :
    (State.failLoc s x1 x2 x3 x4 x5).calm = s.calm := by
  simp [State.failLoc]
@[simp] theorem State.markFail_calm (s : State) (x1 x2 : Nat) (x3 x4 x5 : Nat) :
    (State.markFail s x1 x2 x3 x4 x5).calm = s.calm := by
  simp [State.markFail]
@[simp] theorem State.excludeLanes_calm (s : State) (x1 x2 x3 : Nat) :
    (State.excludeLanes s x1 x2 x3).calm = s.calm := by
  simp [State.excludeLanes]
@[simp] theorem State.forward_calm (s : State) (x1 : Nat) (x2 : MeshFlit) :
    (State.forward s x1 x2).calm = s.calm := by
  unfold State.forward; dsimp only; repeat' (first | (simp; done) | split | rw [foldl_calm _ (by intro s a; (repeat' split) <;> simp)])
@[simp] theorem State.gReply_calm (s : State) (x1 : MgtMsg) (x2 : Status) (x3 : List Byte) :
    (State.gReply s x1 x2 x3).calm = s.calm := by
  simp [State.gReply]
@[simp] theorem State.helloGens_calm (s : State) (x1 : Nat) (x2 : List Byte) :
    (State.helloGens s x1 x2).calm = s.calm := by
  simp [State.helloGens]
@[simp] theorem State.redStale_calm (s : State) (x1 : Nat) : (State.redStale s x1).calm = s.calm := by simp [State.redStale]
@[simp] theorem State.wrFlip_calm (s : State) (x1 : Nat) (x2 : Word) :
    (State.wrFlip s x1 x2).2.calm = s.calm := by
  simp [State.wrFlip]
@[simp] theorem State.showTrace_calm (s : State) : (State.showTrace s).calm = s.calm := by simp [State.showTrace]
@[simp] theorem State.judgeLanes_calm (s : State) (x1 : Nat) :
    (State.judgeLanes s x1).calm = s.calm := by
  simp [State.judgeLanes]
@[simp] theorem State.setLocked_calm (s : State) (x1 : Bool) :
    (State.setLocked s x1).calm = s.calm := by
  simp [State.setLocked]
@[simp] theorem State.votedWords_calm (s : State) (w : Nat) (vs : List Word) : (s.votedWords w vs).2.2.calm = s.calm := by
  induction vs generalizing s w with
  | nil => simp [State.votedWords]
  | cons v vs ih => simp [State.votedWords, ih]
@[simp] theorem State.lastSlot_calm (s : State) : (State.lastSlot s).2.calm = s.calm := by simp [State.lastSlot]
@[simp] theorem State.mgtArrive_calm (s : State) (m : MgtMsg) (f : State → State) (h : ∀ s, (f s).calm = s.calm) :
    (s.mgtArrive m f).calm = s.calm := by
  unfold State.mgtArrive; dsimp only; (repeat' split) <;> simp [h]
@[simp] theorem State.mgtRow_calm (s : State) (x1 : MgtMsg) (x2 : Nat) (x3 : State → State) (h4 : ∀ (y0 : State), (x3 y0).calm = y0.calm) :
    (State.mgtRow s x1 x2 x3).calm = s.calm := by
  unfold State.mgtRow; (repeat' split) <;> simp_all
@[simp] theorem State.migrationLost_calm (s : State) : (State.migrationLost s).calm = s.calm := by simp [State.migrationLost]
@[simp] theorem State.modSlot_calm (s : State) (x1 : Nat) (x2 : RingSlot → RingSlot) :
    (State.modSlot s x1 x2).calm = s.calm := by
  simp [State.modSlot]
@[simp] theorem State.nextSign_calm (s : State) :
    (State.nextSign s).calm = s.calm := by
  unfold State.nextSign; (repeat' split) <;> first | rfl | simp [-List.reduceReplicate]
@[simp] theorem State.sendAck_calm (s : State) (x1 : Nat) (x2 : List Nat) :
    (State.sendAck s x1 x2).calm = s.calm := by
  simp [State.sendAck]
@[simp] theorem State.prbsErrors_calm (x0 : Nat) (s : State) (x2 : Nat × Nat) :
    (State.prbsErrors x0 s x2).calm = s.calm := by
  simp [State.prbsErrors]
@[simp] theorem State.sampleSlot_calm (s : State) (x1 : Nat) :
    (State.sampleSlot s x1).calm = s.calm := by
  simp [State.sampleSlot]
@[simp] theorem State.scrubCritical_calm (s : State) (x1 x2 : Nat) :
    (State.scrubCritical s x1 x2).calm = s.calm := by
  simp [State.scrubCritical]
@[simp] theorem State.sendEvt_calm (s : State) (x1 : Evt) : (State.sendEvt s x1).calm = s.calm := by simp [State.sendEvt]
@[simp] theorem State.sensorPoll_calm (s : State) (x1 : Nat) (x2 : Option Word) :
    (State.sensorPoll s x1 x2).calm = s.calm := by
  unfold State.sensorPoll; dsimp only; (repeat' split) <;> first | rfl | simp
@[simp] theorem State.setLanes_calm (s : State) (x1 x2 x3 : Nat) :
    (State.setLanes s x1 x2 x3).calm = s.calm := by
  simp [State.setLanes]
@[simp] theorem State.slew_calm (s : State) : (State.slew s).calm = s.calm := by simp [State.slew]
theorem execEack_calm (x0 : HostMsg) (s : State) (t : State) (h : execEack x0 s = .next t) :
    t.calm = s.calm := by
  simp only [execEack, Host.Outcome.next.injEq] at h; subst h; simp
theorem execEvtSend_calm (s : State) (t : State) (h : execEvtSend s = .next t) :
    t.calm = s.calm := by
  simp only [execEvtSend, Host.Outcome.next.injEq] at h; subst h; (repeat' split) <;> first | rfl | simp
theorem execHostLinkDown_calm (s : State) (t : State) (h : execHostLinkDown s = .next t) :
    t.calm = s.calm := by
  simp only [execHostLinkDown, Host.Outcome.next.injEq] at h; subst h; simp
theorem execHostLinkUp_calm (s : State) (t : State) (h : execHostLinkUp s = .next t) :
    t.calm = s.calm := by
  simp only [execHostLinkUp, Host.Outcome.next.injEq] at h; subst h; simp
theorem execTopHotLevelReport_calm (x0 x1 : Nat) (x2 x3 x4 : Nat) (s : State) (t : State) (h : execTopHotLevelReport x0 x1 x2 x3 x4 s = .next t) :
    t.calm = s.calm := by
  simp only [execTopHotLevelReport, Host.Outcome.next.injEq] at h; subst h; simp
theorem execPartnerDetect_calm (x0 : Nat) (s : State) (t : State) (h : execPartnerDetect x0 s = .next t) :
    t.calm = s.calm := by
  simp only [execPartnerDetect, Host.Outcome.next.injEq] at h; subst h; simp
theorem execSparePrbsExclude_calm (x0 x1 : Nat) (s : State) (t : State) (h : execSparePrbsExclude x0 x1 s = .next t) :
    t.calm = s.calm := by
  simp only [execSparePrbsExclude, Host.Outcome.next.injEq] at h; subst h; simp
theorem execCeRateLimit_calm (x0 : Nat) (s t : State) (h : execCeRateLimit x0 s = .next t) : t.calm = s.calm := by
  unfold execCeRateLimit at h; (repeat' split at h) <;> (cases h; first | rfl | simp)
theorem execPowerTripRelease_calm (s : State) (t : State) (h : execPowerTripRelease s = .next t) :
    t.calm = s.calm := by
  simp only [execPowerTripRelease, Host.Outcome.next.injEq] at h; subst h; simp
theorem execStatusRead_calm (x0 : MgtMsg) (s : State) (t : State) (h : execStatusRead x0 s = .next t) :
    t.calm = s.calm := by
  simp only [execStatusRead, Host.Outcome.next.injEq] at h; subst h; simp
theorem execAlertAck_calm (x0 : MgtMsg) (s : State) (t : State) (h : execAlertAck x0 s = .next t) :
    t.calm = s.calm := by
  simp only [execAlertAck, Host.Outcome.next.injEq] at h; subst h; simp
theorem execBind_calm (x0 : MgtMsg) (s : State) (t : State) (h : execBind x0 s = .next t) :
    t.calm = s.calm := by
  simp only [execBind, Host.Outcome.next.injEq] at h; subst h; simp
theorem execPower_calm (x0 : MgtMsg) (s : State) (t : State) (h : execPower x0 s = .next t) :
    t.calm = s.calm := by
  simp only [execPower, Host.Outcome.next.injEq] at h; subst h; simp
theorem execKeepWarm_calm (x0 : MgtMsg) (s : State) (t : State) (h : execKeepWarm x0 s = .next t) :
    t.calm = s.calm := by
  simp only [execKeepWarm, Host.Outcome.next.injEq] at h; subst h; simp
theorem execCounterRead_calm (x0 : MgtMsg) (s : State) (t : State) (h : execCounterRead x0 s = .next t) :
    t.calm = s.calm := by
  simp only [execCounterRead, Host.Outcome.next.injEq] at h; subst h; simp
theorem execRecoverWrite_calm (x0 : MgtMsg) (s : State) (t : State) (h : execRecoverWrite x0 s = .next t) :
    t.calm = s.calm := by
  simp only [execRecoverWrite, Host.Outcome.next.injEq] at h; subst h; simp
theorem execStatusReport_calm (s : State) (t : State) (h : execStatusReport s = .next t) :
    t.calm = s.calm := by
  simp only [execStatusReport, Host.Outcome.next.injEq] at h; subst h; simp
theorem execAlertResend_calm (x0 : Nat) (s : State) (t : State) (h : execAlertResend x0 s = .next t) :
    t.calm = s.calm := by
  simp only [execAlertResend, Host.Outcome.next.injEq] at h; subst h; (repeat' split) <;> first | rfl | simp
theorem execI3cPoll_calm (x0 : List (Option Word)) (s : State) (t : State) (h : execI3cPoll x0 s = .next t) :
    t.calm = s.calm := by
  simp only [execI3cPoll, Host.Outcome.next.injEq] at h; subst h; simp
theorem execTraceSample_calm (s : State) (t : State) (h : execTraceSample s = .next t) :
    t.calm = s.calm := by
  simp only [execTraceSample, Host.Outcome.next.injEq] at h; subst h; simp
theorem execPreemptDeadline_calm (s : State) (t : State) (h : execPreemptDeadline s = .next t) :
    t.calm = s.calm := by
  simp only [execPreemptDeadline, Host.Outcome.next.injEq] at h; subst h; (repeat' split) <;> first | rfl | simp
theorem execReservedHostMessage_calm (x0 : HostMsg) (s : State) (t : State) (h : execReservedHostMessage x0 s = .next t) :
    t.calm = s.calm := by
  simp only [execReservedHostMessage, Host.Outcome.next.injEq] at h; subst h; simp
theorem execReservedMgtMessage_calm (x0 : MgtMsg) (s : State) (t : State) (h : execReservedMgtMessage x0 s = .next t) :
    t.calm = s.calm := by
  simp only [execReservedMgtMessage, Host.Outcome.next.injEq] at h; subst h; simp
theorem execMgtLinkUp_calm (s : State) (t : State) (h : execMgtLinkUp s = .next t) :
    t.calm = s.calm := by
  simp only [execMgtLinkUp, Host.Outcome.next.injEq] at h; subst h; simp

end Sys2Proof.Machine
end

