-- ==== Sys2Proof/Laws/Fixed.lean ====
section
/-! SUPPORT. The queue of commands and the fuses, which every operation but those on fuses leaves as they are: one lemma for each operation. -/

namespace Sys2Proof.Machine

/-- The queue and the fuses of a state: what no command changes, but the three that write fuses. -/
def State.fixed (s : State) : List Instr × Fuse := (s.pending, s.fuse)
@[simp] theorem State.fixed_mk :
    ∀ a b c d e f g h i j k l m n o p q r u v w x y z a1 b1 c1 d1 e1 f1 g1 h1 i1 j1 k1, (State.mk a b c d e f g h i j k l m n o p q r u v w x y z a1 b1 c1 d1 e1 f1 g1 h1 i1 j1 k1).fixed = (a, z) := by
  intros; rfl
@[simp] theorem State.pair_fixed (s : State) : (s.pending, s.fuse) = s.fixed := rfl
@[simp] theorem foldl_fixed {α : Type} (f : State → α → State) (h : ∀ s a, (f s a).fixed = s.fixed) (l : List α) (s : State) : (l.foldl f s).fixed = s.fixed := by
  induction l generalizing s with
  | nil => rfl
  | cons a l ih => simp [ih, h]
@[simp] theorem ite_fixed (c : Prop) [Decidable c] (a b : State) :
    (if c then a else b).fixed = if c then a.fixed else b.fixed := by
  split <;> rfl
theorem foldl_fixed_by {α β : Type} (p : β → State) (f : β → α → β) (h : ∀ b a, (p (f b a)).fixed = (p b).fixed) (l : List α) (b : β) :
    (p (l.foldl f b)).fixed = (p b).fixed := by
  induction l generalizing b with
  | nil => rfl
  | cons a l ih => simp [ih, h]

@[simp] theorem State.pokeAddr_fixed (s : State) (x1 : Nat) (x2 : Word) :
    (State.pokeAddr s x1 x2).fixed = s.fixed := by
  simp [State.pokeAddr]
@[simp] theorem State.poke_fixed (s : State) (x1 : RBlk) (x2 x3 : Nat) (x4 : Word) :
    (State.poke s x1 x2 x3 x4).fixed = s.fixed := by
  simp [State.poke]
@[simp] theorem State.rset_fixed (s : State) (x1 : RBlk) (x2 x3 : Nat) (x4 x5 x6 : Nat) :
    (State.rset s x1 x2 x3 x4 x5 x6).fixed = s.fixed := by
  simp [State.rset]
@[simp] theorem State.rbit_fixed (s : State) (x1 : RBlk) (x2 x3 x4 : Nat) (x5 : Bool) :
    (State.rbit s x1 x2 x3 x4 x5).fixed = s.fixed := by
  simp [State.rbit]
@[simp] theorem State.showCkp_fixed (s : State) : (State.showCkp s).fixed = s.fixed := by simp [State.showCkp]
@[simp] theorem State.add_fixed (s : State) (x1 : RBlk) (x2 x3 x4 : Nat) :
    (State.add s x1 x2 x3 x4).fixed = s.fixed := by
  simp [State.add]
@[simp] theorem State.bump_fixed (s : State) (x1 : RBlk) (x2 x3 x4 : Nat) :
    (State.bump s x1 x2 x3 x4).fixed = s.fixed := by
  simp [State.bump]
@[simp] theorem State.memGate_fixed (s : State) (x1 x2 : Nat) :
    (State.memGate s x1 x2).2.fixed = s.fixed := by
  simp [State.memGate]
@[simp] theorem State.errLog_fixed (s : State) (x1 : RBlk) (x2 x3 : Nat) (x4 x5 : Nat) (x6 : Word) :
    (State.errLog s x1 x2 x3 x4 x5 x6).fixed = s.fixed := by
  simp [State.errLog]
@[simp] theorem State.send_fixed (s : State) (x1 : Out) : (State.send s x1).fixed = s.fixed := by simp [State.send]
@[simp] theorem State.trace_fixed (s : State) (x1 x2 : Nat) (x3 x4 : Nat) (x5 : List Byte) :
    (State.trace s x1 x2 x3 x4 x5).fixed = s.fixed := by
  simp [State.trace]
@[simp] theorem State.raise_fixed (s : State) (x1 : RBlk) (x2 x3 x4 : Nat) :
    (State.raise s x1 x2 x3 x4).fixed = s.fixed := by
  simp [State.raise]
@[simp] theorem State.setStack_fixed (s : State) (x1 : Nat) (x2 : Stack) :
    (State.setStack s x1 x2).fixed = s.fixed := by
  simp [State.setStack]
@[simp] theorem State.rowCandidate_fixed (s : State) (x1 : Nat) :
    (State.rowCandidate s x1).fixed = s.fixed := by
  unfold State.rowCandidate; dsimp only; (repeat' split) <;> first | rfl | simp
@[simp] theorem State.check_fixed (s : State) (x1 x2 : Nat) (x3 x4 x5 : Nat) :
    (State.check s x1 x2 x3 x4 x5).fixed = s.fixed := by
  simp [State.check]
@[simp] theorem State.dieErr_fixed (x0 : Nat) (s : State) (x2 : CwOut) :
    (State.dieErr x0 s x2).fixed = s.fixed := by
  unfold State.dieErr; (repeat' split) <;> simp_all
@[simp] theorem State.readGranule_fixed (s : State) (x1 : MemReader) (x2 : Nat) :
    (State.readGranule s x1 x2).2.2.fixed = s.fixed := by
  unfold State.readGranule; (repeat' split) <;> first | rfl | simp [-List.reduceReplicate]
@[simp] theorem State.memRead_fixed (s : State) (a n : Nat) : (s.memRead a n).2.2.fixed = s.fixed := by
  have h := foldl_fixed_by (fun b : Bool × List Byte × State => b.2.2)
    (fun acc g => (acc.1 && (acc.2.2.readGranule .requester g).1, acc.2.1 ++ (acc.2.2.readGranule .requester g).2.1,
      (acc.2.2.readGranule .requester g).2.2)) (by intros; simp) (granules a n) (true, [], s)
  unfold State.memRead; dsimp only; (repeat' split) <;> first | simp; done | exact h
@[simp] theorem State.readArea_fixed (s : State) (k o n : Nat) : (s.readArea k o n).2.2.fixed = s.fixed :=
  foldl_fixed_by (fun b : Status × List Byte × State => b.2.2) _ (by intros; simp) _ (Status.ok, [], s)
@[simp] theorem State.useFree_fixed (s : State) (x1 : Nat) : (State.useFree s x1).fixed = s.fixed := by simp [State.useFree]
@[simp] theorem State.critRead_fixed (s : State) (x1 : Nat) :
    (State.critRead s x1).2.2.fixed = s.fixed := by
  unfold State.critRead; dsimp only; (repeat' split) <;> first | rfl | simp
@[simp] theorem State.votedWord_fixed (s : State) (x1 : Nat) (x2 : Word) :
    (State.votedWord s x1 x2).2.2.fixed = s.fixed := by
  simp [State.votedWord]
@[simp] theorem State.faultLog_fixed (s : State) (x1 x2 : Nat) (x3 : Status) (x4 : Nat) :
    (State.faultLog s x1 x2 x3 x4).fixed = s.fixed := by
  simp [State.faultLog]
@[simp] theorem State.enqueueEvt_fixed (s : State) (x1 : Nat) (x2 : List Byte) :
    (State.enqueueEvt s x1 x2).fixed = s.fixed := by
  simp [State.enqueueEvt]
@[simp] theorem State.hostEvent_fixed (s : State) (x1 : Nat) (x2 : List Byte) :
    (State.hostEvent s x1 x2).fixed = s.fixed := by
  simp [State.hostEvent]
@[simp] theorem State.stepEnd_fixed (s : State) (x1 : Nat) (x2 : Status) :
    (State.stepEnd s x1 x2).fixed = s.fixed := by
  simp [State.stepEnd]
@[simp] theorem State.readCounts_fixed (s : State) : (State.readCounts s).fixed = s.fixed := by simp [State.readCounts]
@[simp] theorem State.setCrit_fixed (s : State) (x1 : Nat) (x2 : CritWord) :
    (State.setCrit s x1 x2).fixed = s.fixed := by
  simp [State.setCrit]
@[simp] theorem State.critWrite_fixed (s : State) (x1 : Nat) (x2 : Word) :
    (State.critWrite s x1 x2).2.fixed = s.fixed := by
  simp [State.critWrite]
@[simp] theorem State.keepWord_fixed (s : State) (x1 : Nat) (x2 : Word) :
    (State.keepWord s x1 x2).fixed = s.fixed := by
  simp [State.keepWord]
@[simp] theorem State.keepWords_fixed (s : State) (w : Nat) (vs : List Word) : (s.keepWords w vs).fixed = s.fixed := by
  induction vs generalizing s w with
  | nil => simp [State.keepWords]
  | cons v vs ih => simp [State.keepWords, ih]
@[simp] theorem State.keepChain_fixed (s : State) : (State.keepChain s).fixed = s.fixed := by simp [State.keepChain]
@[simp] theorem State.cut_fixed (s : State) (x1 : Nat) (x2 : Status) :
    (State.cut s x1 x2).fixed = s.fixed := by
  simp [State.cut]
@[simp] theorem State.alertPin_fixed (s : State) : (State.alertPin s).fixed = s.fixed := by simp [State.alertPin]
@[simp] theorem State.mgtSend_fixed (s : State) (x1 : Nat) (x2 : List Byte) :
    (State.mgtSend s x1 x2).fixed = s.fixed := by
  unfold State.mgtSend; dsimp only; (repeat' split) <;> first | rfl | simp
@[simp] theorem State.mgtAlert_fixed (s : State) (x1 x2 x3 : Nat) :
    (State.mgtAlert s x1 x2 x3).fixed = s.fixed := by
  unfold State.mgtAlert; dsimp only; (repeat' split) <;> first | rfl | simp
@[simp] theorem State.stepFail_fixed (s : State) (x1 x2 : Nat) (x3 : Status) (x4 : Nat) :
    (State.stepFail s x1 x2 x3 x4).fixed = s.fixed := by
  simp [State.stepFail]
@[simp] theorem State.known_fixed (s : State) (x1 : Nat) (x2 : Word) :
    (State.known s x1 x2).2.fixed = s.fixed := by
  simp [State.known]
@[simp] theorem State.holdsStep_fixed (s : State) (x1 : Nat) :
    (State.holdsStep s x1).2.fixed = s.fixed := by
  simp [State.holdsStep]
@[simp] theorem State.lastCkp_fixed (s : State) (x1 : Status) :
    (State.lastCkp s x1).fixed = s.fixed := by
  simp [State.lastCkp]
@[simp] theorem State.setCmdq_fixed (s : State) (x1 : Nat) (x2 : CmdQ) :
    (State.setCmdq s x1 x2).fixed = s.fixed := by
  simp [State.setCmdq]
@[simp] theorem State.sendCpl_fixed (s : State) (x1 : Nat) (x2 : Status) (x3 : List Byte) :
    (State.sendCpl s x1 x2 x3).fixed = s.fixed := by
  simp [State.sendCpl]
@[simp] theorem State.finishCmd_fixed (s : State) (x1 : Nat) (x2 : Status) (x3 : List Byte) :
    (State.finishCmd s x1 x2 x3).fixed = s.fixed := by
  unfold State.finishCmd; dsimp only; (repeat' split) <;> first | rfl | simp
@[simp] theorem State.finishCmds_fixed (s : State) (x1 : List Nat) (x2 : Status) :
    (State.finishCmds s x1 x2).fixed = s.fixed := by
  simp [State.finishCmds]
@[simp] theorem State.ckpFails_fixed (s : State) (x1 : Status) :
    (State.ckpFails s x1).fixed = s.fixed := by
  unfold State.ckpFails; dsimp only; (repeat' split) <;> first | rfl | simp
@[simp] theorem State.keepCkp_fixed (s : State) : (State.keepCkp s).fixed = s.fixed := by simp [State.keepCkp]
@[simp] theorem State.nvIssue_fixed (s : State) (x1 : NvCmd) : (State.nvIssue s x1).fixed = s.fixed := by simp [State.nvIssue]
@[simp] theorem State.nvPut_fixed (s : State) (x1 : Nat) (x2 : List Byte) (x3 : Bool) (x4 : NvWhy) :
    (State.nvPut s x1 x2 x3 x4).fixed = s.fixed := by
  simp [State.nvPut]
@[simp] theorem State.beginCkp_fixed (s : State) (x1 : CkpReq) :
    (State.beginCkp s x1).fixed = s.fixed := by
  simp [State.beginCkp]
@[simp] theorem State.takeCkp_fixed (s : State) :
    (State.takeCkp s).fixed = s.fixed := by
  unfold State.takeCkp; dsimp only; (repeat' split) <;> first | rfl | simp
@[simp] theorem State.settleCkp_fixed (s : State) : (State.settleCkp s).fixed = s.fixed := by simp [State.settleCkp]
@[simp] theorem State.setCore_fixed (s : State) (x1 : Nat) (x2 : Core) :
    (State.setCore s x1 x2).fixed = s.fixed := by
  simp [State.setCore]
@[simp] theorem State.stopCore_fixed (s : State) (x1 : Nat) :
    (State.stopCore s x1).fixed = s.fixed := by
  simp [State.stopCore]
@[simp] theorem State.stopCores_fixed (s : State) : (State.stopCores s).fixed = s.fixed := by simp [State.stopCores]
@[simp] theorem State.abandonStep_fixed (s : State) : (State.abandonStep s).fixed = s.fixed := by simp [State.abandonStep]
@[simp] theorem State.abandonForPreempt_fixed (s : State) :
    (State.abandonForPreempt s).fixed = s.fixed := by
  unfold State.abandonForPreempt; (repeat' split) <;> first | rfl | simp [-List.reduceReplicate]
@[simp] theorem State.setInf_fixed (s : State) (x1 : Nat) (x2 : Inf) :
    (State.setInf s x1 x2).fixed = s.fixed := by
  simp [State.setInf]
@[simp] theorem State.checkAt_fixed (s : State) (x1 x2 : Nat) (x3 x4 : Nat) (x5 x6 : Nat) :
    (State.checkAt s x1 x2 x3 x4 x5 x6).fixed = s.fixed := by
  simp [State.checkAt]
@[simp] theorem State.exception_fixed (s : State) (x1 x2 : Nat) (x3 : BitVec 128) (x4 x5 : Nat) (x6 : Status) (x7 : Bool) :
    (State.exception s x1 x2 x3 x4 x5 x6 x7).fixed = s.fixed := by
  simp [State.exception]
@[simp] theorem State.addToken_fixed (s : State) (x1 x2 x3 : Nat) :
    (State.addToken s x1 x2 x3).fixed = s.fixed := by
  simp [State.addToken]
@[simp] theorem State.settle_fixed (s : State) (x1 : Nat) :
    (State.settle s x1).fixed = s.fixed := by
  unfold State.settle; dsimp only; (repeat' split) <;> first | rfl | simp
@[simp] theorem State.retire_fixed (s : State) (x1 x2 : Nat) (x3 : Status) (x4 : Bool) :
    (State.retire s x1 x2 x3 x4).fixed = s.fixed := by
  unfold State.retire; dsimp only; (repeat' split) <;> first | (simp; done) | rfl
@[simp] theorem State.acceptWreq_fixed (s : State) (x1 : Nat) :
    (State.acceptWreq s x1).fixed = s.fixed := by
  unfold State.acceptWreq; dsimp only; (repeat' split) <;> first | rfl | simp
@[simp] theorem State.freeSlots_fixed (s : State) : (State.freeSlots s).fixed = s.fixed := by simp [State.freeSlots]
@[simp] theorem State.ackEvents_fixed (s : State) (x1 : Nat) :
    (State.ackEvents s x1).fixed = s.fixed := by
  simp [State.ackEvents]
@[simp] theorem State.advance_fixed (s : State) (x1 x2 : Nat) :
    (State.advance s x1 x2).2.fixed = s.fixed := by
  simp [State.advance]
@[simp] theorem State.answer_fixed (s : State) (x1 : Status) : (State.answer s x1).fixed = s.fixed := by simp [State.answer]
@[simp] theorem State.setPort_fixed (s : State) (x1 : Nat) (x2 : Port) :
    (State.setPort s x1 x2).fixed = s.fixed := by
  simp [State.setPort]
@[simp] theorem State.sendPair_fixed (s : State) (x1 x2 : Nat) (x3 x4 : Nat) (x5 : List FlitBytes) :
    (State.sendPair s x1 x2 x3 x4 x5).fixed = s.fixed := by
  simp [State.sendPair]
@[simp] theorem State.sendPairs_fixed (s : State) (x1 x2 : Nat) (x3 : List FlitBytes) :
    (State.sendPairs s x1 x2 x3).fixed = s.fixed := by
  simp [State.sendPairs]
@[simp] theorem State.pump_fixed (s : State) (x1 : Nat) : (State.pump s x1).fixed = s.fixed := by simp [State.pump]
@[simp] theorem State.post_fixed (s : State) (x1 : Nat) (x2 : Msg) :
    (State.post s x1 x2).fixed = s.fixed := by
  simp [State.post]
@[simp] theorem State.answerFence_fixed (s : State) (x1 : Nat) :
    (State.answerFence s x1).fixed = s.fixed := by
  unfold State.answerFence; dsimp only; (repeat' split) <;> first | rfl | simp
@[simp] theorem State.applyControls_fixed (s : State) (x1 : List (RBlk × Nat × Word)) (x2 : Nat) :
    (State.applyControls s x1 x2).fixed = s.fixed := by
  simp [State.applyControls]
@[simp] theorem State.liftCore_fixed (s : State) (x1 : Nat) :
    (State.liftCore s x1).fixed = s.fixed := by
  simp [State.liftCore]
@[simp] theorem State.liftLinks_fixed (s : State) : (State.liftLinks s).fixed = s.fixed := by simp [State.liftLinks]
@[simp] theorem State.liftAll_fixed (s : State) : (State.liftAll s).fixed = s.fixed := by simp [State.liftAll]
@[simp] theorem State.applyXbar_fixed (s : State) (x1 : List TopoEntry) (x2 : TopoEntry) :
    (State.applyXbar s x1 x2).fixed = s.fixed := by
  simp [State.applyXbar]
@[simp] theorem State.applyTrees_fixed (s : State) (x1 : Nat) (x2 : List Byte) :
    (State.applyTrees s x1 x2).fixed = s.fixed := by
  simp [State.applyTrees]
@[simp] theorem State.applyRoutes_fixed (s : State) (x1 : Nat) (x2 : List Byte) :
    (State.applyRoutes s x1 x2).fixed = s.fixed := by
  simp [State.applyRoutes]
@[simp] theorem State.markArea_fixed (s : State) (x1 : Nat) (x2 : Option Nat) :
    (State.markArea s x1 x2).fixed = s.fixed := by
  simp [State.markArea]
@[simp] theorem State.keepBuddy_fixed (s : State) : (State.keepBuddy s).fixed = s.fixed := by simp [State.keepBuddy]
@[simp] theorem State.keepHold_fixed (s : State) : (State.keepHold s).fixed = s.fixed := by simp [State.keepHold]
@[simp] theorem State.showHand_fixed (s : State) : (State.showHand s).fixed = s.fixed := by simp [State.showHand]
@[simp] theorem State.nvGet_fixed (s : State) (x1 x2 : Nat) (x3 : NvWhy) :
    (State.nvGet s x1 x2 x3).fixed = s.fixed := by
  simp [State.nvGet]
@[simp] theorem State.applyBuddy_fixed (s : State) (x1 : Blend) (x2 : Nat) :
    (State.applyBuddy s x1 x2).fixed = s.fixed := by
  simp [State.applyBuddy]
@[simp] theorem State.keepEpochs_fixed (s : State) (x1 : Nat) :
    (State.keepEpochs s x1).fixed = s.fixed := by
  simp [State.keepEpochs]
@[simp] theorem State.holdEpoch_fixed (s : State) (x1 x2 : Nat) :
    (State.holdEpoch s x1 x2).fixed = s.fixed := by
  simp [State.holdEpoch]
@[simp] theorem State.settleFails_fixed (s : State) (x1 : CKey) (x2 : Bool) :
    (State.settleFails s x1 x2).fixed = s.fixed := by
  simp [State.settleFails]
@[simp] theorem State.dropHead_fixed (s : State) (x1 x2 : Nat) (x3 : QEntry → Bool) :
    (State.dropHead s x1 x2 x3).fixed = s.fixed := by
  unfold State.dropHead; (repeat' split) <;> first | rfl | simp [-List.reduceReplicate]
@[simp] theorem State.dropHeads_fixed (x0 : Nat) (s : State) (x2 : Nat) :
    (State.dropHeads x0 s x2).fixed = s.fixed := by
  simp [State.dropHeads]
@[simp] theorem State.dropGroup_fixed (s : State) (x1 : Nat) :
    (State.dropGroup s x1).fixed = s.fixed := by
  simp [State.dropGroup]
@[simp] theorem State.takeTag_fixed (s : State) (x1 : Nat) (x2 : TagUse) :
    (State.takeTag s x1 x2).2.fixed = s.fixed := by
  unfold State.takeTag; dsimp only; (repeat' split) <;> first | rfl | simp
@[simp] theorem State.askForm_fixed (s : State) (x1 x2 x3 : Nat) (x4 : List Byte) :
    (State.askForm s x1 x2 x3 x4).2.fixed = s.fixed := by
  unfold State.askForm; dsimp only; repeat' (first | (simp; done) | split | rw [foldl_fixed _ (by intro s a; (repeat' split) <;> simp)])
@[simp] theorem State.setGrp_fixed (s : State) (x1 : Nat) (x2 : Grp) :
    (State.setGrp s x1 x2).fixed = s.fixed := by
  simp [State.setGrp]
@[simp] theorem State.formAsk_fixed (x0 : Nat) (s : State) (x2 : Nat) :
    (State.formAsk x0 s x2).fixed = s.fixed := by
  unfold State.formAsk; dsimp only; (repeat' split) <;> first | rfl | simp
@[simp] theorem State.formOne_fixed (s : State) (x1 : Nat) :
    (State.formOne s x1).fixed = s.fixed := by
  unfold State.formOne; dsimp only; (repeat' split) <;> first | rfl | simp
@[simp] theorem State.keepGroup_fixed (s : State) (x1 : Nat) :
    (State.keepGroup s x1).fixed = s.fixed := by
  unfold State.keepGroup; (repeat' split) <;> first | rfl | simp [-List.reduceReplicate]
@[simp] theorem State.newEpoch_fixed (s : State) (x1 x2 : Nat) (x3 : GroupCfg) :
    (State.newEpoch s x1 x2 x3).fixed = s.fixed := by
  simp [State.newEpoch]
@[simp] theorem State.setSipg_fixed (s : State) (x1 : Nat) (x2 : SipGrp) :
    (State.setSipg s x1 x2).fixed = s.fixed := by
  simp [State.setSipg]
@[simp] theorem State.sipFormAsk_fixed (x0 : Nat) (s : State) (x2 : Nat) :
    (State.sipFormAsk x0 s x2).fixed = s.fixed := by
  unfold State.sipFormAsk; dsimp only; (repeat' split) <;> first | rfl | simp
@[simp] theorem State.sipFormOne_fixed (s : State) (x1 : Nat) :
    (State.sipFormOne s x1).fixed = s.fixed := by
  unfold State.sipFormOne; dsimp only; (repeat' split) <;> first | rfl | simp
@[simp] theorem State.keepSip_fixed (s : State) (x1 : Nat) :
    (State.keepSip s x1).fixed = s.fixed := by
  unfold State.keepSip; (repeat' split) <;> first | rfl | simp [-List.reduceReplicate]
@[simp] theorem State.sipNewEpoch_fixed (s : State) (x1 x2 : Nat) :
    (State.sipNewEpoch s x1 x2).fixed = s.fixed := by
  unfold State.sipNewEpoch; dsimp only; (repeat' split) <;> first | (simp; done) | rfl
@[simp] theorem State.showExchange_fixed (s : State) :
    (State.showExchange s).fixed = s.fixed := by
  unfold State.showExchange; split <;> simp
@[simp] theorem State.sipGoesDown_fixed (s : State) (x1 : Nat) :
    (State.sipGoesDown s x1).fixed = s.fixed := by
  simp [State.sipGoesDown]
@[simp] theorem State.applyGroups_fixed (s : State) (x1 : Blend) :
    (State.applyGroups s x1).fixed = s.fixed := by
  simp [State.applyGroups]
@[simp] theorem State.setPortState_fixed (s : State) (x1 x2 : Nat) :
    (State.setPortState s x1 x2).fixed = s.fixed := by
  simp [State.setPortState]
@[simp] theorem State.formAgain_fixed (s : State) (x1 : Nat) :
    (State.formAgain s x1).fixed = s.fixed := by
  simp [State.formAgain]
@[simp] theorem State.holdTag_fixed (s : State) (x1 x2 : Nat) :
    (State.holdTag s x1 x2).fixed = s.fixed := by
  simp [State.holdTag]
@[simp] theorem State.grantTag_fixed (s : State) (x1 : Nat) :
    (State.grantTag s x1).fixed = s.fixed := by
  unfold State.grantTag; dsimp only; repeat' (first | (simp; done) | split | rw [foldl_fixed _ (by intro s a; (repeat' split) <;> simp)])
@[simp] theorem State.freeTag_fixed (s : State) (x1 x2 : Nat) :
    (State.freeTag s x1 x2).fixed = s.fixed := by
  simp [State.freeTag]
@[simp] theorem State.sendReq_fixed (s : State) (x1 x2 : Nat) (x3 : TagUse) (x4 : List Byte) :
    (State.sendReq s x1 x2 x3 x4).2.fixed = s.fixed := by
  unfold State.sendReq; dsimp only; repeat' (first | (simp; done) | split | rw [foldl_fixed _ (by intro s a; (repeat' split) <;> simp)])
@[simp] theorem State.sendPub_fixed (s : State) (w : Wpub) (n : Nat) : (s.sendPub w n).2.2.fixed = s.fixed := by
  induction n generalizing w with
  | zero => simp [State.sendPub]
  | succ n ih => simp only [State.sendPub]; (repeat' split) <;> simp [ih]
@[simp] theorem State.endPublish_fixed (s : State) (x1 x2 : Nat) (x3 : Status) :
    (State.endPublish s x1 x2 x3).fixed = s.fixed := by
  unfold State.endPublish; dsimp only; (repeat' split) <;> first | rfl | simp
@[simp] theorem State.pushPub_fixed (s : State) (x1 : Wpub) : (State.pushPub s x1).fixed = s.fixed := by simp [State.pushPub]
@[simp] theorem State.setChunk_fixed (s : State) (x1 : Nat) (x2 : InfChunk) :
    (State.setChunk s x1 x2).fixed = s.fixed := by
  simp [State.setChunk]
@[simp] theorem State.sendAttempt_fixed (s : State) (x1 : Nat) (x2 : InfChunk) :
    (State.sendAttempt s x1 x2).2.fixed = s.fixed := by
  unfold State.sendAttempt; dsimp only; repeat' (first | (simp; done) | split | rw [foldl_fixed _ (by intro s a; (repeat' split) <;> simp)])
@[simp] theorem State.dropChunks_fixed (s : State) (x1 : Nat) (x2 : InfChunk → Bool) :
    (State.dropChunks s x1 x2).fixed = s.fixed := by
  simp [State.dropChunks]
@[simp] theorem State.keepPointers_fixed (s : State) : (State.keepPointers s).fixed = s.fixed := by simp [State.keepPointers]
@[simp] theorem State.pruneManifests_fixed (s : State) :
    (State.pruneManifests s).fixed = s.fixed := by
  simp [State.pruneManifests]
@[simp] theorem State.releasePrior_fixed (s : State) :
    (State.releasePrior s).fixed = s.fixed := by
  unfold State.releasePrior; (repeat' split) <;> simp_all
@[simp] theorem State.dropReqs_fixed (s : State) (x1 : Nat) (x2 : InfReq → Bool) :
    (State.dropReqs s x1 x2).fixed = s.fixed := by
  simp [State.dropReqs]
@[simp] theorem State.dropReq_fixed (s : State) (x1 x2 x3 : Nat) :
    (State.dropReq s x1 x2 x3).fixed = s.fixed := by
  simp [State.dropReq]
@[simp] theorem State.setReq_fixed (s : State) (x1 : Nat) (x2 : InfReq) :
    (State.setReq s x1 x2).fixed = s.fixed := by
  simp [State.setReq]
@[simp] theorem State.chunkLost_fixed (s : State) (x1 : Nat) (x2 : InfChunk) :
    (State.chunkLost s x1 x2).fixed = s.fixed := by
  unfold State.chunkLost; dsimp only; (repeat' split) <;> first | rfl | simp
@[simp] theorem State.nextAttempt_fixed (s : State) (x1 : Nat) (x2 : InfChunk) :
    (State.nextAttempt s x1 x2).fixed = s.fixed := by
  unfold State.nextAttempt; dsimp only; (repeat' split) <;> first | rfl | simp
@[simp] theorem State.fetchFailed_fixed (s : State) (x1 x2 : Nat) (x3 : Bool) :
    (State.fetchFailed s x1 x2 x3).fixed = s.fixed := by
  unfold State.fetchFailed; (repeat' split) <;> simp_all
@[simp] theorem State.showCopy_fixed (s : State) (x1 x2 : Nat) (x3 x4 : Nat) :
    (State.showCopy s x1 x2 x3 x4).fixed = s.fixed := by
  simp [State.showCopy]
@[simp] theorem State.postBlock_fixed (s : State) (x1 : BlockSend) (x2 : List Byte) :
    (State.postBlock s x1 x2).2.fixed = s.fixed := by
  unfold State.postBlock; dsimp only; repeat' (first | (simp; done) | split | rw [foldl_fixed _ (by intro s a; (repeat' split) <;> simp)])
@[simp] theorem State.sendBlock_fixed (s : State) (x1 : BlockSend) (x2 : Bool) :
    (State.sendBlock s x1 x2).2.2.fixed = s.fixed := by
  simp [State.sendBlock]
@[simp] theorem State.goCopy_fixed (s : State) (x1 : BlockSend) :
    (State.goCopy s x1).fixed = s.fixed := by
  simp [State.goCopy]
@[simp] theorem State.beginCopy_fixed (s : State) (x1 : Nat) :
    (State.beginCopy s x1).fixed = s.fixed := by
  simp [State.beginCopy]
@[simp] theorem State.nextCopy_fixed (s : State) :
    (State.nextCopy s).fixed = s.fixed := by
  unfold State.nextCopy; dsimp only; (repeat' split) <;> first | rfl | simp
@[simp] theorem State.copyAcked_fixed (s : State) (x1 : BlockSend) :
    (State.copyAcked s x1).fixed = s.fixed := by
  simp [State.copyAcked]
@[simp] theorem State.copyFailed_fixed (s : State) (x1 : BlockSend) :
    (State.copyFailed s x1).fixed = s.fixed := by
  simp [State.copyFailed]
@[simp] theorem State.handEnds_fixed (s : State) (x1 : Status) :
    (State.handEnds s x1).fixed = s.fixed := by
  simp [State.handEnds]
@[simp] theorem State.goHand_fixed (s : State) (x1 : BlockSend) :
    (State.goHand s x1).fixed = s.fixed := by
  simp [State.goHand]
@[simp] theorem State.handAcked_fixed (s : State) (x1 : BlockSend) :
    (State.handAcked s x1).fixed = s.fixed := by
  simp [State.handAcked]
@[simp] theorem State.bcopyEnds_fixed (s : State) (x1 x2 : Nat) (x3 : Status) :
    (State.bcopyEnds s x1 x2 x3).fixed = s.fixed := by
  unfold State.bcopyEnds; dsimp only; (repeat' split) <;> first | rfl | simp
@[simp] theorem State.mgtReply_fixed (s : State) (x1 : MgtSrc) (x2 : BitVec 32) (x3 x4 : Nat) (x5 : Status) (x6 : List Byte) :
    (State.mgtReply s x1 x2 x3 x4 x5 x6).fixed = s.fixed := by
  simp [State.mgtReply]
@[simp] theorem State.fencePortDone_fixed (s : State) (x1 : Nat) :
    (State.fencePortDone s x1).fixed = s.fixed := by
  unfold State.fencePortDone; dsimp only; (repeat' split) <;> first | rfl | simp
@[simp] theorem State.endRequest_fixed (s : State) (x1 : Nat) (x2 : Nat × TagUse) (x3 : Status) :
    (State.endRequest s x1 x2 x3).fixed = s.fixed := by
  unfold State.endRequest; dsimp only; (repeat' split) <;> first | rfl | simp
@[simp] theorem State.endWaiting_fixed (s : State) (x1 : Nat) (x2 : TagUse × Msg) (x3 : Status) :
    (State.endWaiting s x1 x2 x3).fixed = s.fixed := by
  unfold State.endWaiting; dsimp only; (repeat' split) <;> first | rfl | simp
@[simp] theorem State.endPending_fixed (s : State) (x1 : Nat) (x2 : Status) :
    (State.endPending s x1 x2).fixed = s.fixed := by
  simp [State.endPending]
@[simp] theorem State.closePort_fixed (s : State) (x1 x2 : Nat) :
    (State.closePort s x1 x2).fixed = s.fixed := by
  simp [State.closePort]
@[simp] theorem State.startPort_fixed (s : State) (x1 : Nat) :
    (State.startPort s x1).fixed = s.fixed := by
  simp [State.startPort]
@[simp] theorem State.applyPort_fixed (s : State) (x1 : Nat) (x2 : PortCfg) (x3 x4 : Nat) :
    (State.applyPort s x1 x2 x3 x4).fixed = s.fixed := by
  simp [State.applyPort]
@[simp] theorem State.applyPorts_fixed (s : State) (x1 : Blend) :
    (State.applyPorts s x1).fixed = s.fixed := by
  simp [State.applyPorts]
@[simp] theorem State.applyMemory_fixed (s : State) (x1 : List Area) :
    (State.applyMemory s x1).fixed = s.fixed := by
  simp [State.applyMemory]
@[simp] theorem State.applyStages_fixed (s : State) (x1 : List StageCfg) :
    (State.applyStages s x1).fixed = s.fixed := by
  simp [State.applyStages]
@[simp] theorem State.applyPrograms_fixed (s : State) (x1 : List Nat) :
    (State.applyPrograms s x1).fixed = s.fixed := by
  simp [State.applyPrograms]
@[simp] theorem State.showDies_fixed (s : State) : (State.showDies s).fixed = s.fixed := by simp [State.showDies]
@[simp] theorem State.showKettle_fixed (s : State) : (State.showKettle s).fixed = s.fixed := by simp [State.showKettle]
@[simp] theorem State.setDie_fixed (s : State) (x1 : Nat) (x2 : Die) :
    (State.setDie s x1 x2).fixed = s.fixed := by
  simp [State.setDie]
@[simp] theorem State.judgeThrottle_fixed (s : State) (x1 : Nat) :
    (State.judgeThrottle s x1).fixed = s.fixed := by
  simp [State.judgeThrottle]
@[simp] theorem State.setCap_fixed (s : State) (x1 : Nat) : (State.setCap s x1).fixed = s.fixed := by simp [State.setCap]
@[simp] theorem State.loadPower_fixed (s : State) : (State.loadPower s).fixed = s.fixed := by simp [State.loadPower]
@[simp] theorem State.applyBlend_fixed (s : State) (x1 : Parsed) :
    (State.applyBlend s x1).fixed = s.fixed := by
  simp [State.applyBlend]
@[simp] theorem State.showTopo_fixed (s : State) (x1 x2 : Bool) (x3 x4 : Nat) :
    (State.showTopo s x1 x2 x3 x4).fixed = s.fixed := by
  simp [State.showTopo]
@[simp] theorem State.setHealth_fixed (s : State) (x1 : Nat) :
    (State.setHealth s x1).fixed = s.fixed := by
  simp [State.setHealth]
@[simp] theorem State.sendStatus_fixed (s : State) : (State.sendStatus s).fixed = s.fixed := by simp [State.sendStatus]
@[simp] theorem State.failHealth_fixed (s : State) (x1 : Nat) :
    (State.failHealth s x1).fixed = s.fixed := by
  simp [State.failHealth]
@[simp] theorem State.healHealth_fixed (s : State) : (State.healHealth s).fixed = s.fixed := by simp [State.healHealth]
@[simp] theorem State.judgeTopo_fixed (s : State) (x1 : Bool) :
    (State.judgeTopo s x1).fixed = s.fixed := by
  unfold State.judgeTopo; dsimp only; (repeat' split) <;> first | rfl | simp
@[simp] theorem State.compareTopo_fixed (s : State) : (State.compareTopo s).fixed = s.fixed := by simp [State.compareTopo]
@[simp] theorem State.degrade_fixed (s : State) (x1 : Nat) : (State.degrade s x1).fixed = s.fixed := by simp [State.degrade]
@[simp] theorem State.checkSpares_fixed (s : State) : (State.checkSpares s).fixed = s.fixed := by simp [State.checkSpares]
@[simp] theorem State.applyPartial_fixed (s : State) (x1 : Parsed) :
    (State.applyPartial s x1).fixed = s.fixed := by
  simp [State.applyPartial]
@[simp] theorem State.applyPending_fixed (s : State) : (State.applyPending s).fixed = s.fixed := by simp [State.applyPending]
@[simp] theorem State.setCluster_fixed (s : State) (x1 : Nat) (x2 : Cluster) :
    (State.setCluster s x1 x2).fixed = s.fixed := by
  simp [State.setCluster]
@[simp] theorem State.setRegion_fixed (s : State) (x1 : Nat) (x2 : Region) :
    (State.setRegion s x1 x2).fixed = s.fixed := by
  simp [State.setRegion]
@[simp] theorem State.moveMarks_fixed (s : State) (x1 x2 : Nat) (x3 x4 : Nat) :
    (State.moveMarks s x1 x2 x3 x4).fixed = s.fixed := by
  simp [State.moveMarks]
@[simp] theorem State.applyTakeover_fixed (s : State) (x1 x2 : Nat) (x3 : Bool) :
    (State.applyTakeover s x1 x2 x3).fixed = s.fixed := by
  simp [State.applyTakeover]
@[simp] theorem State.startAttest_fixed (s : State) (x1 : Nat) (x2 : Cmd) :
    (State.startAttest s x1 x2).2.fixed = s.fixed := by
  simp [State.startAttest]
@[simp] theorem State.setState_fixed (s : State) (x1 : Nat) :
    (State.setState s x1).fixed = s.fixed := by
  simp [State.setState]
@[simp] theorem State.leaveWarm_fixed (s : State) : (State.leaveWarm s).fixed = s.fixed := by simp [State.leaveWarm]
@[simp] theorem State.decideAgain_fixed (s : State) : (State.decideAgain s).fixed = s.fixed := by simp [State.decideAgain]
@[simp] theorem State.loadSeed_fixed (s : State) (x1 : List Byte) :
    (State.loadSeed s x1).fixed = s.fixed := by
  simp [State.loadSeed]
@[simp] theorem State.keepJob_fixed (s : State) : (State.keepJob s).fixed = s.fixed := by simp [State.keepJob]
@[simp] theorem State.beginJob_fixed (s : State) (x1 : Nat) (x2 : List Byte) (x3 x4 : Nat) :
    (State.beginJob s x1 x2 x3 x4).fixed = s.fixed := by
  simp [State.beginJob]
@[simp] theorem State.disturb_fixed (s : State) (x1 x2 x3 : Nat) (x4 : Byte) :
    (State.disturb s x1 x2 x3 x4).fixed = s.fixed := by
  simp [State.disturb]
@[simp] theorem State.storeGranule_fixed (s : State) (x1 : Nat) (x2 : List Byte) :
    (State.storeGranule s x1 x2).fixed = s.fixed := by
  simp [State.storeGranule]
@[simp] theorem State.zeroRun_fixed (s : State) (x1 x2 : Nat) :
    (State.zeroRun s x1 x2).fixed = s.fixed := by
  simp [State.zeroRun]
@[simp] theorem State.zeroArea_fixed (s : State) (x1 x2 x3 : Nat) :
    (State.zeroArea s x1 x2 x3).fixed = s.fixed := by
  simp [State.zeroArea]
@[simp] theorem State.clearLog_fixed (s : State) : (State.clearLog s).fixed = s.fixed := by simp [State.clearLog]
@[simp] theorem State.markVersion_fixed (s : State) (x1 x2 : Nat) :
    (State.markVersion s x1 x2).fixed = s.fixed := by
  simp [State.markVersion]
@[simp] theorem State.writeGranule_fixed (s : State) (x1 x2 : Nat) (x3 : List Byte) :
    (State.writeGranule s x1 x2 x3).2.fixed = s.fixed := by
  simp [State.writeGranule]
@[simp] theorem State.memWrite_fixed (s : State) (a : Nat) (bs : List Byte) : (s.memWrite a bs).2.fixed = s.fixed := by
  have h := foldl_fixed_by (fun b : Bool × State => b.2)
    (fun acc g => (acc.1 && (acc.2.writeGranule g a bs).1, (acc.2.writeGranule g a bs).2)) (by intros; simp) (granules a bs.length) (true, s)
  unfold State.memWrite; dsimp only; (repeat' split) <;> first | simp; done | exact h
@[simp] theorem State.putRuns_fixed (s : State) (rs : List (Nat × Nat)) (bs : List Byte) : (s.putRuns rs bs).2.fixed = s.fixed := by
  induction rs generalizing s bs with
  | nil => simp [State.putRuns]
  | cons r rs ih => simp [State.putRuns, ih]
@[simp] theorem State.writeArea_fixed (s : State) (x1 x2 : Nat) (x3 : List Byte) :
    (State.writeArea s x1 x2 x3).2.fixed = s.fixed := by
  simp [State.writeArea]
@[simp] theorem State.writeParts_fixed (s : State) (k b a : Nat) (ps : List (Nat × List Byte)) : (s.writeParts k b a ps).fixed = s.fixed := by
  induction ps generalizing s a with
  | nil => simp [State.writeParts]
  | cons r rs ih => simp [State.writeParts, ih]
@[simp] theorem State.writeTail_fixed (s : State) (x1 : Nat) (x2 : Tail) :
    (State.writeTail s x1 x2).fixed = s.fixed := by
  unfold State.writeTail; (repeat' split) <;> simp_all
@[simp] theorem State.restState_fixed (s : State) : (State.restState s).fixed = s.fixed := by simp [State.restState]
@[simp] theorem State.jobChanged_fixed (s : State) : (State.jobChanged s).fixed = s.fixed := by simp [State.jobChanged]
@[simp] theorem State.boundaryFault_fixed (s : State) (x1 : Nat) (x2 : Status) (x3 : Nat) :
    (State.boundaryFault s x1 x2 x3).fixed = s.fixed := by
  simp [State.boundaryFault]
@[simp] theorem State.writeBias_fixed (s : State) (x1 : Nat) (x2 : Area) :
    (State.writeBias s x1 x2).fixed = s.fixed := by
  simp [State.writeBias]
@[simp] theorem State.openStep_fixed (s : State) (x1 : Nat) :
    (State.openStep s x1).fixed = s.fixed := by
  simp [State.openStep]
@[simp] theorem State.logBlock_fixed (s : State) (x1 : Nat) :
    (State.logBlock s x1).2.2.fixed = s.fixed := by
  simp [State.logBlock]
@[simp] theorem State.window_fixed (s : State) (k : Nat) : (s.window k).2.2.fixed = s.fixed :=
  foldl_fixed_by (fun b : Status × List (List (Option GovEntry)) × State => b.2.2) _ (by intros; simp) _ (Status.ok, [], s)
@[simp] theorem State.chooseLayer_fixed (s : State) (x1 : List (List (Option GovEntry))) (x2 : Nat) :
    (State.chooseLayer s x1 x2).fixed = s.fixed := by
  simp [State.chooseLayer]
@[simp] theorem State.choose_fixed (s : State) (x1 : Nat) : (State.choose s x1).fixed = s.fixed := by simp [State.choose]
@[simp] theorem State.openJob_fixed (s : State) (x1 : Nat) (x2 : List Byte) :
    (State.openJob s x1 x2).fixed = s.fixed := by
  simp [State.openJob]
@[simp] theorem State.startJobOpen_fixed (s : State) (x1 : Nat) (x2 : Cmd) :
    (State.startJobOpen s x1 x2).2.fixed = s.fixed := by
  simp [State.startJobOpen]
@[simp] theorem State.startStepData_fixed (s : State) (x1 : Nat) (x2 : Cmd) :
    (State.startStepData s x1 x2).2.fixed = s.fixed := by
  simp [State.startStepData]
@[simp] theorem State.lastLoad_fixed (s : State) (x1 : Status) :
    (State.lastLoad s x1).fixed = s.fixed := by
  simp [State.lastLoad]
@[simp] theorem State.verified_fixed (s : State) (x1 : Bool) :
    (State.verified s x1).fixed = s.fixed := by
  simp [State.verified]
@[simp] theorem State.countVerify_fixed (s : State) (x1 : List Byte) (x2 : Option LoadFault) :
    (State.countVerify s x1 x2).fixed = s.fixed := by
  unfold State.countVerify; (repeat' split) <;> first | rfl | simp [-List.reduceReplicate]
@[simp] theorem State.readBlend_fixed (s : State) (x1 x2 : Nat) (x3 : Bool) :
    (State.readBlend s x1 x2 x3).2.fixed = s.fixed := by
  unfold State.readBlend; dsimp only; (repeat' split) <;> first | rfl | simp
@[simp] theorem State.putHash_fixed (s : State) (x1 : Nat) (x2 : List Byte) :
    (State.putHash s x1 x2).fixed = s.fixed := by
  simp [State.putHash]
@[simp] theorem State.showLoad_fixed (s : State) (x1 : Parsed) (x2 : List Byte) (x3 x4 : Bool) :
    (State.showLoad s x1 x2 x3 x4).fixed = s.fixed := by
  simp [State.showLoad]
@[simp] theorem State.takeBlend_fixed (s : State) (x1 : Parsed) (x2 : List Byte) (x3 x4 : Bool) :
    (State.takeBlend s x1 x2 x3 x4).fixed = s.fixed := by
  simp [State.takeBlend]
@[simp] theorem State.takeDefault_fixed (s : State) : (State.takeDefault s).fixed = s.fixed := by simp [State.takeDefault]
@[simp] theorem State.loadFailed_fixed (s : State) (x1 : LoadFault) (x2 : Bool) :
    (State.loadFailed s x1 x2).fixed = s.fixed := by
  simp [State.loadFailed]
@[simp] theorem State.partialLoad_fixed (s : State) (x1 x2 : Nat) :
    (State.partialLoad s x1 x2).2.fixed = s.fixed := by
  unfold State.partialLoad; dsimp only; (repeat' split) <;> first | rfl | simp
@[simp] theorem State.earlyLoad_fixed (s : State) (x1 x2 x3 : Nat) :
    (State.earlyLoad s x1 x2 x3).2.fixed = s.fixed := by
  unfold State.earlyLoad; dsimp only; (repeat' split) <;> first | rfl | simp
@[simp] theorem State.decided_fixed (s : State) : (State.decided s).fixed = s.fixed := by simp [State.decided]
@[simp] theorem State.stageEvent_fixed (s : State) (x1 : Nat) :
    (State.stageEvent s x1).fixed = s.fixed := by
  simp [State.stageEvent]
@[simp] theorem State.setStage_fixed (s : State) (x1 x2 x3 : Nat) (x4 : List Byte) :
    (State.setStage s x1 x2 x3 x4).fixed = s.fixed := by
  simp [State.setStage]
@[simp] theorem State.switch_fixed (s : State) : (State.switch s).fixed = s.fixed := by simp [State.switch]
@[simp] theorem State.failWaiting_fixed (s : State) : (State.failWaiting s).fixed = s.fixed := by simp [State.failWaiting]
@[simp] theorem State.sendMan_fixed (s : State) (x1 : ManFetch) :
    (State.sendMan s x1).fixed = s.fixed := by
  unfold State.sendMan; dsimp only; repeat' (first | (simp; done) | split | rw [foldl_fixed _ (by intro s a; (repeat' split) <;> simp)])
@[simp] theorem State.startMan_fixed (s : State) (x1 : Nat) (x2 : Bool) :
    (State.startMan s x1 x2).fixed = s.fixed := by
  simp [State.startMan]
@[simp] theorem State.tryDecide_fixed (s : State) :
    (State.tryDecide s).fixed = s.fixed := by
  unfold State.tryDecide; dsimp only; (repeat' split) <;> first | (simp; done) | rfl
@[simp] theorem State.startWreq_fixed (s : State) (x1 : Nat) (x2 : QEntry) :
    (State.startWreq s x1 x2).fixed = s.fixed := by
  unfold State.startWreq; dsimp only; (repeat' split) <;> first | rfl | simp
@[simp] theorem State.setHead_fixed (s : State) (x1 x2 : Nat) (x3 : QEntry) :
    (State.setHead s x1 x2 x3).fixed = s.fixed := by
  simp [State.setHead]
@[simp] theorem State.tsCorrections_fixed (s : State) (x1 : Nat) :
    (State.tsCorrections s x1).fixed = s.fixed := by
  simp [State.tsCorrections]
@[simp] theorem State.tsReads_fixed (s : State) (x1 x2 : Nat) (x3 : List Nat) (x4 : Bool) :
    (State.tsReads s x1 x2 x3 x4).fixed = s.fixed := by
  simp [State.tsReads]
@[simp] theorem State.dropSpare_fixed (s : State) (x1 : Nat) :
    (State.dropSpare s x1).fixed = s.fixed := by
  simp [State.dropSpare]
@[simp] theorem State.lostEnd_fixed (s : State) (x1 : Nat × Nat → Bool) (x2 : Bool) :
    (State.lostEnd s x1 x2).fixed = s.fixed := by
  simp [State.lostEnd]
@[simp] theorem State.meshEnd_fixed (s : State) (x1 x2 : Nat) (x3 : Bool) :
    (State.meshEnd s x1 x2 x3).fixed = s.fixed := by
  simp [State.meshEnd]
@[simp] theorem State.giveUp_fixed (s : State) (x1 : Nat) : (State.giveUp s x1).fixed = s.fixed := by simp [State.giveUp]
@[simp] theorem State.fenceCore_fixed (s : State) (x1 x2 : Nat) :
    (State.fenceCore s x1 x2).fixed = s.fixed := by
  unfold State.fenceCore; dsimp only; (repeat' split) <;> first | (simp; done) | rfl
@[simp] theorem State.busRead_fixed (s : State) (a n : Nat) (o : StoreObs) : (s.busRead a n o).2.2.fixed = s.fixed := by
  have h := fun l : List Nat => foldl_fixed_by (fun b : Status × List Byte × State => b.2.2)
    (fun acc k => (acc.1.join (acc.2.2.critRead (a + 8 * k)).1, acc.2.1 ++ leBytes 8 (acc.2.2.critRead (a + 8 * k)).2.1.toNat,
      (acc.2.2.critRead (a + 8 * k)).2.2)) (by intros; simp) l (Status.ok, [], s)
  simp only [] at h
  unfold State.busRead
  split
  · rfl
  · generalize spaceOf a = sp
    cases sp <;> dsimp only <;> (repeat' split) <;> first | rfl | simp only [h, State.memRead_fixed, State.tsReads_fixed, State.fenceCore_fixed]
@[simp] theorem State.publishBytes_fixed (s : State) (x1 : BitVec 128) (x2 : Tensor) :
    (State.publishBytes s x1 x2).2.2.fixed = s.fixed := by
  simp [State.publishBytes]
@[simp] theorem State.startPublish_fixed (s : State) (x1 : Nat) (x2 : QEntry) :
    (State.startPublish s x1 x2).fixed = s.fixed := by
  unfold State.startPublish; dsimp only; (repeat' split) <;> first | (simp; done) | rfl
@[simp] theorem State.noteSlice_fixed (s : State) (x1 : Shard) (x2 : Nat) :
    (State.noteSlice s x1 x2).fixed = s.fixed := by
  simp [State.noteSlice]
@[simp] theorem State.tsWrite_fixed (s : State) (x1 x2 : Nat) (x3 : List Byte) :
    (State.tsWrite s x1 x2 x3).fixed = s.fixed := by
  simp [State.tsWrite]
@[simp] theorem State.sipredDone_fixed (s : State) (x1 x2 : Nat) (x3 : Status) (x4 : List (BitVec 32)) :
    (State.sipredDone s x1 x2 x3 x4).fixed = s.fixed := by
  unfold State.sipredDone; dsimp only; (repeat' split) <;> first | rfl | simp
@[simp] theorem State.sipStale_fixed (s : State) (x1 : Nat) :
    (State.sipStale s x1).fixed = s.fixed := by
  simp [State.sipStale]
@[simp] theorem State.sendSlot_fixed (s : State) (x1 : Nat) (x2 : FlitBytes) :
    (State.sendSlot s x1 x2).fixed = s.fixed := by
  simp [State.sendSlot]
@[simp] theorem State.sendSip_fixed (s : State) (x1 : Nat) (x2 : SipFlit) (x3 : Nat) :
    (State.sendSip s x1 x2 x3).fixed = s.fixed := by
  simp [State.sendSip]
@[simp] theorem State.sipResult_fixed (s : State) (x1 x2 : Nat) (x3 : Status) (x4 : List (BitVec 32)) :
    (State.sipResult s x1 x2 x3 x4).fixed = s.fixed := by
  unfold State.sipResult; dsimp only; repeat' (first | (simp; done) | split | rw [foldl_fixed _ (by intro s a; (repeat' split) <;> simp)])
@[simp] theorem State.sipDown_fixed (s : State) (x1 : SipGrp) (x2 : SipFlit) :
    (State.sipDown s x1 x2).fixed = s.fixed := by
  simp [State.sipDown]
@[simp] theorem State.sipComplete_fixed (s : State) (x1 : SipGrp) (x2 : Combine) (x3 : Nat) :
    (State.sipComplete s x1 x2 x3).fixed = s.fixed := by
  simp [State.sipComplete]
@[simp] theorem State.sipInput_fixed (s : State) (x1 x2 : Nat) (x3 : SipFlit) (x4 : Nat) :
    (State.sipInput s x1 x2 x3 x4).fixed = s.fixed := by
  unfold State.sipInput; dsimp only; (repeat' split) <;> first | (simp; done) | rfl
@[simp] theorem State.startSipred_fixed (s : State) (x1 : Nat) (x2 : QEntry) :
    (State.startSipred s x1 x2).fixed = s.fixed := by
  unfold State.startSipred; dsimp only; repeat' (first | (simp; done) | split | rw [foldl_fixed _ (by intro s a; (repeat' split) <;> simp)])
@[simp] theorem State.startStream_fixed (s : State) (x1 : Nat) :
    (State.startStream s x1).fixed = s.fixed := by
  unfold State.startStream; dsimp only; (repeat' split) <;> first | rfl | simp
@[simp] theorem State.startStreams_fixed (s : State) (n : Nat) : (s.startStreams n).fixed = s.fixed := by
  induction n generalizing s with
  | zero => simp [State.startStreams]
  | succ n ih => simp only [State.startStreams]; (repeat' split) <;> simp [ih]
@[simp] theorem State.setSam_fixed (s : State) (x1 : Nat) (x2 : Sam) :
    (State.setSam s x1 x2).fixed = s.fixed := by
  simp [State.setSam]
@[simp] theorem State.compareRed_fixed (s : State) (x1 : Nat) (x2 : CKey) (x3 : Bool) :
    (State.compareRed s x1 x2 x3).fixed = s.fixed := by
  simp [State.compareRed]
@[simp] theorem State.putCtx_fixed (s : State) (x1 : Nat) (x2 : Ctx) :
    (State.putCtx s x1 x2).fixed = s.fixed := by
  simp [State.putCtx]
@[simp] theorem State.enterCtx_fixed (s : State) (x1 : Nat) (x2 : Ctx) (x3 : Nat × Nat) (x4 : Status) (x5 : WireChunk) :
    (State.enterCtx s x1 x2 x3 x4 x5).2.fixed = s.fixed := by
  simp [State.enterCtx]
@[simp] theorem State.dropCtx_fixed (s : State) (x1 : CKey) : (State.dropCtx s x1).fixed = s.fixed := by simp [State.dropCtx]
@[simp] theorem State.moveCtx_fixed (s : State) (x1 x2 : Nat) (x3 : Ctx) :
    (State.moveCtx s x1 x2 x3).fixed = s.fixed := by
  simp [State.moveCtx]
@[simp] theorem State.sumUp_fixed (s : State) (x1 : Nat) (x2 : Ctx) :
    (State.sumUp s x1 x2).2.fixed = s.fixed := by
  simp [State.sumUp]
@[simp] theorem State.sendRed_fixed (s : State) (x1 x2 x3 : Nat) (x4 : CKey) (x5 : Nat) (x6 : Status) (x7 : List Byte) :
    (State.sendRed s x1 x2 x3 x4 x5 x6 x7).fixed = s.fixed := by
  simp [State.sendRed]
@[simp] theorem State.sendPartial_fixed (s : State) (x1 : Nat) (x2 : Ctx) :
    (State.sendPartial s x1 x2).fixed = s.fixed := by
  simp [State.sendPartial, -List.reduceReplicate]
@[simp] theorem State.sendMate_fixed (x0 : Nat) (x1 : CKey) (x2 : Nat) (x3 : List Byte) (s : State) (x5 : Nat) :
    (State.sendMate x0 x1 x2 x3 s x5).fixed = s.fixed := by
  unfold State.sendMate; (repeat' split) <;> first | rfl | simp [-List.reduceReplicate]
@[simp] theorem State.fanOut_fixed (s : State) (x1 : Grp) (x2 : Nat) (x3 : CKey) (x4 : Nat) (x5 : List Byte) (x6 : Option Nat) :
    (State.fanOut s x1 x2 x3 x4 x5 x6).fixed = s.fixed := by
  unfold State.fanOut; dsimp only; (repeat' split) <;> first | rfl | simp
@[simp] theorem State.dropRetained_fixed (s : State) (x1 : CKey) :
    (State.dropRetained s x1).fixed = s.fixed := by
  simp [State.dropRetained]
@[simp] theorem State.readRetained_fixed (s : State) (x1 : Nat) (x2 : Retained) :
    (State.readRetained s x1 x2).2.2.fixed = s.fixed := by
  simp [State.readRetained]
@[simp] theorem State.genTouch_fixed (s : State) (x1 : Nat) :
    (State.genTouch s x1).fixed = s.fixed := by
  unfold State.genTouch; (repeat' split) <;> first | rfl | simp [-List.reduceReplicate]
@[simp] theorem State.writeErr_fixed (s : State) (x1 : Nat) (x2 : Retained) :
    (State.writeErr s x1 x2).2.fixed = s.fixed := by
  unfold State.writeErr; dsimp only; (repeat' split) <;> first | rfl | simp
@[simp] theorem State.putRetained_fixed (s : State) (x1 : Nat) (x2 : Retained) :
    (State.putRetained s x1 x2).fixed = s.fixed := by
  simp [State.putRetained]
@[simp] theorem State.chunkDone_fixed (s : State) (x1 : CKey) (x2 : Status) :
    (State.chunkDone s x1 x2).fixed = s.fixed := by
  unfold State.chunkDone; dsimp only; (repeat' split) <;> first | rfl | simp
@[simp] theorem State.sliceDone_fixed (s : State) (x1 : Grp) (x2 x3 : Nat) :
    (State.sliceDone s x1 x2 x3).fixed = s.fixed := by
  unfold State.sliceDone; dsimp only; (repeat' split) <;> first | rfl | simp
@[simp] theorem State.endChunk_fixed (s : State) (x1 : Nat) (x2 : Grp) (x3 : Ctx) (x4 : Status) :
    (State.endChunk s x1 x2 x3 x4).fixed = s.fixed := by
  unfold State.endChunk; dsimp only; (repeat' split) <;> first | rfl | simp
@[simp] theorem State.ownerActs_fixed (s : State) (x1 : Nat) (x2 : Grp) (x3 : Ctx) :
    (State.ownerActs s x1 x2 x3).2.fixed = s.fixed := by
  unfold State.ownerActs; dsimp only; (repeat' split) <;> first | rfl | simp
@[simp] theorem State.judgeCtx_fixed (s : State) (x1 : Grp) (x2 : CKey) (x3 : Bool) :
    (State.judgeCtx s x1 x2 x3).2.fixed = s.fixed := by
  unfold State.judgeCtx; dsimp only; (repeat' split) <;> first | rfl | simp
@[simp] theorem State.samInput_fixed (s : State) (x1 : Nat) (x2 : Grp) (x3 : CKey) (x4 : Nat × Nat) (x5 : Status) (x6 : List Byte) :
    (State.samInput s x1 x2 x3 x4 x5 x6).2.fixed = s.fixed := by
  unfold State.samInput; dsimp only; repeat' (first | (simp; done) | split | rw [foldl_fixed _ (by intro s a; (repeat' split) <;> simp)])
@[simp] theorem State.encodeFrom_fixed (s : State) (x1 : Nat) (x2 : Retained) (x3 : Nat) (x4 : Bool) (x5 : List FVal) :
    (State.encodeFrom s x1 x2 x3 x4 x5).2.fixed = s.fixed := by
  simp [State.encodeFrom]
@[simp] theorem State.reencode_fixed (s : State) (x1 : CKey) (x2 : Nat) (x3 : Bool) :
    (State.reencode s x1 x2 x3).2.2.2.fixed = s.fixed := by
  unfold State.reencode; dsimp only; (repeat' split) <;> first | (simp; done) | rfl
@[simp] theorem State.samFuel_fixed (s : State) (p : Nat) (g : Grp) (k : CKey) (src : Nat × Nat) (st : Status) (body : List Byte) (n : Nat) :
    (s.samFuel p g k src st body n).fixed = s.fixed := by
  induction n generalizing s src st body with
  | zero => simp [State.samFuel]
  | succ n ih => simp only [State.samFuel]; (repeat' split) <;> first | rfl | simp [ih]
@[simp] theorem State.samWaits_fixed (s : State) (p n : Nat) : (s.samWaits p n).fixed = s.fixed := by
  induction n generalizing s with
  | zero => simp [State.samWaits]
  | succ n ih => simp only [State.samWaits]; (repeat' split) <;> first | rfl | simp [ih]
@[simp] theorem State.samServe_fixed (s : State) : (State.samServe s).fixed = s.fixed := by simp [State.samServe]
@[simp] theorem State.sendHello_fixed (s : State) (x1 : Nat) :
    (State.sendHello s x1).fixed = s.fixed := by
  simp [State.sendHello]
@[simp] theorem State.rebindOne_fixed (s : State) (x1 : Nat) :
    (State.rebindOne s x1).fixed = s.fixed := by
  simp [State.rebindOne]
@[simp] theorem State.rebindAll_fixed (s : State) : (State.rebindAll s).fixed = s.fixed := by simp [State.rebindAll]
@[simp] theorem State.exchangeFail_fixed (s : State) (x1 : Status) :
    (State.exchangeFail s x1).fixed = s.fixed := by
  simp [State.exchangeFail]
@[simp] theorem State.pumpExchange_fixed (s : State) (n : Nat) : (s.pumpExchange n).fixed = s.fixed := by
  induction n generalizing s with
  | zero => simp [State.pumpExchange]
  | succ n ih => simp only [State.pumpExchange]; (repeat' split) <;> first | rfl | simp [ih]
@[simp] theorem State.formAll_fixed (s : State) : (State.formAll s).fixed = s.fixed := by simp [State.formAll]
@[simp] theorem State.pumpPubs_fixed (s : State) : (State.pumpPubs s).fixed = s.fixed := by simp [State.pumpPubs]
@[simp] theorem State.settleStreams_fixed (s : State) :
    (State.settleStreams s).fixed = s.fixed := by
  simp [State.settleStreams]
@[simp] theorem State.loadDone_fixed (s : State) (x1 : List Byte) (x2 : Parsed) :
    (State.loadDone s x1 x2).fixed = s.fixed := by
  simp [State.loadDone]
@[simp] theorem State.fullLoad_fixed (s : State) (x1 x2 : Nat) :
    (State.fullLoad s x1 x2).2.fixed = s.fixed := by
  unfold State.fullLoad; dsimp only; repeat' (first | (simp; done) | split | rw [foldl_fixed _ (by intro s a; (repeat' split) <;> simp)])
@[simp] theorem State.startBlendLoad_fixed (s : State) (x1 : Nat) (x2 : Cmd) :
    (State.startBlendLoad s x1 x2).2.fixed = s.fixed := by
  simp [State.startBlendLoad]
@[simp] theorem State.startDrain_fixed (s : State) (x1 : Nat) (x2 : Cmd) :
    (State.startDrain s x1 x2).2.fixed = s.fixed := by
  simp [State.startDrain]
@[simp] theorem State.rmax_fixed (s : State) (x1 : RBlk) (x2 x3 x4 : Nat) :
    (State.rmax s x1 x2 x3 x4).fixed = s.fixed := by
  simp [State.rmax]
@[simp] theorem State.regionEvent_fixed (s : State) (x1 x2 : Nat) :
    (State.regionEvent s x1 x2).fixed = s.fixed := by
  simp [State.regionEvent]
@[simp] theorem State.finishReset_fixed (s : State) (x1 : Nat) :
    (State.finishReset s x1).fixed = s.fixed := by
  simp [State.finishReset]
@[simp] theorem State.endResets_fixed (s : State) : (State.endResets s).fixed = s.fixed := by simp [State.endResets]
@[simp] theorem State.holdQueued_fixed (s : State) (x1 : Nat) :
    (State.holdQueued s x1).fixed = s.fixed := by
  simp [State.holdQueued]
@[simp] theorem State.reformAll_fixed (s : State) :
    (State.reformAll s).fixed = s.fixed := by
  unfold State.reformAll; dsimp only; repeat' (first | (simp; done) | split | rw [foldl_fixed _ (by intro s a; (repeat' split) <;> simp)])
@[simp] theorem State.dropAttempt_fixed (s : State) : (State.dropAttempt s).fixed = s.fixed := by simp [State.dropAttempt]
@[simp] theorem State.trimLog_fixed (s : State) (x1 : Nat) : (State.trimLog s x1).fixed = s.fixed := by simp [State.trimLog]
@[simp] theorem State.readTail_fixed (s : State) (x1 x2 : Nat) :
    (State.readTail s x1 x2).2.2.fixed = s.fixed := by
  simp [State.readTail]
@[simp] theorem State.setCounters_fixed (s : State) (x1 : List Nat) :
    (State.setCounters s x1).fixed = s.fixed := by
  simp [State.setCounters]
@[simp] theorem State.joinEpochs_fixed (s : State) (x1 : List (List Nat)) :
    (State.joinEpochs s x1).fixed = s.fixed := by
  simp [State.joinEpochs]
@[simp] theorem State.cancelWreqs_fixed (s : State) (x1 : InfReq → Bool) :
    (State.cancelWreqs s x1).fixed = s.fixed := by
  simp [State.cancelWreqs]
@[simp] theorem State.endMan_fixed (s : State) (x1 x2 : Bool) :
    (State.endMan s x1 x2).fixed = s.fixed := by
  simp [State.endMan]
@[simp] theorem State.dropMan_fixed (s : State) (x1 : Bool) : (State.dropMan s x1).fixed = s.fixed := by simp [State.dropMan]
@[simp] theorem State.setActive_fixed (s : State) (x1 : Nat) (x2 : List Byte) :
    (State.setActive s x1 x2).fixed = s.fixed := by
  simp [State.setActive]
@[simp] theorem State.holdExchange_fixed (s : State) (x1 : Nat) (x2 : List (List Byte)) :
    (State.holdExchange s x1 x2).fixed = s.fixed := by
  simp [State.holdExchange]
@[simp] theorem State.resumeAt_fixed (s : State) (x1 : Nat) (x2 : Tail) :
    (State.resumeAt s x1 x2).fixed = s.fixed := by
  simp [State.resumeAt]
@[simp] theorem State.rollback_fixed (s : State) (x1 : Nat) :
    (State.rollback s x1).fixed = s.fixed := by
  simp [State.rollback]
@[simp] theorem State.obeyRollback_fixed (s : State) (x1 : Nat) :
    (State.obeyRollback s x1).fixed = s.fixed := by
  unfold State.obeyRollback; (repeat' split) <;> simp_all
@[simp] theorem State.settleOrder_fixed (s : State) :
    (State.settleOrder s).fixed = s.fixed := by
  unfold State.settleOrder; (repeat' split) <;> first | rfl | simp [-List.reduceReplicate]
@[simp] theorem State.resetRegs_fixed (s : State) (x1 x2 : List Nat) :
    (State.resetRegs s x1 x2).fixed = s.fixed := by
  simp [State.resetRegs]
@[simp] theorem State.dropCores_fixed (s : State) (x1 : List Nat) :
    (State.dropCores s x1).fixed = s.fixed := by
  simp [State.dropCores]
@[simp] theorem State.dropTakeovers_fixed (s : State) (x1 : List Nat) :
    (State.dropTakeovers s x1).fixed = s.fixed := by
  simp [State.dropTakeovers]
@[simp] theorem State.signalDone_fixed (s : State) (x1 : Sig) (x2 : Status) :
    (State.signalDone s x1 x2).fixed = s.fixed := by
  unfold State.signalDone; dsimp only; (repeat' split) <;> first | rfl | simp
@[simp] theorem State.refuseHeld_fixed (s : State) (x1 : List Nat) :
    (State.refuseHeld s x1).fixed = s.fixed := by
  simp [State.refuseHeld]
@[simp] theorem State.dropClusters_fixed (s : State) (x1 : List Nat) :
    (State.dropClusters s x1).fixed = s.fixed := by
  simp [State.dropClusters]
@[simp] theorem State.clearRegion_fixed (s : State) (x1 : Nat) :
    (State.clearRegion s x1).fixed = s.fixed := by
  simp [State.clearRegion]
@[simp] theorem State.startReset_fixed (s : State) (x1 : Nat) :
    (State.startReset s x1).fixed = s.fixed := by
  simp [State.startReset]
@[simp] theorem State.startRegionReset_fixed (s : State) (x1 : Nat) (x2 : Cmd) :
    (State.startRegionReset s x1 x2).2.fixed = s.fixed := by
  simp [State.startRegionReset]
@[simp] theorem State.startSelfTest_fixed (s : State) (x1 : Nat) (x2 : Cmd) :
    (State.startSelfTest s x1 x2).2.fixed = s.fixed := by
  simp [State.startSelfTest]
@[simp] theorem State.askCkp_fixed (s : State) (x1 : List Nat) (x2 x3 : Bool) :
    (State.askCkp s x1 x2 x3).fixed = s.fixed := by
  simp [State.askCkp]
@[simp] theorem State.startCheckpoint_fixed (s : State) (x1 : Nat) (x2 : Cmd) :
    (State.startCheckpoint s x1 x2).2.fixed = s.fixed := by
  simp [State.startCheckpoint]
@[simp] theorem State.restoreEnds_fixed (s : State) (x1 : Restore) (x2 : Status) (x3 : Option Nat) :
    (State.restoreEnds s x1 x2 x3).fixed = s.fixed := by
  simp [State.restoreEnds]
@[simp] theorem State.beginRestore_fixed (s : State) (x1 x2 : Nat) (x3 x4 : Bool) :
    (State.beginRestore s x1 x2 x3 x4).fixed = s.fixed := by
  simp [State.beginRestore]
@[simp] theorem State.startRestore_fixed (s : State) (x1 : Nat) (x2 : Cmd) :
    (State.startRestore s x1 x2).2.fixed = s.fixed := by
  simp [State.startRestore]
@[simp] theorem State.finishCode_fixed (s : State) (x1 : Nat) (x2 : Status) :
    (State.finishCode s x1 x2).fixed = s.fixed := by
  simp [State.finishCode]
@[simp] theorem State.endJob_fixed (s : State) : (State.endJob s).fixed = s.fixed := by simp [State.endJob]
@[simp] theorem State.closeJob_fixed (s : State) :
    (State.closeJob s).fixed = s.fixed := by
  unfold State.closeJob; dsimp only; (repeat' split) <;> first | (simp; done) | rfl
@[simp] theorem State.settleClose_fixed (s : State) : (State.settleClose s).fixed = s.fixed := by simp [State.settleClose]
@[simp] theorem State.startJobClose_fixed (s : State) (x1 : Nat) (x2 : Cmd) :
    (State.startJobClose s x1 x2).2.fixed = s.fixed := by
  simp [State.startJobClose]
@[simp] theorem State.startCmd_fixed (s : State) (x1 : Nat) (x2 : Cmd) :
    (State.startCmd s x1 x2).2.fixed = s.fixed := by
  simp [State.startCmd]
@[simp] theorem State.runHead_fixed (s : State) (x1 : Nat) :
    (State.runHead s x1).fixed = s.fixed := by
  unfold State.runHead; dsimp only; (repeat' split) <;> first | rfl | simp
@[simp] theorem State.runFuel_fixed (n : Nat) (s : State) : (State.runFuel n s).fixed = s.fixed := by
  induction n generalizing s with
  | zero => simp [State.runFuel]
  | succ n ih => simp only [State.runFuel]; (repeat' split) <;> first | rfl | simp [ih]
@[simp] theorem State.runQueues_fixed (s : State) : (State.runQueues s).fixed = s.fixed := by simp [State.runQueues]
@[simp] theorem State.heldLoad_fixed (s : State) (x1 : Nat) (x2 : List Byte) :
    (State.heldLoad s x1 x2).fixed = s.fixed := by
  unfold State.heldLoad; (repeat' split) <;> simp_all
@[simp] theorem State.applyWaiting_fixed (s : State) :
    (State.applyWaiting s).fixed = s.fixed := by
  unfold State.applyWaiting; dsimp only; (repeat' split) <;> first | rfl | simp
@[simp] theorem State.cplTo_fixed (s : State) (x1 : Nat) (x2 : Msg) (x3 : Status) :
    (State.cplTo s x1 x2 x3).fixed = s.fixed := by
  simp [State.cplTo]
@[simp] theorem State.msgMalformed_fixed (s : State) (x1 : Nat) (x2 : Msg) :
    (State.msgMalformed s x1 x2).fixed = s.fixed := by
  simp [State.msgMalformed]
@[simp] theorem State.foreignJob_fixed (s : State) (x1 : Nat) :
    (State.foreignJob s x1).fixed = s.fixed := by
  simp [State.foreignJob]
@[simp] theorem State.arrive_fixed (s : State) (x1 : Nat) (x2 : Msg) (x3 : State → State) (h4 : ∀ (y0 : State), (x3 y0).fixed = y0.fixed) :
    (State.arrive s x1 x2 x3).fixed = s.fixed := by
  unfold State.arrive; (repeat' split) <;> simp_all
@[simp] theorem State.seqDone_fixed (s : State) (x1 : Nat) (x2 : Status) (x3 : Nat) :
    (State.seqDone s x1 x2 x3).fixed = s.fixed := by
  simp [State.seqDone]
@[simp] theorem State.passBarrier_fixed (s : State) (x1 : Nat) :
    (State.passBarrier s x1).fixed = s.fixed := by
  simp [State.passBarrier]
@[simp] theorem State.arriveCluster_fixed (s : State) (x1 x2 : Nat) :
    (State.arriveCluster s x1 x2).fixed = s.fixed := by
  simp [State.arriveCluster]
@[simp] theorem State.arriveRegion_fixed (s : State) (x1 x2 : Nat) :
    (State.arriveRegion s x1 x2).fixed = s.fixed := by
  simp [State.arriveRegion]
@[simp] theorem State.attestSigned_fixed (s : State) (x1 : Bool) (x2 : Nat) (x3 : List Byte) (x4 : Nat) :
    (State.attestSigned s x1 x2 x3 x4).fixed = s.fixed := by
  simp [State.attestSigned]
@[simp] theorem State.lateReply_fixed (s : State) (x1 : Nat) (x2 : Msg) :
    (State.lateReply s x1 x2).fixed = s.fixed := by
  simp [State.lateReply]
@[simp] theorem State.backIn_fixed (s : State) (x1 : Nat) (x2 : Msg) :
    (State.backIn s x1 x2).fixed = s.fixed := by
  simp [State.backIn]
@[simp] theorem State.backTo_fixed (s : State) (x1 : Nat) (x2 : Msg) (x3 : Status) :
    (State.backTo s x1 x2 x3).fixed = s.fixed := by
  simp [State.backTo]
@[simp] theorem State.openFrom_fixed (s : State) (x1 : Nat) (x2 : Tail) :
    (State.openFrom s x1 x2).fixed = s.fixed := by
  simp [State.openFrom]
@[simp] theorem State.takeJob_fixed (s : State) (x1 : Nat) (x2 : Msg) (x3 : Nat) :
    (State.takeJob s x1 x2 x3).fixed = s.fixed := by
  simp [State.takeJob]
@[simp] theorem State.handIn_fixed (s : State) (x1 : Nat) (x2 : Msg) :
    (State.handIn s x1 x2).fixed = s.fixed := by
  simp [State.handIn]
@[simp] theorem State.holdIn_fixed (s : State) (x1 : Nat) (x2 : Msg) :
    (State.holdIn s x1 x2).fixed = s.fixed := by
  simp [State.holdIn]
@[simp] theorem State.bcopyIn_fixed (s : State) (x1 : Nat) (x2 : Msg) :
    (State.bcopyIn s x1 x2).fixed = s.fixed := by
  simp [State.bcopyIn]
@[simp] theorem State.bcopyLate_fixed (s : State) (x1 : Nat) :
    (State.bcopyLate s x1).fixed = s.fixed := by
  unfold State.bcopyLate; dsimp only; (repeat' split) <;> first | rfl | simp
@[simp] theorem State.vecBegin_fixed (s : State) (x1 : QEntry) :
    (State.vecBegin s x1).2.fixed = s.fixed := by
  simp [State.vecBegin]
@[simp] theorem State.markBeat_fixed (s : State) (x1 x2 x3 : Nat) :
    (State.markBeat s x1 x2 x3).fixed = s.fixed := by
  simp [State.markBeat]
@[simp] theorem State.limitFence_fixed (s : State) (x1 x2 : Nat) :
    (State.limitFence s x1 x2).fixed = s.fixed := by
  simp [State.limitFence]
@[simp] theorem State.failBeat_fixed (s : State) (x1 : Nat) (x2 : QEntry) (x3 x4 : Nat) :
    (State.failBeat s x1 x2 x3 x4).fixed = s.fixed := by
  simp [State.failBeat]
@[simp] theorem State.draws_fixed (s : State) (x1 x2 : Nat) : (State.draws s x1 x2).2.fixed = s.fixed := by simp [State.draws]
@[simp] theorem State.saturated_fixed (s : State) (x1 x2 : Nat) :
    (State.saturated s x1 x2).fixed = s.fixed := by
  simp [State.saturated]
@[simp] theorem State.putElems_fixed (s : State) (x1 : Nat) (x2 : List ElemWrite) :
    (State.putElems s x1 x2).fixed = s.fixed := by
  simp [State.putElems]
@[simp] theorem State.writeCells_fixed (s : State) (x1 : Nat) (x2 : BitVec 128) (x3 : Tensor) (x4 : Nat → Nat → FVal) (x5 : Bool) (x6 x7 : Nat) :
    (State.writeCells s x1 x2 x3 x4 x5 x6 x7).fixed = s.fixed := by
  simp [State.writeCells]
@[simp] theorem State.writeGroup_fixed (s : State) (x1 : Nat) (x2 : QEntry) :
    (State.writeGroup s x1 x2).fixed = s.fixed := by
  unfold State.writeGroup; dsimp only; (repeat' split) <;> first | rfl | simp
@[simp] theorem State.recover_fixed (s : State) (x1 x2 : Nat) :
    (State.recover s x1 x2).fixed = s.fixed := by
  simp [State.recover]
@[simp] theorem State.vecDone_fixed (s : State) (x1 : Nat) (x2 : QEntry) :
    (State.vecDone s x1 x2).fixed = s.fixed := by
  simp [State.vecDone]
@[simp] theorem State.setGovAcc_fixed (s : State) (x1 x2 : Nat) (x3 : GovAcc) :
    (State.setGovAcc s x1 x2 x3).fixed = s.fixed := by
  simp [State.setGovAcc]
@[simp] theorem State.govReport_fixed (s : State) (x1 x2 : Nat) (x3 : List (List FVal)) :
    (State.govReport s x1 x2 x3).fixed = s.fixed := by
  simp [State.govReport]
@[simp] theorem State.vecReport_fixed (s : State) (x1 : Nat) (x2 : Tensor) (x3 : BitVec 256) (x4 : Nat → Nat → FVal) :
    (State.vecReport s x1 x2 x3 x4).fixed = s.fixed := by
  simp [State.vecReport]
@[simp] theorem State.vecReports_fixed (s : State) (x1 : Nat) (x2 : QEntry) :
    (State.vecReports s x1 x2).fixed = s.fixed := by
  unfold State.vecReports; dsimp only; (repeat' split) <;> first | rfl | simp
@[simp] theorem State.passBeat_fixed (s : State) (x1 : Nat) (x2 : QEntry) (x3 : BeatObs) :
    (State.passBeat s x1 x2 x3).fixed = s.fixed := by
  simp [State.passBeat]
@[simp] theorem State.beatVerdict_fixed (s : State) (x1 : Nat) (x2 : BeatObs) :
    (State.beatVerdict s x1 x2).fixed = s.fixed := by
  unfold State.beatVerdict; (repeat' split) <;> first | rfl | simp [-List.reduceReplicate]
@[simp] theorem State.setUrn_fixed (s : State) (x1 : Nat) (x2 : Urn) :
    (State.setUrn s x1 x2).fixed = s.fixed := by
  simp [State.setUrn]
@[simp] theorem State.urnSession_fixed (s : State) (x1 : Nat) (x2 : Tensor) :
    (State.urnSession s x1 x2).2.fixed = s.fixed := by
  simp [State.urnSession]
@[simp] theorem State.putFp32_fixed (s : State) (x1 : Nat) (x2 : Tensor) (x3 : Nat → Nat → FVal) :
    (State.putFp32 s x1 x2 x3).fixed = s.fixed := by
  simp [State.putFp32]
@[simp] theorem State.beginPasses_fixed (s : State) (x1 : Nat) (x2 : QEntry) :
    (State.beginPasses s x1 x2).2.fixed = s.fixed := by
  unfold State.beginPasses; dsimp only; repeat' (first | (simp; done) | split | rw [foldl_fixed _ (by intro s a; (repeat' split) <;> simp)])
@[simp] theorem State.beginRamp_fixed (s : State) : (State.beginRamp s).fixed = s.fixed := by simp [State.beginRamp]
@[simp] theorem State.cacheRead_fixed (s : State) (a : Nat) (c : InfChunk) (n : Nat) : (s.cacheRead a c n).2.fixed = s.fixed := by
  unfold State.cacheRead
  dsimp only
  split
  · split <;> simp
  · simp
@[simp] theorem State.cacheLook_fixed (s : State) (x1 : Nat) (x2 : InfChunk) (x3 : Nat) :
    (State.cacheLook s x1 x2 x3).2.fixed = s.fixed := by
  simp [State.cacheLook]
@[simp] theorem State.pushOn_fixed (s : State) (x1 : Nat) (x2 : InfChunk) (x3 : List Byte) :
    (State.pushOn s x1 x2 x3).fixed = s.fixed := by
  simp [State.pushOn]
@[simp] theorem State.hashPass_fixed (s : State) (x1 : Nat) (x2 : InfChunk) (x3 : List Byte) :
    (State.hashPass s x1 x2 x3).fixed = s.fixed := by
  unfold State.hashPass; (repeat' split) <;> simp_all
@[simp] theorem State.hashFail_fixed (s : State) (x1 : Nat) (x2 : InfChunk) :
    (State.hashFail s x1 x2).fixed = s.fixed := by
  simp [State.hashFail]
@[simp] theorem State.verifyAll_fixed (s : State) (p n : Nat) : (s.verifyAll p n).fixed = s.fixed := by
  induction n generalizing s with
  | zero => simp [State.verifyAll]
  | succ n ih => simp only [State.verifyAll]; (repeat' split) <;> simp [ih]
@[simp] theorem State.verify_fixed (s : State) (x1 : Nat) : (State.verify s x1).fixed = s.fixed := by simp [State.verify]
@[simp] theorem State.takePush_fixed (s : State) (x1 : Nat) (x2 : InfChunk) (x3 : Nat) :
    (State.takePush s x1 x2 x3).2.fixed = s.fixed := by
  unfold State.takePush; dsimp only; (repeat' split) <;> first | rfl | simp
@[simp] theorem State.begin__fixed (s : State) (x1 : Nat) (x2 : InfChunk) :
    (State.begin_ s x1 x2).fixed = s.fixed := by
  unfold State.begin_; dsimp only; repeat' (first | (simp; done) | split | rw [foldl_fixed _ (by intro s a; (repeat' split) <;> simp)])
@[simp] theorem State.boundaryCopy_fixed (s : State) (x1 : Nat) :
    (State.boundaryCopy s x1).fixed = s.fixed := by
  simp [State.boundaryCopy]
@[simp] theorem State.setPhase_fixed (s : State) (x1 : Nat) :
    (State.setPhase s x1).fixed = s.fixed := by
  simp [State.setPhase]
@[simp] theorem State.bringupDone_fixed (s : State) : (State.bringupDone s).fixed = s.fixed := by simp [State.bringupDone]
@[simp] theorem State.linkMalformed_fixed (s : State) (x1 : Nat) :
    (State.linkMalformed s x1).fixed = s.fixed := by
  simp [State.linkMalformed]
@[simp] theorem State.brokenMsg_fixed (s : State) (x1 : Nat) (x2 : List Byte) :
    (State.brokenMsg s x1 x2).fixed = s.fixed := by
  simp [State.brokenMsg]
@[simp] theorem State.caddyDown_fixed (s : State) :
    (State.caddyDown s).fixed = s.fixed := by
  unfold State.caddyDown; dsimp only; (repeat' split) <;> first | rfl | simp
@[simp] theorem State.chainOn_fixed (s : State) (x1 : Nat) (x2 : QEntry) (x3 : List FVal) (x4 x5 : Nat) :
    (State.chainOn s x1 x2 x3 x4 x5).fixed = s.fixed := by
  simp [State.chainOn]
@[simp] theorem State.chunkReply_fixed (s : State) (x1 : Nat) (x2 : InfChunk) (x3 : List Byte) :
    (State.chunkReply s x1 x2 x3).fixed = s.fixed := by
  simp [State.chunkReply]
@[simp] theorem State.ckpFlush_fixed (s : State) : (State.ckpFlush s).fixed = s.fixed := by simp [State.ckpFlush]
@[simp] theorem State.ckpData_fixed (s : State) (x1 : CkpWrite) :
    (State.ckpData s x1).fixed = s.fixed := by
  simp [State.ckpData]
@[simp] theorem State.ckpDone_fixed (s : State) (x1 : CkpWrite) :
    (State.ckpDone s x1).fixed = s.fixed := by
  simp [State.ckpDone]
@[simp] theorem State.ckpReference_fixed (s : State) (x1 : CkpWrite) :
    (State.ckpReference s x1).fixed = s.fixed := by
  simp [State.ckpReference]
@[simp] theorem State.ckpSigned_fixed (s : State) (x1 : Option (List Byte)) :
    (State.ckpSigned s x1).fixed = s.fixed := by
  unfold State.ckpSigned; dsimp only; (repeat' split) <;> first | rfl | simp
@[simp] theorem State.eventClear_fixed (s : State) (x1 : RBlk) (x2 : Nat) (x3 : Word) :
    (State.eventClear s x1 x2 x3).fixed = s.fixed := by
  unfold State.eventClear; apply foldl_fixed; intro s a; (repeat' split) <;> simp
@[simp] theorem State.clearEvents_fixed (s : State) (x1 : RBlk) (x2 x3 : Nat) (x4 : RegDef) (x5 x6 : Word) :
    (State.clearEvents s x1 x2 x3 x4 x5 x6).fixed = s.fixed := by
  unfold State.clearEvents; dsimp only; (repeat' split) <;> first | rfl | simp
@[simp] theorem State.clearExc_fixed (s : State) (x1 : RBlk) (x2 : Nat) :
    (State.clearExc s x1 x2).fixed = s.fixed := by
  simp [State.clearExc]
@[simp] theorem State.handOver_fixed (s : State) : (State.handOver s).2.fixed = s.fixed := by simp [State.handOver]
@[simp] theorem State.cutStep_fixed (s : State) (x1 : List (List Byte)) (x2 : List Byte) :
    (State.cutStep s x1 x2).fixed = s.fixed := by
  simp [State.cutStep]
@[simp] theorem State.ringAlert_fixed (s : State) : (State.ringAlert s).fixed = s.fixed := by simp [State.ringAlert]
@[simp] theorem State.closeStep_fixed (s : State) : (State.closeStep s).fixed = s.fixed := by simp [State.closeStep]
@[simp] theorem State.funcReady_fixed (s : State) (x1 x2 : Nat) (x3 : Status) :
    (State.funcReady s x1 x2 x3).fixed = s.fixed := by
  simp [State.funcReady]
@[simp] theorem State.clusterReady_fixed (s : State) (x1 : Nat) :
    (State.clusterReady s x1).fixed = s.fixed := by
  simp [State.clusterReady]
@[simp] theorem State.powerOff_fixed (s : State) (x1 x2 : Bool) :
    (State.powerOff s x1 x2).fixed = s.fixed := by
  simp [State.powerOff]
@[simp] theorem State.enterSafe_fixed (s : State) (x1 : Nat) :
    (State.enterSafe s x1).fixed = s.fixed := by
  simp [State.enterSafe]
@[simp] theorem State.raiseDie0_fixed (s : State) : (State.raiseDie0 s).fixed = s.fixed := by simp [State.raiseDie0]
@[simp] theorem State.coldStart_fixed (s : State) (x1 : BootObs) :
    (State.coldStart s x1).fixed = s.fixed := by
  unfold State.coldStart; dsimp only; repeat' (first | (simp; done) | split | rw [foldl_fixed _ (by intro s a; (repeat' split) <;> simp)])
@[simp] theorem State.refuseMsg_fixed (s : State) (x1 : HostMsg) :
    (State.refuseMsg s x1).fixed = s.fixed := by
  simp [State.refuseMsg]
@[simp] theorem State.hostArrive_fixed (s : State) (x1 : HostMsg) (x2 : State → State) (h3 : ∀ (y0 : State), (x2 y0).fixed = y0.fixed) :
    (State.hostArrive s x1 x2).fixed = s.fixed := by
  unfold State.hostArrive; (repeat' split) <;> simp_all
@[simp] theorem State.enqueueCmd_fixed (s : State) (x1 : HostMsg) :
    (State.enqueueCmd s x1).fixed = s.fixed := by
  simp [State.enqueueCmd]
@[simp] theorem State.command_fixed (s : State) (x1 : HostMsg) (x2 : Nat) :
    (State.command s x1 x2).fixed = s.fixed := by
  simp [State.command]
@[simp] theorem State.consumed_fixed (s : State) (x1 : Nat) :
    (State.consumed s x1).fixed = s.fixed := by
  simp [State.consumed]
@[simp] theorem State.withError_fixed (s : State) (x1 x2 : Nat) (x3 : Fmt) (x4 : List FVal) :
    (State.withError s x1 x2 x3 x4).2.2.fixed = s.fixed := by
  unfold State.withError; dsimp only; (repeat' split) <;> first | rfl | simp
@[simp] theorem State.noteOwned_fixed (s : State) (x1 : ChunkRole) (x2 : Nat × Nat) :
    (State.noteOwned s x1 x2).fixed = s.fixed := by
  unfold State.noteOwned; dsimp only; (repeat' split) <;> first | rfl | simp
@[simp] theorem State.redInput_fixed (s : State) (x1 : Nat) (x2 : Grp) (x3 : CKey) (x4 : Nat × Nat) (x5 : Status) (x6 : List Byte) :
    (State.redInput s x1 x2 x3 x4 x5 x6).fixed = s.fixed := by
  simp [State.redInput]
@[simp] theorem State.keepChunk_fixed (s : State) (x1 : Grp) (x2 : Shard) (x3 : Nat) (x4 : List FVal) (x5 : ChunkRole) (x6 x7 : Nat) (x8 : Option (Nat × Nat)) :
    (State.keepChunk s x1 x2 x3 x4 x5 x6 x7 x8).2.fixed = s.fixed := by
  unfold State.keepChunk; (repeat' split) <;> first | rfl | simp [-List.reduceReplicate]
@[simp] theorem State.contribute_fixed (s : State) (x1 : Shard) (x2 : Nat) (x3 : List FVal) :
    (State.contribute s x1 x2 x3).2.fixed = s.fixed := by
  unfold State.contribute; dsimp only; repeat' (first | (simp; done) | split | rw [foldl_fixed _ (by intro s a; (repeat' split) <;> simp)])
@[simp] theorem State.readRuns_fixed (s : State) (o : StoreObs) (rs : List (Nat × Nat)) : (s.readRuns o rs).2.2.fixed = s.fixed := by
  induction rs generalizing s o with
  | nil => simp [State.readRuns]
  | cons r rs ih => simp only [State.readRuns]; (repeat' split) <;> simp [ih]
@[simp] theorem State.urnWrite_fixed (s : State) (x1 x2 : Nat) (x3 : List Byte) :
    (State.urnWrite s x1 x2 x3).fixed = s.fixed := by
  simp [State.urnWrite]
@[simp] theorem State.dmaWrite_fixed (s : State) (x1 : Nat) (x2 : List Byte) (x3 : StoreObs) :
    (State.dmaWrite s x1 x2 x3).2.fixed = s.fixed := by
  unfold State.dmaWrite; dsimp only; (repeat' split) <;> first | rfl | simp
@[simp] theorem State.writeRuns_fixed (s : State) (o : StoreObs) (rs : List (Nat × List Byte)) : (s.writeRuns o rs).2.fixed = s.fixed := by
  induction rs generalizing s o with
  | nil => simp [State.writeRuns]
  | cons r rs ih => simp only [State.writeRuns]; (repeat' split) <;> simp [ih]
@[simp] theorem State.copyDone_fixed (s : State) (x1 : Nat) (x2 : QEntry) (x3 : ItemObs) :
    (State.copyDone s x1 x2 x3).fixed = s.fixed := by
  unfold State.copyDone; dsimp only; (repeat' split) <;> first | (simp; done) | rfl
@[simp] theorem State.transferOk_fixed (s : State) (x1 : Nat) (x2 : QEntry) :
    (State.transferOk s x1 x2).fixed = s.fixed := by
  simp [State.transferOk]
@[simp] theorem State.copyStep_fixed (s : State) (x1 : Nat) (x2 : QEntry) (x3 : ItemObs) :
    (State.copyStep s x1 x2 x3).fixed = s.fixed := by
  simp [State.copyStep]
@[simp] theorem State.copyRun_fixed (s : State) (i seq : Nat) (o : ItemObs) (n : Nat) : (s.copyRun i seq o n).fixed = s.fixed := by
  induction n generalizing s with
  | zero => rfl
  | succ n ih => simp only [State.copyRun]; (repeat' split) <;> simp [ih]
@[simp] theorem State.wgbReads_fixed (s : State) (x1 x2 x3 : Nat) (x4 : Bool) :
    (State.wgbReads s x1 x2 x3 x4).fixed = s.fixed := by
  simp [State.wgbReads]
@[simp] theorem State.copyStores_fixed (s : State) (x1 x2 : Nat) (x3 : List Nat) (x4 : Nat) :
    (State.copyStores s x1 x2 x3 x4).fixed = s.fixed := by
  simp [State.copyStores]
@[simp] theorem State.coreBeats_fixed (s : State) (x1 x2 : Nat) :
    (State.coreBeats s x1 x2).fixed = s.fixed := by
  simp [State.coreBeats]
@[simp] theorem State.fenceFailed_fixed (s : State) (x1 : Nat) :
    (State.fenceFailed s x1).fixed = s.fixed := by
  simp [State.fenceFailed]
@[simp] theorem State.coreFailed_fixed (s : State) (x1 : Nat) :
    (State.coreFailed s x1).fixed = s.fixed := by
  simp [State.coreFailed]
@[simp] theorem State.corePassed_fixed (s : State) (x1 : Nat) :
    (State.corePassed s x1).fixed = s.fixed := by
  simp [State.corePassed]
@[simp] theorem State.coreRailOff_fixed (s : State) (x1 : Nat) :
    (State.coreRailOff s x1).fixed = s.fixed := by
  simp [State.coreRailOff]
@[simp] theorem State.coreTested_fixed (s : State) (x1 : List Nat) (x2 : Nat) :
    (State.coreTested s x1 x2).fixed = s.fixed := by
  simp [State.coreTested]
@[simp] theorem State.countSeg_fixed (s : State) (x1 : Nat) (x2 : Pass) :
    (State.countSeg s x1 x2).fixed = s.fixed := by
  unfold State.countSeg; (repeat' split) <;> simp_all
@[simp] theorem State.countVotes_fixed (s : State) (x1 x2 : Nat) (x3 : Vote) :
    (State.countVotes s x1 x2 x3).fixed = s.fixed := by
  unfold State.countVotes; (repeat' split) <;> simp_all
@[simp] theorem State.cplIn_fixed (s : State) (x1 : Nat) (x2 : Msg) :
    (State.cplIn s x1 x2).fixed = s.fixed := by
  unfold State.cplIn; (repeat' split) <;> first | rfl | simp [-List.reduceReplicate]
@[simp] theorem State.critUpset_fixed (s : State) (x1 : Nat) (x2 : CritUpset) :
    (State.critUpset s x1 x2).fixed = s.fixed := by
  simp [State.critUpset]
@[simp] theorem State.fenceLink_fixed (s : State) (x1 x2 : Nat) :
    (State.fenceLink s x1 x2).fixed = s.fixed := by
  unfold State.fenceLink; dsimp only; (repeat' split) <;> first | rfl | simp
@[simp] theorem State.ctlFlitFails_fixed (s : State) (x1 x2 : Nat) :
    (State.ctlFlitFails s x1 x2).fixed = s.fixed := by
  simp [State.ctlFlitFails]
@[simp] theorem State.ctxLate_fixed (s : State) (x1 : Nat) (x2 : Ctx) :
    (State.ctxLate s x1 x2).fixed = s.fixed := by
  unfold State.ctxLate; (repeat' split) <;> simp_all
@[simp] theorem State.land_fixed (s : State) (x1 : Nat) (x2 : InfReq) (x3 : List Byte) (x4 : Nat) :
    (State.land s x1 x2 x3 x4).fixed = s.fixed := by
  simp [State.land]
@[simp] theorem State.deliverNext_fixed (s : State) (x1 : Nat) (x2 : List (Nat × Nat)) :
    (State.deliverNext s x1 x2).fixed = s.fixed := by
  unfold State.deliverNext; (repeat' split) <;> first | rfl | simp [-List.reduceReplicate]
@[simp] theorem State.sipsNone_fixed (s : State) (x1 : Nat → SipGrp → Bool) :
    (State.sipsNone s x1).fixed = s.fixed := by
  unfold State.sipsNone; apply foldl_fixed; intro s a; (repeat' split) <;> simp
@[simp] theorem State.groupsNone_fixed (s : State) (x1 : Nat → Grp → Bool) :
    (State.groupsNone s x1).fixed = s.fixed := by
  unfold State.groupsNone; apply foldl_fixed; intro s a; (repeat' split) <;> simp
@[simp] theorem State.dropHeldEpochs_fixed (s : State) (x1 : List (List Nat)) :
    (State.dropHeldEpochs s x1).fixed = s.fixed := by
  simp [State.dropHeldEpochs]
@[simp] theorem State.dropPush_fixed (s : State) (x1 : Nat) :
    (State.dropPush s x1).fixed = s.fixed := by
  simp [State.dropPush]
@[simp] theorem State.dropSipWait_fixed (s : State) (x1 : SipWait) :
    (State.dropSipWait s x1).fixed = s.fixed := by
  simp [State.dropSipWait]
@[simp] theorem State.elapse_fixed (s : State) (x1 : Nat) : (State.elapse s x1).fixed = s.fixed := by simp [State.elapse]
@[simp] theorem State.fenceUrn_fixed (s : State) (x1 x2 : Nat) :
    (State.fenceUrn s x1 x2).fixed = s.fixed := by
  simp [State.fenceUrn]
@[simp] theorem State.mergeAddFails_fixed (s : State) (x1 x2 : Nat) (x3 : Bool) :
    (State.mergeAddFails s x1 x2 x3).fixed = s.fixed := by
  simp [State.mergeAddFails]
@[simp] theorem State.readLog_fixed (s : State) (b n j : Nat) : (s.readLog b n j).2.2.fixed = s.fixed := by
  induction n generalizing s j with
  | zero => simp [State.readLog]
  | succ n ih => simp only [State.readLog]; (repeat' split) <;> simp [ih]
@[simp] theorem State.mergeLog_fixed (s : State) (x1 x2 : Nat) (x3 : Tensor) (x4 : Nat) (x5 : List UrnEntry) (x6 : Bool) :
    (State.mergeLog s x1 x2 x3 x4 x5 x6).2.fixed = s.fixed := by
  simp [State.mergeLog]
@[simp] theorem State.urnMerge_fixed (s : State) (x1 : Nat) (x2 : BitVec 128) (x3 : List (BitVec 256)) (x4 : ItemObs) :
    (State.urnMerge s x1 x2 x3 x4).2.fixed = s.fixed := by
  unfold State.urnMerge; (repeat' split) <;> first | rfl | simp [-List.reduceReplicate]
@[simp] theorem State.retireUrn_fixed (s : State) (x1 : Nat) (x2 : Status) :
    (State.retireUrn s x1 x2).fixed = s.fixed := by
  simp [State.retireUrn]
@[simp] theorem State.offerReads_fixed (s : State) (x1 x2 : Nat) (x3 : QEntry) (x4 : StoreObs) :
    (State.offerReads s x1 x2 x3 x4).fixed = s.fixed := by
  simp [State.offerReads]
@[simp] theorem State.nextItem_fixed (s : State) (x1 : Nat) (x2 : QEntry) (x3 : List Byte) :
    (State.nextItem s x1 x2 x3).fixed = s.fixed := by
  simp [State.nextItem]
@[simp] theorem State.storeTile_fixed (s : State) (x1 : Nat) (x2 : BitVec 128) (x3 : Tensor) (x4 : Bool) (x5 x6 : Nat) (x7 : List FVal) :
    (State.storeTile s x1 x2 x3 x4 x5 x6 x7).fixed = s.fixed := by
  simp [State.storeTile]
@[simp] theorem State.releasePred_fixed (s : State) (x1 : Nat) (x2 : QEntry) (x3 : List FVal) :
    (State.releasePred s x1 x2 x3).fixed = s.fixed := by
  unfold State.releasePred; dsimp only; (repeat' split) <;> first | rfl | simp
@[simp] theorem State.releaseSmmp_fixed (s : State) (i : Nat) (e : QEntry) (p : Pass) (t : List FVal) : (s.releaseSmmp i e p t).fixed = s.fixed := by
  unfold State.releaseSmmp
  dsimp only
  split
  · split
    · split
      · simp
      · split <;> simp [-List.reduceReplicate]
    · split
      · simp
      · split <;> simp [-List.reduceReplicate]
  · simp
@[simp] theorem State.releasePass_fixed (s : State) (x1 : Nat) (x2 : QEntry) (x3 : Pass) (x4 : List FVal) :
    (State.releasePass s x1 x2 x3 x4).fixed = s.fixed := by
  unfold State.releasePass; dsimp only; (repeat' split) <;> first | (simp; done) | rfl
@[simp] theorem State.startReplay_fixed (s : State) (x1 : Nat) (x2 : QEntry) :
    (State.startReplay s x1 x2).fixed = s.fixed := by
  simp [State.startReplay]
@[simp] theorem State.releaseAhead_fixed (s : State) (x1 x2 : Nat) :
    (State.releaseAhead s x1 x2).fixed = s.fixed := by
  unfold State.releaseAhead; dsimp only; (repeat' split) <;> first | rfl | simp
@[simp] theorem State.offerDone_fixed (s : State) (x1 x2 : Nat) (x3 : QEntry) :
    (State.offerDone s x1 x2 x3).fixed = s.fixed := by
  simp [State.offerDone]
@[simp] theorem State.govChunk_fixed (s : State) (x1 x2 : Nat) (x3 : List FVal) :
    (State.govChunk s x1 x2 x3).fixed = s.fixed := by
  simp [State.govChunk]
@[simp] theorem State.samovarAccept_fixed (s : State) (x1 : Nat) (x2 : StoreObs) :
    (State.samovarAccept s x1 x2).fixed = s.fixed := by
  unfold State.samovarAccept; dsimp only; (repeat' split) <;> first | rfl | simp
@[simp] theorem State.ownTransfer_fixed (s : State) (x1 : Nat) :
    (State.ownTransfer s x1).2.fixed = s.fixed := by
  simp [State.ownTransfer]
@[simp] theorem State.spill_fixed (s : State) (x1 x2 : Nat) (x3 : UrnEntry) (x4 : Nat) :
    (State.spill s x1 x2 x3 x4).2.fixed = s.fixed := by
  simp [State.spill]
@[simp] theorem UrnRun.spill_fixed (r : UrnRun) (c n : Nat) (e : UrnEntry) : (r.spill c n e).s.fixed = r.s.fixed := by
  simp [UrnRun.spill]

@[simp] theorem UrnRun.spillDown_fixed (r : UrnRun) (c n : Nat) : (r.spillDown c n).s.fixed = r.s.fixed := by
  induction n generalizing r with
  | zero => rfl
  | succ n ih => simp only [UrnRun.spillDown]; (repeat' split) <;> simp [ih]

@[simp] theorem UrnRun.insert_fixed (r : UrnRun) (c row line : Nat) (vals : List FVal) (fr : Nat) :
    (r.insert c row line vals fr).s.fixed = r.s.fixed := by
  unfold UrnRun.insert; dsimp only
  cases (r.s.urn c).entries.filter _ |>.find? _ <;> dsimp only
  · have room : ∀ x : Option (Nat × UrnEntry), (match x with
      | some e => r.spill c e.1 e.2
      | none => r).s.fixed = r.s.fixed := by intro x; cases x <;> simp
    (repeat' split) <;> simp [room]
  · simp

@[simp] theorem UrnRun.rows_fixed (r : UrnRun) (c row line fr : Nat) (vs : List (List FVal)) :
    (r.rows c row line fr vs).s.fixed = r.s.fixed := by
  induction vs generalizing r row fr with
  | nil => rfl
  | cons v vs ih => simp only [UrnRun.rows]; (repeat' split) <;> simp [ih]

@[simp] theorem State.urnTile_fixed (s : State) (i row line : Nat) (vals : List FVal) (fails : List Nat) :
    (s.urnTile i row line vals fails).2.fixed = s.fixed := by
  unfold State.urnTile; dsimp only; (repeat' split) <;> simp
@[simp] theorem State.releaseUrn_fixed (s : State) (x1 : Nat) (x2 : QEntry) (x3 : Pass) (x4 : List FVal) (x5 : List Nat) :
    (State.releaseUrn s x1 x2 x3 x4 x5).fixed = s.fixed := by
  unfold State.releaseUrn; dsimp only; (repeat' split) <;> first | (simp; done) | rfl
@[simp] theorem State.urnAdd_fixed (s : State) (x1 : Nat) (x2 : QEntry) (x3 : Pass) (x4 : List FVal) (x5 : PassObs) :
    (State.urnAdd s x1 x2 x3 x4 x5).fixed = s.fixed := by
  simp [State.urnAdd]
@[simp] theorem State.judge_fixed (s : State) (x1 : Nat) (x2 : QEntry) (x3 : Pass) (x4 : PassObs) (x5 : Bool) :
    (State.judge s x1 x2 x3 x4 x5).2.fixed = s.fixed := by
  simp [State.judge]
@[simp] theorem State.failLoc_fixed (s : State) (x1 x2 : Nat) (x3 x4 x5 : Nat) :
    (State.failLoc s x1 x2 x3 x4 x5).fixed = s.fixed := by
  simp [State.failLoc]
@[simp] theorem State.markFail_fixed (s : State) (x1 x2 : Nat) (x3 x4 x5 : Nat) :
    (State.markFail s x1 x2 x3 x4 x5).fixed = s.fixed := by
  simp [State.markFail]
@[simp] theorem State.failAhead_fixed (s : State) (x1 : Nat) (x2 : QEntry) (x3 x4 x5 : Nat) :
    (State.failAhead s x1 x2 x3 x4 x5).fixed = s.fixed := by
  simp [State.failAhead]
@[simp] theorem State.judgeAhead_fixed (s : State) (x1 : Nat) (x2 : QEntry) (x3 : PassObs) :
    (State.judgeAhead s x1 x2 x3).fixed = s.fixed := by
  unfold State.judgeAhead; dsimp only; (repeat' split) <;> first | rfl | simp
@[simp] theorem State.failPass_fixed (s : State) (x1 : Nat) (x2 : QEntry) (x3 x4 x5 : Nat) :
    (State.failPass s x1 x2 x3 x4 x5).fixed = s.fixed := by
  simp [State.failPass]
@[simp] theorem State.passPass_fixed (s : State) (x1 : Nat) (x2 : QEntry) (x3 : Pass) (x4 : List FVal) (x5 : PassObs) :
    (State.passPass s x1 x2 x3 x4 x5).fixed = s.fixed := by
  simp [State.passPass]
@[simp] theorem State.judgePass_fixed (s : State) (x1 : Nat) (x2 : QEntry) (x3 : PassObs) :
    (State.judgePass s x1 x2 x3).fixed = s.fixed := by
  unfold State.judgePass; dsimp only; (repeat' split) <;> first | rfl | simp
@[simp] theorem State.passVerdict_fixed (s : State) (x1 : Nat) (x2 : PassObs) :
    (State.passVerdict s x1 x2).fixed = s.fixed := by
  unfold State.passVerdict; dsimp only; (repeat' split) <;> first | (simp; done) | rfl
@[simp] theorem State.engineItem_fixed (s : State) (x1 : Nat) (x2 : QEntry) (x3 : ItemObs) :
    (State.engineItem s x1 x2 x3).fixed = s.fixed := by
  unfold State.engineItem; dsimp only; (repeat' split) <;> first | rfl | simp
@[simp] theorem State.enqueue_fixed (s : State) (x1 : Op) (x2 : State → Nat → BitVec 128 → List (BitVec 256) → Status) (x3 : Nat) :
    (State.enqueue s x1 x2 x3).fixed = s.fixed := by
  simp [State.enqueue]
@[simp] theorem State.enterLog_fixed (s : State) (x1 : Exchange) :
    (State.enterLog s x1).2.fixed = s.fixed := by
  unfold State.enterLog; dsimp only; (repeat' split) <;> first | rfl | simp
@[simp] theorem State.epochKept_fixed (s : State) (x1 x2 : Nat) :
    (State.epochKept s x1 x2).2.fixed = s.fixed := by
  simp [State.epochKept]
@[simp] theorem State.exchangeEnd_fixed (s : State) (x1 : Nat) (x2 : Status) (x3 : List (BitVec 32)) :
    (State.exchangeEnd s x1 x2 x3).fixed = s.fixed := by
  unfold State.exchangeEnd; dsimp only; (repeat' split) <;> first | rfl | simp
@[simp] theorem State.excludeLanes_fixed (s : State) (x1 x2 x3 : Nat) :
    (State.excludeLanes s x1 x2 x3).fixed = s.fixed := by
  simp [State.excludeLanes]
@[simp] theorem State.fastRetrain_fixed (s : State) (x1 x2 : Nat) :
    (State.fastRetrain s x1 x2).fixed = s.fixed := by
  simp [State.fastRetrain]
@[simp] theorem State.fenceAnswered_fixed (s : State) (x1 : Nat) (x2 : Msg) :
    (State.fenceAnswered s x1 x2).fixed = s.fixed := by
  simp [State.fenceAnswered]
@[simp] theorem State.fenceDie_fixed (s : State) (x1 : Nat) :
    (State.fenceDie s x1).fixed = s.fixed := by
  unfold State.fenceDie; dsimp only; repeat' (first | (simp; done) | split | rw [foldl_fixed _ (by intro s a; (repeat' split) <;> simp)])
@[simp] theorem State.fenceJob_fixed (s : State) (x1 : Nat) :
    (State.fenceJob s x1).fixed = s.fixed := by
  simp [State.fenceJob]
@[simp] theorem State.fenceOpen_fixed (s : State) (x1 : Nat) :
    (State.fenceOpen s x1).fixed = s.fixed := by
  simp [State.fenceOpen]
@[simp] theorem State.sendFence_fixed (s : State) (x1 x2 : Nat) :
    (State.sendFence s x1 x2).fixed = s.fixed := by
  unfold State.sendFence; dsimp only; repeat' (first | (simp; done) | split | rw [foldl_fixed _ (by intro s a; (repeat' split) <;> simp)])
@[simp] theorem State.fenceParts_fixed (s : State) (x1 : Nat) (x2 : List Nat) :
    (State.fenceParts s x1 x2).fixed = s.fixed := by
  simp [State.fenceParts]
@[simp] theorem State.portFailed_fixed (s : State) (x1 : Nat) :
    (State.portFailed s x1).fixed = s.fixed := by
  simp [State.portFailed]
@[simp] theorem State.fencePort_fixed (s : State) (x1 : Nat) :
    (State.fencePort s x1).fixed = s.fixed := by
  simp [State.fencePort]
@[simp] theorem State.fencedItem_fixed (s : State) (x1 x2 : Nat) :
    (State.fencedItem s x1 x2).fixed = s.fixed := by
  simp [State.fencedItem]
@[simp] theorem State.flushErr_fixed (s : State) : (State.flushErr s).fixed = s.fixed := by simp [State.flushErr]
@[simp] theorem State.formAnswer_fixed (s : State) (x1 : Nat) (x2 : Msg) :
    (State.formAnswer s x1 x2).fixed = s.fixed := by
  simp [State.formAnswer]
@[simp] theorem State.formConfirm_fixed (s : State) (x1 : Nat) (x2 : Msg) :
    (State.formConfirm s x1 x2).fixed = s.fixed := by
  unfold State.formConfirm; dsimp only; (repeat' split) <;> first | rfl | simp
@[simp] theorem State.formatStore_fixed (s : State) : (State.formatStore s).fixed = s.fixed := by simp [State.formatStore]
@[simp] theorem State.forward_fixed (s : State) (x1 : Nat) (x2 : MeshFlit) :
    (State.forward s x1 x2).fixed = s.fixed := by
  unfold State.forward; dsimp only; repeat' (first | (simp; done) | split | rw [foldl_fixed _ (by intro s a; (repeat' split) <;> simp)])
@[simp] theorem State.freeSlice_fixed (s : State) (x1 : Shard) (x2 : Nat) :
    (State.freeSlice s x1 x2).fixed = s.fixed := by
  simp [State.freeSlice]
@[simp] theorem State.fullRetrain_fixed (s : State) (x1 : Nat) :
    (State.fullRetrain s x1).fixed = s.fixed := by
  simp [State.fullRetrain]
@[simp] theorem State.putSlot_fixed (s : State) (x1 : Nat) (x2 : FwSlot) :
    (State.putSlot s x1 x2).fixed = s.fixed := by
  simp [State.putSlot]
@[simp] theorem State.fwWrite_fixed (s : State) (x1 : Nat) (x2 : Bool) :
    (State.fwWrite s x1 x2).2.fixed = s.fixed := by
  simp [State.fwWrite]
@[simp] theorem State.gReply_fixed (s : State) (x1 : MgtMsg) (x2 : Status) (x3 : List Byte) :
    (State.gReply s x1 x2 x3).fixed = s.fixed := by
  simp [State.gReply]
@[simp] theorem State.gformIn_fixed (s : State) (x1 : Nat) (x2 : Msg) :
    (State.gformIn s x1 x2).fixed = s.fixed := by
  simp [State.gformIn]
@[simp] theorem State.helloGens_fixed (s : State) (x1 : Nat) (x2 : List Byte) :
    (State.helloGens s x1 x2).fixed = s.fixed := by
  simp [State.helloGens]
@[simp] theorem State.recordHello_fixed (s : State) (x1 : Nat) (x2 : List Byte) (x3 : Nat) (x4 : Bool) :
    (State.recordHello s x1 x2 x3 x4).fixed = s.fixed := by
  simp [State.recordHello]
@[simp] theorem State.negotiate_fixed (s : State) (x1 : Nat) (x2 : List Byte) :
    (State.negotiate s x1 x2).fixed = s.fixed := by
  simp [State.negotiate]
@[simp] theorem State.helloIn_fixed (s : State) (x1 : Nat) (x2 : Msg) :
    (State.helloIn s x1 x2).fixed = s.fixed := by
  simp [State.helloIn]
@[simp] theorem State.jfenceIn_fixed (s : State) (x1 : Nat) (x2 : Msg) :
    (State.jfenceIn s x1 x2).fixed = s.fixed := by
  simp [State.jfenceIn]
@[simp] theorem State.notServer_fixed (s : State) (x1 : Nat) (x2 : Msg) :
    (State.notServer s x1 x2).fixed = s.fixed := by
  simp [State.notServer]
@[simp] theorem State.manRefused_fixed (s : State) (x1 : ManFetch) (x2 : Nat) :
    (State.manRefused s x1 x2).fixed = s.fixed := by
  simp [State.manRefused]
@[simp] theorem State.manFailed_fixed (s : State) (x1 : ManFetch) :
    (State.manFailed s x1).fixed = s.fixed := by
  simp [State.manFailed]
@[simp] theorem State.storeManifest_fixed (s : State) (x1 : Manifest) (x2 : List Byte) :
    (State.storeManifest s x1 x2).fixed = s.fixed := by
  simp [State.storeManifest]
@[simp] theorem State.manReply_fixed (s : State) (x1 : ManFetch) (x2 : List Byte) :
    (State.manReply s x1 x2).fixed = s.fixed := by
  unfold State.manReply; dsimp only; repeat' (first | (simp; done) | split | rw [foldl_fixed _ (by intro s a; (repeat' split) <;> simp)])
@[simp] theorem State.wdataIn_fixed (s : State) (x1 : Nat) (x2 : Msg) :
    (State.wdataIn s x1 x2).fixed = s.fixed := by
  unfold State.wdataIn; dsimp only; (repeat' split) <;> first | rfl | simp
@[simp] theorem State.pushIn_fixed (s : State) (x1 : Nat) (x2 : List Byte) :
    (State.pushIn s x1 x2).fixed = s.fixed := by
  unfold State.pushIn; dsimp only; (repeat' split) <;> first | rfl | simp
@[simp] theorem State.wpushIn_fixed (s : State) (x1 : Nat) (x2 : Msg) :
    (State.wpushIn s x1 x2).fixed = s.fixed := by
  unfold State.wpushIn; (repeat' split) <;> first | rfl | simp [-List.reduceReplicate]
@[simp] theorem State.pubAcked_fixed (s : State) (x1 : Wpub) :
    (State.pubAcked s x1).fixed = s.fixed := by
  simp [State.pubAcked]
@[simp] theorem State.wackIn_fixed (s : State) (x1 : Nat) (x2 : Msg) :
    (State.wackIn s x1 x2).fixed = s.fixed := by
  unfold State.wackIn; dsimp only; (repeat' split) <;> first | rfl | simp
@[simp] theorem State.redStale_fixed (s : State) (x1 : Nat) :
    (State.redStale s x1).fixed = s.fixed := by
  simp [State.redStale]
@[simp] theorem State.rchunkIn_fixed (s : State) (x1 : Nat) (x2 : Msg) :
    (State.rchunkIn s x1 x2).fixed = s.fixed := by
  unfold State.rchunkIn; dsimp only; repeat' (first | (simp; done) | split | rw [foldl_fixed _ (by intro s a; (repeat' split) <;> simp)])
@[simp] theorem State.rresendIn_fixed (s : State) (x1 : Nat) (x2 : Msg) :
    (State.rresendIn s x1 x2).fixed = s.fixed := by
  unfold State.rresendIn; dsimp only; repeat' (first | (simp; done) | split | rw [foldl_fixed _ (by intro s a; (repeat' split) <;> simp)])
@[simp] theorem State.rdoneIn_fixed (s : State) (x1 : Nat) (x2 : Msg) :
    (State.rdoneIn s x1 x2).fixed = s.fixed := by
  unfold State.rdoneIn; dsimp only; (repeat' split) <;> first | rfl | simp
@[simp] theorem State.handleMsg_fixed (s : State) (x1 : Nat) (x2 : Msg) :
    (State.handleMsg s x1 x2).fixed = s.fixed := by
  simp [State.handleMsg]
@[simp] theorem State.headerSigned_fixed (s : State) (x1 : Bool) :
    (State.headerSigned s x1).fixed = s.fixed := by
  unfold State.headerSigned; dsimp only; (repeat' split) <;> first | rfl | simp
@[simp] theorem State.holderLost_fixed (s : State) : (State.holderLost s).fixed = s.fixed := by simp [State.holderLost]
@[simp] theorem State.hostRead_fixed (s : State) (x1 x2 : Nat) (x3 : StoreObs) :
    (State.hostRead s x1 x2 x3).2.2.fixed = s.fixed := by
  simp [State.hostRead]
@[simp] theorem State.wrRelease_fixed (s : State) (x1 : Word) :
    (State.wrRelease s x1).2.fixed = s.fixed := by
  simp [State.wrRelease]
@[simp] theorem State.wrSeed_fixed (s : State) (x1 : Nat) (x2 : Word) :
    (State.wrSeed s x1 x2).2.fixed = s.fixed := by
  simp [State.wrSeed]
@[simp] theorem State.wrCounter_fixed (s : State) (x1 : Nat) (x2 : Word) :
    (State.wrCounter s x1 x2).2.fixed = s.fixed := by
  simp [State.wrCounter]
@[simp] theorem State.wrStage_fixed (s : State) (x1 : Word) :
    (State.wrStage s x1).2.fixed = s.fixed := by
  simp [State.wrStage]
@[simp] theorem State.memberReplaced_fixed (s : State) (x1 x2 : Nat) :
    (State.memberReplaced s x1 x2).fixed = s.fixed := by
  simp [State.memberReplaced]
@[simp] theorem State.wrGrpCmd_fixed (s : State) (x1 : Word) :
    (State.wrGrpCmd s x1).2.fixed = s.fixed := by
  unfold State.wrGrpCmd; dsimp only; (repeat' split) <;> first | rfl | simp
@[simp] theorem State.retrain_fixed (s : State) (x1 : Nat) : (State.retrain s x1).fixed = s.fixed := by simp [State.retrain]
@[simp] theorem State.wrPortCmd_fixed (s : State) (x1 : Nat) (x2 : Word) :
    (State.wrPortCmd s x1 x2).2.fixed = s.fixed := by
  unfold State.wrPortCmd; dsimp only; repeat' (first | (simp; done) | split | rw [foldl_fixed _ (by intro s a; (repeat' split) <;> simp)])
@[simp] theorem State.wrLnkTest_fixed (s : State) (x1 : Nat) (x2 : Word) :
    (State.wrLnkTest s x1 x2).2.fixed = s.fixed := by
  simp [State.wrLnkTest]
@[simp] theorem State.wrFlip_fixed (s : State) (x1 : Nat) (x2 : Word) :
    (State.wrFlip s x1 x2).2.fixed = s.fixed := by
  simp [State.wrFlip]
@[simp] theorem State.wrHandover_fixed (s : State) (x1 : Word) :
    (State.wrHandover s x1).2.fixed = s.fixed := by
  simp [State.wrHandover]
@[simp] theorem State.putCtrl_fixed (s : State) (x1 : RBlk) (x2 : Nat) (x3 : Word) :
    (State.putCtrl s x1 x2 x3).fixed = s.fixed := by
  simp [State.putCtrl]
@[simp] theorem State.wrCtrl_fixed (s : State) (x1 : RBlk) (x2 : RegDef) (x3 x4 : Word) :
    (State.wrCtrl s x1 x2 x3 x4).2.fixed = s.fixed := by
  simp [State.wrCtrl]
@[simp] theorem State.showTrace_fixed (s : State) : (State.showTrace s).fixed = s.fixed := by simp [State.showTrace]
@[simp] theorem State.issueWith_fixed (s : State) (x1 : Op) (x2 : Nat) (x3 : IssueObs) (x4 : State → State) (h5 : ∀ (y0 : State), (x4 y0).fixed = y0.fixed) :
    (State.issueWith s x1 x2 x3 x4).fixed = s.fixed := by
  unfold State.issueWith; (repeat' split) <;> simp_all
@[simp] theorem State.issueCopy_fixed (s : State) (x1 : Op) (x2 : State → Nat → BitVec 128 → List (BitVec 256) → Status) (x3 : Nat) (x4 : IssueObs) :
    (State.issueCopy s x1 x2 x3 x4).fixed = s.fixed := by
  simp [State.issueCopy]
@[simp] theorem State.issueQ_fixed (s : State) (x1 : Op) (x2 : State → Nat → BitVec 128 → List (BitVec 256) → Status) (x3 : Nat) (x4 : IssueObs) :
    (State.issueQ s x1 x2 x3 x4).fixed = s.fixed := by
  simp [State.issueQ]
@[simp] theorem State.issueMask_fixed (s : State) (x1 : Op) (x2 : State → Nat → BitVec 128 → List (BitVec 256) → Status) (x3 : Nat) (x4 : IssueObs) :
    (State.issueMask s x1 x2 x3 x4).fixed = s.fixed := by
  unfold State.issueMask; dsimp only; (repeat' split) <;> first | rfl | simp
@[simp] theorem State.judgeLanes_fixed (s : State) (x1 : Nat) :
    (State.judgeLanes s x1).fixed = s.fixed := by
  simp [State.judgeLanes]
@[simp] theorem State.setLocked_fixed (s : State) (x1 : Bool) :
    (State.setLocked s x1).fixed = s.fixed := by
  simp [State.setLocked]
@[simp] theorem State.unlock_fixed (s : State) : (State.unlock s).fixed = s.fixed := by simp [State.unlock]
@[simp] theorem State.judgeLock_fixed (s : State) (x1 : ℤ) :
    (State.judgeLock s x1).fixed = s.fixed := by
  simp [State.judgeLock]
@[simp] theorem State.judgeMode_fixed (s : State) (x1 : Bool) :
    (State.judgeMode s x1).fixed = s.fixed := by
  simp [State.judgeMode]
@[simp] theorem State.lapDone_fixed (s : State) (x1 : Nat) : (State.lapDone s x1).fixed = s.fixed := by simp [State.lapDone]
@[simp] theorem State.votedWords_fixed (s : State) (w : Nat) (vs : List Word) : (s.votedWords w vs).2.2.fixed = s.fixed := by
  induction vs generalizing s w with
  | nil => simp [State.votedWords]
  | cons v vs ih => simp [State.votedWords, ih]
@[simp] theorem State.lastSlot_fixed (s : State) : (State.lastSlot s).2.fixed = s.fixed := by simp [State.lastSlot]
@[simp] theorem State.leaveSip_fixed (s : State) (x1 x2 : Nat) :
    (State.leaveSip s x1 x2).fixed = s.fixed := by
  simp [State.leaveSip]
@[simp] theorem State.storeRecord_fixed (s : State) (x1 : RingSlot) :
    (State.storeRecord s x1).fixed = s.fixed := by
  simp [State.storeRecord]
@[simp] theorem State.storeRecords_fixed (s : State) : (State.storeRecords s).fixed = s.fixed := by simp [State.storeRecords]
@[simp] theorem State.storeReady_fixed (s : State) : (State.storeReady s).fixed = s.fixed := by simp [State.storeReady]
@[simp] theorem State.linkHead_fixed (s : State) (x1 : Nat) (x2 : List Byte) :
    (State.linkHead s x1 x2).fixed = s.fixed := by
  unfold State.linkHead; dsimp only; (repeat' split) <;> first | rfl | simp
@[simp] theorem State.loadRead_fixed (s : State) (x1 x2 x3 : Nat) (x4 : IssueObs) :
    (State.loadRead s x1 x2 x3 x4).2.fixed = s.fixed := by
  simp [State.loadRead]
@[simp] theorem State.message_fixed (s : State) (x1 : Nat) (x2 : Msg) (x3 : List Nat) (x4 : State → State) (h5 : ∀ (y0 : State), (x4 y0).fixed = y0.fixed) :
    (State.message s x1 x2 x3 x4).fixed = s.fixed := by
  unfold State.message; (repeat' split) <;> simp_all
@[simp] theorem State.mgtArrive_fixed (s : State) (m : MgtMsg) (f : State → State) (h : ∀ s, (f s).fixed = s.fixed) :
    (s.mgtArrive m f).fixed = s.fixed := by
  unfold State.mgtArrive; dsimp only; (repeat' split) <;> simp [h]
@[simp] theorem State.mgtRow_fixed (s : State) (x1 : MgtMsg) (x2 : Nat) (x3 : State → State) (h4 : ∀ (y0 : State), (x3 y0).fixed = y0.fixed) :
    (State.mgtRow s x1 x2 x3).fixed = s.fixed := by
  unfold State.mgtRow; (repeat' split) <;> simp_all
@[simp] theorem State.moveReceiver_fixed (s : State) (x1 x2 : Nat) :
    (State.moveReceiver s x1 x2).fixed = s.fixed := by
  simp [State.moveReceiver]
@[simp] theorem State.renameWork_fixed (s : State) (x1 x2 : Nat) (x3 : Nat → Nat) :
    (State.renameWork s x1 x2 x3).fixed = s.fixed := by
  simp [State.renameWork]
@[simp] theorem State.resumeOn_fixed (s : State) (x1 x2 : Nat) :
    (State.resumeOn s x1 x2).fixed = s.fixed := by
  simp [State.resumeOn]
@[simp] theorem State.signalAt_fixed (s : State) (x1 : Sig) (x2 : Nat) :
    (State.signalAt s x1 x2).fixed = s.fixed := by
  simp [State.signalAt]
@[simp] theorem State.releaseHeld_fixed (s : State) (x1 x2 : Nat) :
    (State.releaseHeld s x1 x2).fixed = s.fixed := by
  simp [State.releaseHeld]
@[simp] theorem State.tookOver_fixed (s : State) (x1 x2 : Nat) :
    (State.tookOver s x1 x2).fixed = s.fixed := by
  simp [State.tookOver]
@[simp] theorem State.migrationLost_fixed (s : State) :
    (State.migrationLost s).fixed = s.fixed := by
  simp [State.migrationLost]
@[simp] theorem State.migrated_fixed (s : State) (x1 : Nat) (x2 : Bool) :
    (State.migrated s x1 x2).fixed = s.fixed := by
  unfold State.migrated; (repeat' split) <;> simp_all
@[simp] theorem State.modSlot_fixed (s : State) (x1 : Nat) (x2 : RingSlot → RingSlot) :
    (State.modSlot s x1 x2).fixed = s.fixed := by
  simp [State.modSlot]
@[simp] theorem State.moveCap_fixed (s : State) (x1 : Nat) : (State.moveCap s x1).fixed = s.fixed := by simp [State.moveCap]
@[simp] theorem State.moveRamp_fixed (s : State) : (State.moveRamp s).fixed = s.fixed := by simp [State.moveRamp]
@[simp] theorem State.nextSign_fixed (s : State) :
    (State.nextSign s).fixed = s.fixed := by
  unfold State.nextSign; (repeat' split) <;> first | rfl | simp [-List.reduceReplicate]
@[simp] theorem State.notice_fixed (s : State) (x1 : Nat) : (State.notice s x1).fixed = s.fixed := by simp [State.notice]
@[simp] theorem State.nvNext_fixed (s : State) (x1 : List NvCmd) (x2 : State → State) (h3 : ∀ (y0 : State), (x2 y0).fixed = y0.fixed) :
    (State.nvNext s x1 x2).fixed = s.fixed := by
  unfold State.nvNext; (repeat' split) <;> simp_all
@[simp] theorem State.restoreApply_fixed (s : State) (x1 : Restore) :
    (State.restoreApply s x1).fixed = s.fixed := by
  simp [State.restoreApply]
@[simp] theorem State.restoreHash_fixed (s : State) (x1 : Restore) :
    (State.restoreHash s x1).fixed = s.fixed := by
  simp [State.restoreHash]
@[simp] theorem State.restoreGo_fixed (s : State) (x1 : Restore) :
    (State.restoreGo s x1).fixed = s.fixed := by
  simp [State.restoreGo]
@[simp] theorem State.restorePick_fixed (s : State) (x1 : Restore) :
    (State.restorePick s x1).2.fixed = s.fixed := by
  unfold State.restorePick; dsimp only; (repeat' split) <;> first | rfl | simp
@[simp] theorem State.restoreMore_fixed (s : State) (x1 : Nat) :
    (State.restoreMore s x1).fixed = s.fixed := by
  unfold State.restoreMore; dsimp only; (repeat' split) <;> first | rfl | simp
@[simp] theorem State.restoreHead_fixed (s : State) (x1 : Restore) (x2 : List Byte) :
    (State.restoreHead s x1 x2).fixed = s.fixed := by
  simp [State.restoreHead]
@[simp] theorem State.restoreData_fixed (s : State) (x1 : Restore) (x2 : List Byte) :
    (State.restoreData s x1 x2).fixed = s.fixed := by
  simp [State.restoreData]
@[simp] theorem State.nvOk_fixed (s : State) (x1 : NvCmd) (x2 : List Byte) :
    (State.nvOk s x1 x2).fixed = s.fixed := by
  unfold State.nvOk; dsimp only; (repeat' split) <;> first | rfl | simp
@[simp] theorem State.nvFailed_fixed (s : State) (x1 : NvCmd) :
    (State.nvFailed s x1).fixed = s.fixed := by
  unfold State.nvFailed; (repeat' split) <;> first | rfl | simp [-List.reduceReplicate]
@[simp] theorem State.nvDone_fixed (s : State) (x1 : Bool) (x2 : List Byte) :
    (State.nvDone s x1 x2).fixed = s.fixed := by
  unfold State.nvDone; dsimp only; (repeat' split) <;> first | rfl | simp
@[simp] theorem State.nvLate_fixed (s : State) :
    (State.nvLate s).fixed = s.fixed := by
  unfold State.nvLate; (repeat' split) <;> first | rfl | simp [-List.reduceReplicate]
@[simp] theorem State.resend_fixed (s : State) (x1 : Nat) : (State.resend s x1).fixed = s.fixed := by simp [State.resend]
@[simp] theorem State.replay_fixed (s : State) (x1 : Nat) : (State.replay s x1).fixed = s.fixed := by simp [State.replay]
@[simp] theorem State.pairHeader_fixed (s : State) (x1 : Nat) (x2 : BitVec 40) :
    (State.pairHeader s x1 x2).2.fixed = s.fixed := by
  unfold State.pairHeader; dsimp only; repeat' (first | (simp; done) | split | rw [foldl_fixed _ (by intro s a; (repeat' split) <;> simp)])
@[simp] theorem State.sendAck_fixed (s : State) (x1 : Nat) (x2 : List Nat) :
    (State.sendAck s x1 x2).fixed = s.fixed := by
  simp [State.sendAck]
@[simp] theorem State.takeFlit_fixed (s : State) (x1 : Nat) (x2 : FlitBytes) :
    (State.takeFlit s x1 x2).fixed = s.fixed := by
  unfold State.takeFlit; dsimp only; (repeat' split) <;> first | (simp; done) | rfl
theorem takePairFlit_fixed (p : Nat) (acc : Nat × List Nat × State) (f : FlitBytes) : (takePairFlit p acc f).2.2.fixed = acc.2.2.fixed := by
  unfold takePairFlit; dsimp only; (repeat' split) <;> simp
@[simp] theorem State.pairIn_fixed (s : State) (p : Nat) (o : PairObs) : (s.pairIn p o).fixed = s.fixed := by
  have h : ∀ (l : List FlitBytes) (b : Nat × List Nat × State), (l.foldl (takePairFlit p) b).2.2.fixed = b.2.2.fixed :=
    foldl_fixed_by (fun b => b.2.2) (takePairFlit p) (takePairFlit_fixed p)
  unfold State.pairIn; dsimp only; (repeat' split) <;> simp [h]
@[simp] theorem State.portRow_fixed (s : State) (x1 : Nat) (x2 : Word) (x3 : Nat → Bool) :
    (State.portRow s x1 x2 x3).fixed = s.fixed := by
  simp [State.portRow]
@[simp] theorem State.powerCluster_fixed (s : State) (x1 : Nat) :
    (State.powerCluster s x1).fixed = s.fixed := by
  simp [State.powerCluster]
@[simp] theorem State.prbsErrors_fixed (x0 : Nat) (s : State) (x2 : Nat × Nat) :
    (State.prbsErrors x0 s x2).fixed = s.fixed := by
  simp [State.prbsErrors]
@[simp] theorem State.railsUp_fixed (s : State) (x1 : Nat) : (State.railsUp s x1).fixed = s.fixed := by simp [State.railsUp]
@[simp] theorem State.recordSigned_fixed (s : State) (x1 : RingSlot) :
    (State.recordSigned s x1).fixed = s.fixed := by
  simp [State.recordSigned]
@[simp] theorem State.recordUnsigned_fixed (s : State) (x1 : RingSlot) :
    (State.recordUnsigned s x1).fixed = s.fixed := by
  simp [State.recordUnsigned]
@[simp] theorem State.reportBatches_fixed (s : State) (x1 : Nat) :
    (State.reportBatches s x1).fixed = s.fixed := by
  simp [State.reportBatches]
@[simp] theorem State.routerSafe_fixed (s : State) : (State.routerSafe s).fixed = s.fixed := by simp [State.routerSafe]
@[simp] theorem State.vectorItem_fixed (s : State) (x1 : Nat) (x2 : QEntry) (x3 : ItemObs) :
    (State.vectorItem s x1 x2 x3).fixed = s.fixed := by
  simp [State.vectorItem]
@[simp] theorem State.runItems_fixed (s : State) (i q k : Nat) (o : ItemObs) (n : Nat) : (s.runItems i q k o n).fixed = s.fixed := by
  induction n generalizing s o with
  | zero => simp [State.runItems]
  | succ n ih => simp only [State.runItems]; (repeat' split) <;> first | rfl | simp [ih]
@[simp] theorem State.rxwaitDone_fixed (s : State) (x1 : Nat) (x2 : QEntry) (x3 : ItemObs) :
    (State.rxwaitDone s x1 x2 x3).fixed = s.fixed := by
  unfold State.rxwaitDone; dsimp only; (repeat' split) <;> first | rfl | simp
@[simp] theorem State.sampleSlot_fixed (s : State) (x1 : Nat) :
    (State.sampleSlot s x1).fixed = s.fixed := by
  simp [State.sampleSlot]
@[simp] theorem State.scrubCritical_fixed (s : State) (x1 x2 : Nat) :
    (State.scrubCritical s x1 x2).fixed = s.fixed := by
  simp [State.scrubCritical]
@[simp] theorem State.selfTested_fixed (s : State) (x1 : Nat) (x2 : Cmd) (x3 x4 : List Nat) :
    (State.selfTested s x1 x2 x3 x4).fixed = s.fixed := by
  simp [State.selfTested]
@[simp] theorem State.sendEvt_fixed (s : State) (x1 : Evt) : (State.sendEvt s x1).fixed = s.fixed := by simp [State.sendEvt]
@[simp] theorem State.sensorPoll_fixed (s : State) (x1 : Nat) (x2 : Option Word) :
    (State.sensorPoll s x1 x2).fixed = s.fixed := by
  unfold State.sensorPoll; dsimp only; (repeat' split) <;> first | rfl | simp
@[simp] theorem State.seqFail_fixed (s : State) (x1 : Nat) (x2 : Status) (x3 : Bool) :
    (State.seqFail s x1 x2 x3).fixed = s.fixed := by
  simp [State.seqFail]
@[simp] theorem State.setLanes_fixed (s : State) (x1 x2 x3 : Nat) :
    (State.setLanes s x1 x2 x3).fixed = s.fixed := by
  simp [State.setLanes]
@[simp] theorem State.signed_fixed (s : State) (x1 : Bool) :
    (State.signed s x1).fixed = s.fixed := by
  unfold State.signed; (repeat' split) <;> simp_all
@[simp] theorem State.sipFlitIn_fixed (s : State) (x1 : Nat) (x2 : SipFlit) (x3 : Nat) :
    (State.sipFlitIn s x1 x2 x3).fixed = s.fixed := by
  unfold State.sipFlitIn; (repeat' split) <;> first | rfl | simp [-List.reduceReplicate]
@[simp] theorem State.sipNakIn_fixed (s : State) (x1 x2 : Nat) :
    (State.sipNakIn s x1 x2).fixed = s.fixed := by
  unfold State.sipNakIn; dsimp only; (repeat' split) <;> first | rfl | simp
@[simp] theorem State.sipSlotIn_fixed (s : State) (x1 x2 : Nat) (x3 : FlitBytes) (x4 : Nat) :
    (State.sipSlotIn s x1 x2 x3 x4).fixed = s.fixed := by
  simp [State.sipSlotIn]
@[simp] theorem State.slew_fixed (s : State) : (State.slew s).fixed = s.fixed := by simp [State.slew]
@[simp] theorem State.softRepair_fixed (s : State) (x1 : Nat) :
    (State.softRepair s x1).fixed = s.fixed := by
  simp [State.softRepair]
@[simp] theorem State.stackLost_fixed (s : State) (x1 : Nat) :
    (State.stackLost s x1).fixed = s.fixed := by
  simp [State.stackLost]
@[simp] theorem State.stackUp_fixed (s : State) (x1 : Nat) (x2 : Option Nat) (x3 : Bool) :
    (State.stackUp s x1 x2 x3).fixed = s.fixed := by
  simp [State.stackUp]
@[simp] theorem State.startStep_fixed (s : State) : (State.startStep s).fixed = s.fixed := by simp [State.startStep]
@[simp] theorem State.stepTime_fixed (s : State) (x1 : ℤ) : (State.stepTime s x1).fixed = s.fixed := by simp [State.stepTime]
@[simp] theorem State.wdone_fixed (s : State) (x1 : Nat) (x2 : Stream) (x3 : Nat) :
    (State.wdone s x1 x2 x3).2.fixed = s.fixed := by
  unfold State.wdone; dsimp only; repeat' (first | (simp; done) | split | rw [foldl_fixed _ (by intro s a; (repeat' split) <;> simp)])
@[simp] theorem State.streamItem_fixed (s : State) (x1 : Nat) (x2 : QEntry) (x3 : ItemObs) :
    (State.streamItem s x1 x2 x3).fixed = s.fixed := by
  unfold State.streamItem; dsimp only; (repeat' split) <;> first | rfl | simp
@[simp] theorem State.takeoverOnly_fixed (s : State) (x1 x2 : Nat) (x3 : Bool) :
    (State.takeoverOnly s x1 x2 x3).fixed = s.fixed := by
  simp [State.takeoverOnly]
@[simp] theorem State.tick_fixed (s : State) : (State.tick s).fixed = s.fixed := by simp [State.tick]
@[simp] theorem State.transferLost_fixed (s : State) (x1 : Nat) :
    (State.transferLost s x1).fixed = s.fixed := by
  simp [State.transferLost]
@[simp] theorem State.tripRegion_fixed (s : State) (x1 : Nat) :
    (State.tripRegion s x1).fixed = s.fixed := by
  simp [State.tripRegion]
@[simp] theorem State.tripDies_fixed (s : State) (x1 : List Nat) :
    (State.tripDies s x1).fixed = s.fixed := by
  simp [State.tripDies]
@[simp] theorem State.upset_fixed (s : State) (x1 : Nat) (x2 : Upset) :
    (State.upset s x1 x2).fixed = s.fixed := by
  simp [State.upset]
@[simp] theorem State.urnIssue_fixed (s t : State) (i : Nat) : (s.urnIssue t i).fixed = t.fixed := by
  unfold State.urnIssue; dsimp only; (repeat' split) <;> simp
@[simp] theorem State.waitOver_fixed (s : State) (x1 : Nat) :
    (State.waitOver s x1).fixed = s.fixed := by
  simp [State.waitOver]
@[simp] theorem State.waveDone_fixed (s : State) (x1 : List Nat) :
    (State.waveDone s x1).fixed = s.fixed := by
  unfold State.waveDone; dsimp only; (repeat' split) <;> first | rfl | simp
@[simp] theorem State.wget_fixed (s : State) (x1 : Nat) :
    (State.wget s x1).fixed = s.fixed := by
  unfold State.wget; dsimp only; (repeat' split) <;> first | rfl | simp

end Sys2Proof.Machine
end

