-- ==== Sys2Proof/Laws/FixedCommands.lean ====
section
/-! SUPPORT. The queue of commands and the fuses: one lemma for each command that leaves them as they are. -/

namespace Sys2Proof.Machine

theorem execPwrEnAssert_fixed (x0 : BootObs) (s : State) (t : State) (h : execPwrEnAssert x0 s = .next t) :
    t.fixed = s.fixed := by
  simp only [execPwrEnAssert, Host.Outcome.next.injEq] at h; subst h; simp
theorem execPwrEnDeassert_fixed (s : State) (t : State) (h : execPwrEnDeassert s = .next t) :
    t.fixed = s.fixed := by
  simp only [execPwrEnDeassert, Host.Outcome.next.injEq] at h; subst h; simp
theorem execInputOutOfRange_fixed (s : State) (t : State) (h : execInputOutOfRange s = .next t) :
    t.fixed = s.fixed := by
  simp only [execInputOutOfRange, Host.Outcome.next.injEq] at h; subst h; simp
theorem execRingStart_fixed (s : State) (t : State) (h : execRingStart s = .next t) :
    t.fixed = s.fixed := by
  simp only [execRingStart, Host.Outcome.next.injEq] at h; subst h; simp
theorem execRouterTestDone_fixed (x0 : Nat) (x1 : Bool) (s : State) (t : State) (h : execRouterTestDone x0 x1 s = .next t) :
    t.fixed = s.fixed := by
  simp only [execRouterTestDone, Host.Outcome.next.injEq] at h; subst h; simp
theorem execStackReady_fixed (x0 : Nat) (x1 : StackObs) (s : State) (t : State) (h : execStackReady x0 x1 s = .next t) :
    t.fixed = s.fixed := by
  simp only [execStackReady, Host.Outcome.next.injEq] at h; subst h; simp
theorem execWaveStart_fixed (s : State) (t : State) (h : execWaveStart s = .next t) :
    t.fixed = s.fixed := by
  simp only [execWaveStart, Host.Outcome.next.injEq] at h; subst h; (repeat' split) <;> first | rfl | simp
theorem execCoreTestDone_fixed (x0 x1 : List Nat) (s : State) (t : State) (h : execCoreTestDone x0 x1 s = .next t) :
    t.fixed = s.fixed := by
  simp only [execCoreTestDone, Host.Outcome.next.injEq] at h; subst h; (repeat' split) <;> first | rfl | simp
theorem execFailureRecordWrite_fixed (x0 : Nat) (s : State) (t : State) (h : execFailureRecordWrite x0 s = .next t) :
    t.fixed = s.fixed := by
  simp only [execFailureRecordWrite, Host.Outcome.next.injEq] at h; subst h; simp
theorem execBringupComplete_fixed (s : State) (t : State) (h : execBringupComplete s = .next t) :
    t.fixed = s.fixed := by
  simp only [execBringupComplete, Host.Outcome.next.injEq] at h; subst h; simp
theorem execMrd_fixed (x0 : HostAccess) (s : State) (t : State) (h : execMrd x0 s = .next t) :
    t.fixed = s.fixed := by
  simp only [execMrd, Host.Outcome.next.injEq] at h; subst h; simp
theorem execEack_fixed (x0 : HostMsg) (s : State) (t : State) (h : execEack x0 s = .next t) :
    t.fixed = s.fixed := by
  simp only [execEack, Host.Outcome.next.injEq] at h; subst h; simp
theorem execEvtSend_fixed (s : State) (t : State) (h : execEvtSend s = .next t) :
    t.fixed = s.fixed := by
  simp only [execEvtSend, Host.Outcome.next.injEq] at h; subst h; (repeat' split) <;> first | rfl | simp
theorem execHostLinkDown_fixed (s : State) (t : State) (h : execHostLinkDown s = .next t) :
    t.fixed = s.fixed := by
  simp only [execHostLinkDown, Host.Outcome.next.injEq] at h; subst h; simp
theorem execHostLinkUp_fixed (s : State) (t : State) (h : execHostLinkUp s = .next t) :
    t.fixed = s.fixed := by
  simp only [execHostLinkUp, Host.Outcome.next.injEq] at h; subst h; simp
theorem execJobOpen_fixed (x0 : HostMsg) (s : State) (t : State) (h : execJobOpen x0 s = .next t) :
    t.fixed = s.fixed := by
  simp only [execJobOpen, Host.Outcome.next.injEq] at h; subst h; simp
theorem execStepData_fixed (x0 : HostMsg) (s : State) (t : State) (h : execStepData x0 s = .next t) :
    t.fixed = s.fixed := by
  simp only [execStepData, Host.Outcome.next.injEq] at h; subst h; simp
theorem execBlendLoadFull_fixed (x0 : HostMsg) (s : State) (t : State) (h : execBlendLoadFull x0 s = .next t) :
    t.fixed = s.fixed := by
  simp only [execBlendLoadFull, Host.Outcome.next.injEq] at h; subst h; simp
theorem execBlendLoadPartial_fixed (x0 : HostMsg) (s : State) (t : State) (h : execBlendLoadPartial x0 s = .next t) :
    t.fixed = s.fixed := by
  simp only [execBlendLoadPartial, Host.Outcome.next.injEq] at h; subst h; simp
theorem execRegionDrain_fixed (x0 : HostMsg) (s : State) (t : State) (h : execRegionDrain x0 s = .next t) :
    t.fixed = s.fixed := by
  simp only [execRegionDrain, Host.Outcome.next.injEq] at h; subst h; simp
theorem execRegionDrainComplete_fixed (x0 : Nat) (s : State) (t : State) (h : execRegionDrainComplete x0 s = .next t) :
    t.fixed = s.fixed := by
  simp only [execRegionDrainComplete, Host.Outcome.next.injEq] at h; subst h; simp
theorem execRegionReset_fixed (x0 : HostMsg) (s : State) (t : State) (h : execRegionReset x0 s = .next t) :
    t.fixed = s.fixed := by
  simp only [execRegionReset, Host.Outcome.next.injEq] at h; subst h; simp
theorem execSelfTest_fixed (x0 : HostMsg) (s : State) (t : State) (h : execSelfTest x0 s = .next t) :
    t.fixed = s.fixed := by
  simp only [execSelfTest, Host.Outcome.next.injEq] at h; subst h; simp
theorem execCheckpoint_fixed (x0 : HostMsg) (s : State) (t : State) (h : execCheckpoint x0 s = .next t) :
    t.fixed = s.fixed := by
  simp only [execCheckpoint, Host.Outcome.next.injEq] at h; subst h; simp
theorem execRestore_fixed (x0 : HostMsg) (s : State) (t : State) (h : execRestore x0 s = .next t) :
    t.fixed = s.fixed := by
  simp only [execRestore, Host.Outcome.next.injEq] at h; subst h; simp
theorem execRestoreDryRun_fixed (x0 : HostMsg) (s : State) (t : State) (h : execRestoreDryRun x0 s = .next t) :
    t.fixed = s.fixed := by
  simp only [execRestoreDryRun, Host.Outcome.next.injEq] at h; subst h; simp
theorem execJobClose_fixed (x0 : HostMsg) (s : State) (t : State) (h : execJobClose x0 s = .next t) :
    t.fixed = s.fixed := by
  simp only [execJobClose, Host.Outcome.next.injEq] at h; subst h; simp
theorem execAttest_fixed (x0 : HostMsg) (s : State) (t : State) (h : execAttest x0 s = .next t) :
    t.fixed = s.fixed := by
  simp only [execAttest, Host.Outcome.next.injEq] at h; subst h; simp
theorem execStepStart_fixed (s : State) (t : State) (h : execStepStart s = .next t) :
    t.fixed = s.fixed := by
  simp only [execStepStart, Host.Outcome.next.injEq] at h; subst h; simp
theorem execStepBoundary_fixed (s : State) (t : State) (h : execStepBoundary s = .next t) :
    t.fixed = s.fixed := by
  simp only [execStepBoundary, Host.Outcome.next.injEq] at h; subst h; simp
theorem execSignatureComplete_fixed (x0 : Bool) (s : State) (t : State) (h : execSignatureComplete x0 s = .next t) :
    t.fixed = s.fixed := by
  simp only [execSignatureComplete, Host.Outcome.next.injEq] at h; subst h; simp
theorem execBatchBoundary_fixed (s : State) (t : State) (h : execBatchBoundary s = .next t) :
    t.fixed = s.fixed := by
  simp only [execBatchBoundary, Host.Outcome.next.injEq] at h; subst h; (repeat' split) <;> first | rfl | simp
theorem execNop_fixed (x0 : Nat) (x1 : IssueObs) (s : State) (t : State) (h : execNop x0 x1 s = .next t) :
    t.fixed = s.fixed := by
  simp only [execNop, Host.Outcome.next.injEq] at h; subst h; simp
theorem execEnd_fixed (x0 : Nat) (x1 : IssueObs) (s : State) (t : State) (h : execEnd x0 x1 s = .next t) :
    t.fixed = s.fixed := by
  simp only [execEnd, Host.Outcome.next.injEq] at h; subst h; simp
theorem execJump_fixed (x0 : Nat) (x1 : IssueObs) (s : State) (t : State) (h : execJump x0 x1 s = .next t) :
    t.fixed = s.fixed := by
  simp only [execJump, Host.Outcome.next.injEq] at h; subst h; simp
theorem execLoop_fixed (x0 : Nat) (x1 : IssueObs) (s : State) (t : State) (h : execLoop x0 x1 s = .next t) :
    t.fixed = s.fixed := by
  simp only [execLoop, Host.Outcome.next.injEq] at h; subst h; simp
theorem execSetlc_fixed (x0 : Nat) (x1 : IssueObs) (s : State) (t : State) (h : execSetlc x0 x1 s = .next t) :
    t.fixed = s.fixed := by
  simp only [execSetlc, Host.Outcome.next.injEq] at h; subst h; simp
theorem execDload_fixed (x0 : Nat) (x1 : IssueObs) (s : State) (t : State) (h : execDload x0 x1 s = .next t) :
    t.fixed = s.fixed := by
  simp only [execDload, Host.Outcome.next.injEq] at h; subst h; apply State.issueWith_fixed; intro s; (repeat' split) <;> first | (simp; done) | rfl
theorem execDset_fixed (x0 : Nat) (x1 : IssueObs) (s : State) (t : State) (h : execDset x0 x1 s = .next t) :
    t.fixed = s.fixed := by
  simp only [execDset, Host.Outcome.next.injEq] at h; subst h; apply State.issueWith_fixed; intro s; (repeat' split) <;> first | (simp; done) | rfl
theorem execWait_fixed (x0 : Nat) (x1 : IssueObs) (s : State) (t : State) (h : execWait x0 x1 s = .next t) :
    t.fixed = s.fixed := by
  simp only [execWait, Host.Outcome.next.injEq] at h; subst h; simp
theorem execSignal_fixed (x0 : Nat) (x1 : IssueObs) (s : State) (t : State) (h : execSignal x0 x1 s = .next t) :
    t.fixed = s.fixed := by
  simp only [execSignal, Host.Outcome.next.injEq] at h; subst h; simp
theorem execTokenSignalArrive_fixed (x0 x1 : Nat) (s : State) (t : State) (h : execTokenSignalArrive x0 x1 s = .next t) :
    t.fixed = s.fixed := by
  simp only [execTokenSignalArrive, Host.Outcome.next.injEq] at h; subst h; (repeat' split) <;> first | rfl | simp
theorem execBarrier_fixed (i : Nat) (o : IssueObs) (s t : State) (h : execBarrier i o s = .next t) : t.fixed = s.fixed := by
  simp only [execBarrier, Host.Outcome.next.injEq] at h; subst h
  split
  · rfl
  · apply State.issueWith_fixed; intro s; (repeat' split) <;> simp
theorem execDrainu_fixed (x0 : Nat) (x1 : IssueObs) (s : State) (t : State) (h : execDrainu x0 x1 s = .next t) :
    t.fixed = s.fixed := by
  simp only [execDrainu, Host.Outcome.next.injEq] at h; subst h; simp
theorem execBatch_fixed (x0 : Nat) (x1 : IssueObs) (s : State) (t : State) (h : execBatch x0 x1 s = .next t) :
    t.fixed = s.fixed := by
  simp only [execBatch, Host.Outcome.next.injEq] at h; subst h; simp
theorem execCopy_fixed (x0 : Nat) (x1 : IssueObs) (s : State) (t : State) (h : execCopy x0 x1 s = .next t) :
    t.fixed = s.fixed := by
  simp only [execCopy, Host.Outcome.next.injEq] at h; subst h; simp
theorem execCopyh_fixed (x0 : Nat) (x1 : IssueObs) (s : State) (t : State) (h : execCopyh x0 x1 s = .next t) :
    t.fixed = s.fixed := by
  simp only [execCopyh, Host.Outcome.next.injEq] at h; subst h; simp
theorem execWreq_fixed (x0 : Nat) (x1 : IssueObs) (s : State) (t : State) (h : execWreq x0 x1 s = .next t) :
    t.fixed = s.fixed := by
  simp only [execWreq, Host.Outcome.next.injEq] at h; subst h; simp
theorem execWdone_fixed (x0 : Nat) (x1 : IssueObs) (s : State) (t : State) (h : execWdone x0 x1 s = .next t) :
    t.fixed = s.fixed := by
  simp only [execWdone, Host.Outcome.next.injEq] at h; subst h; simp
theorem execPublish_fixed (x0 : Nat) (x1 : IssueObs) (s : State) (t : State) (h : execPublish x0 x1 s = .next t) :
    t.fixed = s.fixed := by
  simp only [execPublish, Host.Outcome.next.injEq] at h; subst h; simp
theorem execMm_fixed (x0 : Nat) (x1 : IssueObs) (s : State) (t : State) (h : execMm x0 x1 s = .next t) :
    t.fixed = s.fixed := by
  simp only [execMm, Host.Outcome.next.injEq] at h; subst h; simp
theorem execMmw_fixed (x0 : Nat) (x1 : IssueObs) (s : State) (t : State) (h : execMmw x0 x1 s = .next t) :
    t.fixed = s.fixed := by
  simp only [execMmw, Host.Outcome.next.injEq] at h; subst h; simp
theorem execMmrs_fixed (x0 : Nat) (x1 : IssueObs) (s : State) (t : State) (h : execMmrs x0 x1 s = .next t) :
    t.fixed = s.fixed := by
  simp only [execMmrs, Host.Outcome.next.injEq] at h; subst h; simp
theorem execWgbrs_fixed (x0 : Nat) (x1 : IssueObs) (s : State) (t : State) (h : execWgbrs x0 x1 s = .next t) :
    t.fixed = s.fixed := by
  simp only [execWgbrs, Host.Outcome.next.injEq] at h; subst h; simp
theorem execWgbclr_fixed (x0 : Nat) (x1 : IssueObs) (s : State) (t : State) (h : execWgbclr x0 x1 s = .next t) :
    t.fixed = s.fixed := by
  simp only [execWgbclr, Host.Outcome.next.injEq] at h; subst h; simp
theorem execSmm_fixed (x0 : Nat) (x1 : IssueObs) (s : State) (t : State) (h : execSmm x0 x1 s = .next t) :
    t.fixed = s.fixed := by
  simp only [execSmm, Host.Outcome.next.injEq] at h; subst h; simp
theorem execSmmt_fixed (x0 : Nat) (x1 : IssueObs) (s : State) (t : State) (h : execSmmt x0 x1 s = .next t) :
    t.fixed = s.fixed := by
  simp only [execSmmt, Host.Outcome.next.injEq] at h; subst h; simp
theorem execSdwrs_fixed (x0 : Nat) (x1 : IssueObs) (s : State) (t : State) (h : execSdwrs x0 x1 s = .next t) :
    t.fixed = s.fixed := by
  simp only [execSdwrs, Host.Outcome.next.injEq] at h; subst h; simp
theorem execUrnmerge_fixed (x0 : Nat) (x1 : IssueObs) (s : State) (t : State) (h : execUrnmerge x0 x1 s = .next t) :
    t.fixed = s.fixed := by
  simp only [execUrnmerge, Host.Outcome.next.injEq] at h; subst h; simp
theorem execPred_fixed (x0 : Nat) (x1 : IssueObs) (s : State) (t : State) (h : execPred x0 x1 s = .next t) :
    t.fixed = s.fixed := by
  simp only [execPred, Host.Outcome.next.injEq] at h; subst h; simp
theorem execSmmp_fixed (x0 : Nat) (x1 : IssueObs) (s : State) (t : State) (h : execSmmp x0 x1 s = .next t) :
    t.fixed = s.fixed := by
  simp only [execSmmp, Host.Outcome.next.injEq] at h; subst h; simp
theorem execVop_fixed (x0 : Nat) (x1 : IssueObs) (s : State) (t : State) (h : execVop x0 x1 s = .next t) :
    t.fixed = s.fixed := by
  simp only [execVop, Host.Outcome.next.injEq] at h; subst h; simp
theorem execVcvt_fixed (x0 : Nat) (x1 : IssueObs) (s : State) (t : State) (h : execVcvt x0 x1 s = .next t) :
    t.fixed = s.fixed := by
  simp only [execVcvt, Host.Outcome.next.injEq] at h; subst h; simp
theorem execVfn_fixed (x0 : Nat) (x1 : IssueObs) (s : State) (t : State) (h : execVfn x0 x1 s = .next t) :
    t.fixed = s.fixed := by
  simp only [execVfn, Host.Outcome.next.injEq] at h; subst h; simp
theorem execVred_fixed (x0 : Nat) (x1 : IssueObs) (s : State) (t : State) (h : execVred x0 x1 s = .next t) :
    t.fixed = s.fixed := by
  simp only [execVred, Host.Outcome.next.injEq] at h; subst h; simp
theorem execSoftmax_fixed (x0 : Nat) (x1 : IssueObs) (s : State) (t : State) (h : execSoftmax x0 x1 s = .next t) :
    t.fixed = s.fixed := by
  simp only [execSoftmax, Host.Outcome.next.injEq] at h; subst h; simp
theorem execNorm_fixed (x0 : Nat) (x1 : IssueObs) (s : State) (t : State) (h : execNorm x0 x1 s = .next t) :
    t.fixed = s.fixed := by
  simp only [execNorm, Host.Outcome.next.injEq] at h; subst h; simp
theorem execDfo_fixed (x0 : Nat) (x1 : IssueObs) (s : State) (t : State) (h : execDfo x0 x1 s = .next t) :
    t.fixed = s.fixed := by
  simp only [execDfo, Host.Outcome.next.injEq] at h; subst h; simp
theorem execDsoftmax_fixed (x0 : Nat) (x1 : IssueObs) (s : State) (t : State) (h : execDsoftmax x0 x1 s = .next t) :
    t.fixed = s.fixed := by
  simp only [execDsoftmax, Host.Outcome.next.injEq] at h; subst h; simp
theorem execAdamw_fixed (x0 : Nat) (x1 : IssueObs) (s : State) (t : State) (h : execAdamw x0 x1 s = .next t) :
    t.fixed = s.fixed := by
  simp only [execAdamw, Host.Outcome.next.injEq] at h; subst h; simp
theorem execSgdm_fixed (x0 : Nat) (x1 : IssueObs) (s : State) (t : State) (h : execSgdm x0 x1 s = .next t) :
    t.fixed = s.fixed := by
  simp only [execSgdm, Host.Outcome.next.injEq] at h; subst h; simp
theorem execVrs_fixed (x0 : Nat) (x1 : IssueObs) (s : State) (t : State) (h : execVrs x0 x1 s = .next t) :
    t.fixed = s.fixed := by
  simp only [execVrs, Host.Outcome.next.injEq] at h; subst h; simp
theorem execRxwait_fixed (x0 : Nat) (x1 : IssueObs) (s : State) (t : State) (h : execRxwait x0 x1 s = .next t) :
    t.fixed = s.fixed := by
  simp only [execRxwait, Host.Outcome.next.injEq] at h; subst h; simp
theorem execSipred_fixed (x0 : Nat) (x1 : IssueObs) (s : State) (t : State) (h : execSipred x0 x1 s = .next t) :
    t.fixed = s.fixed := by
  simp only [execSipred, Host.Outcome.next.injEq] at h; subst h; simp
theorem execChkrd_fixed (x0 : Nat) (x1 : IssueObs) (s : State) (t : State) (h : execChkrd x0 x1 s = .next t) :
    t.fixed = s.fixed := by
  simp only [execChkrd, Host.Outcome.next.injEq] at h; subst h; apply State.issueWith_fixed; intro s; (repeat' split) <;> first | (simp; done) | rfl
theorem execInstructionComplete_fixed (x0 : Nat) (x1 : HeadObs) (s : State) (t : State) (h : execInstructionComplete x0 x1 s = .next t) :
    t.fixed = s.fixed := by
  simp only [execInstructionComplete, Host.Outcome.next.injEq] at h; subst h; (repeat' split) <;> simp_all
theorem execWaitTimeout_fixed (x0 : Nat) (x1 : Bool) (s : State) (t : State) (h : execWaitTimeout x0 x1 s = .next t) :
    t.fixed = s.fixed := by
  simp only [execWaitTimeout, Host.Outcome.next.injEq] at h; subst h; (repeat' split) <;> simp_all
theorem execTilePassVerdict_fixed (x0 : Nat) (x1 : PassObs) (s : State) (t : State) (h : execTilePassVerdict x0 x1 s = .next t) :
    t.fixed = s.fixed := by
  simp only [execTilePassVerdict, Host.Outcome.next.injEq] at h; subst h; simp
theorem execVectorBeatCheck_fixed (x0 : Nat) (x1 : BeatObs) (s : State) (t : State) (h : execVectorBeatCheck x0 x1 s = .next t) :
    t.fixed = s.fixed := by
  simp only [execVectorBeatCheck, Host.Outcome.next.injEq] at h; subst h; simp
theorem execTileStoreWriteback_fixed (x0 x1 : Nat) (s : State) (t : State) (h : execTileStoreWriteback x0 x1 s = .next t) :
    t.fixed = s.fixed := by
  simp only [execTileStoreWriteback, Host.Outcome.next.injEq] at h; subst h; simp
theorem execMeshFlitReceive_fixed (x0 x1 : Nat) (x2 : MeshFlit) (s : State) (t : State) (h : execMeshFlitReceive x0 x1 x2 s = .next t) :
    t.fixed = s.fixed := by
  simp only [execMeshFlitReceive, Host.Outcome.next.injEq] at h; subst h; simp
theorem execDmaTransferAck_fixed (x0 : Nat) (x1 : LeafAnswer) (s : State) (t : State) (h : execDmaTransferAck x0 x1 s = .next t) :
    t.fixed = s.fixed := by
  simp only [execDmaTransferAck, Host.Outcome.next.injEq] at h; subst h; (repeat' split) <;> first | (simp; done) | rfl
theorem execDmaTimeout_fixed (x0 : Nat) (s : State) (t : State) (h : execDmaTimeout x0 s = .next t) :
    t.fixed = s.fixed := by
  simp only [execDmaTimeout, Host.Outcome.next.injEq] at h; subst h; (repeat' split) <;> first | (simp; done) | rfl
theorem execTopHotLevelReport_fixed (x0 x1 : Nat) (x2 x3 x4 : Nat) (s : State) (t : State) (h : execTopHotLevelReport x0 x1 x2 x3 x4 s = .next t) :
    t.fixed = s.fixed := by
  simp only [execTopHotLevelReport, Host.Outcome.next.injEq] at h; subst h; simp
theorem execSpareTakeover_fixed (x0 : Nat) (x1 : CopyOutcome) (s : State) (t : State) (h : execSpareTakeover x0 x1 s = .next t) :
    t.fixed = s.fixed := by
  simp only [execSpareTakeover, Host.Outcome.next.injEq] at h; subst h; (repeat' split) <;> simp_all
theorem execMigrationComplete_fixed (x0 : Nat) (x1 : Bool) (s : State) (t : State) (h : execMigrationComplete x0 x1 s = .next t) :
    t.fixed = s.fixed := by
  simp only [execMigrationComplete, Host.Outcome.next.injEq] at h; subst h; simp
theorem execThermalTrip_fixed (x0 : Nat) (s : State) (t : State) (h : execThermalTrip x0 s = .next t) :
    t.fixed = s.fixed := by
  simp only [execThermalTrip, Host.Outcome.next.injEq] at h; subst h; simp
theorem execDieRelease_fixed (x0 : Nat) (s : State) (t : State) (h : execDieRelease x0 s = .next t) :
    t.fixed = s.fixed := by
  simp only [execDieRelease, Host.Outcome.next.injEq] at h; subst h; simp
theorem execWreqAccept_fixed (x0 : Nat) (s : State) (t : State) (h : execWreqAccept x0 s = .next t) :
    t.fixed = s.fixed := by
  simp only [execWreqAccept, Host.Outcome.next.injEq] at h; subst h; simp
theorem execWget_fixed (x0 : Nat) (s : State) (t : State) (h : execWget x0 s = .next t) :
    t.fixed = s.fixed := by
  simp only [execWget, Host.Outcome.next.injEq] at h; subst h; simp
theorem execWdata_fixed (x0 : Nat) (x1 : Msg) (s : State) (t : State) (h : execWdata x0 x1 s = .next t) :
    t.fixed = s.fixed := by
  simp only [execWdata, Host.Outcome.next.injEq] at h; subst h; simp
theorem execWpush_fixed (x0 : Nat) (x1 : Msg) (s : State) (t : State) (h : execWpush x0 x1 s = .next t) :
    t.fixed = s.fixed := by
  simp only [execWpush, Host.Outcome.next.injEq] at h; subst h; simp
theorem execAttemptTimeout_fixed (x0 x1 : Nat) (s : State) (t : State) (h : execAttemptTimeout x0 x1 s = .next t) :
    t.fixed = s.fixed := by
  simp only [execAttemptTimeout, Host.Outcome.next.injEq] at h; subst h; simp
theorem execFollowTimeout_fixed (x0 : Nat) (s : State) (t : State) (h : execFollowTimeout x0 s = .next t) :
    t.fixed = s.fixed := by
  simp only [execFollowTimeout, Host.Outcome.next.injEq] at h; subst h; (repeat' split) <;> simp_all
theorem execPushHoldExpiry_fixed (x0 : Nat) (s : State) (t : State) (h : execPushHoldExpiry x0 s = .next t) :
    t.fixed = s.fixed := by
  simp only [execPushHoldExpiry, Host.Outcome.next.injEq] at h; subst h; (repeat' split) <;> first | rfl | simp
theorem execChunkDeliver_fixed (x0 : DeliveryObs) (s : State) (t : State) (h : execChunkDeliver x0 s = .next t) :
    t.fixed = s.fixed := by
  simp only [execChunkDeliver, Host.Outcome.next.injEq] at h; subst h; simp
theorem execWack_fixed (x0 : Nat) (x1 : Msg) (s : State) (t : State) (h : execWack x0 x1 s = .next t) :
    t.fixed = s.fixed := by
  simp only [execWack, Host.Outcome.next.injEq] at h; subst h; simp
theorem execWpubTimeout_fixed (x0 x1 : Nat) (s : State) (t : State) (h : execWpubTimeout x0 x1 s = .next t) :
    t.fixed = s.fixed := by
  simp only [execWpubTimeout, Host.Outcome.next.injEq] at h; subst h; (repeat' split) <;> simp_all
theorem execStageVersion_fixed (x0 : Writer) (x1 : Word) (s : State) (t : State) (h : execStageVersion x0 x1 s = .next t) :
    t.fixed = s.fixed := by
  simp only [execStageVersion, Host.Outcome.next.injEq] at h; subst h; simp
theorem execStageCancel_fixed (x0 : Writer) (x1 : Word) (s : State) (t : State) (h : execStageCancel x0 x1 s = .next t) :
    t.fixed = s.fixed := by
  simp only [execStageCancel, Host.Outcome.next.injEq] at h; subst h; simp
theorem execManifestRetry_fixed (s : State) (t : State) (h : execManifestRetry s = .next t) :
    t.fixed = s.fixed := by
  simp only [execManifestRetry, Host.Outcome.next.injEq] at h; subst h; simp
theorem execStageLimitExpiry_fixed (s : State) (t : State) (h : execStageLimitExpiry s = .next t) :
    t.fixed = s.fixed := by
  simp only [execStageLimitExpiry, Host.Outcome.next.injEq] at h; subst h; (repeat' split) <;> simp_all
theorem execRchunk_fixed (x0 : Nat) (x1 : Msg) (s : State) (t : State) (h : execRchunk x0 x1 s = .next t) :
    t.fixed = s.fixed := by
  simp only [execRchunk, Host.Outcome.next.injEq] at h; subst h; simp
theorem execSamovarAccept_fixed (x0 : OfferObs) (s : State) (t : State) (h : execSamovarAccept x0 s = .next t) :
    t.fixed = s.fixed := by
  simp only [execSamovarAccept, Host.Outcome.next.injEq] at h; subst h; simp
theorem execRresend_fixed (x0 : Nat) (x1 : Msg) (s : State) (t : State) (h : execRresend x0 x1 s = .next t) :
    t.fixed = s.fixed := by
  simp only [execRresend, Host.Outcome.next.injEq] at h; subst h; simp
theorem execRdone_fixed (x0 : Nat) (x1 : Msg) (s : State) (t : State) (h : execRdone x0 x1 s = .next t) :
    t.fixed = s.fixed := by
  simp only [execRdone, Host.Outcome.next.injEq] at h; subst h; simp
theorem execCtxTimeout_fixed (x0 x1 : Nat) (s : State) (t : State) (h : execCtxTimeout x0 x1 s = .next t) :
    t.fixed = s.fixed := by
  simp only [execCtxTimeout, Host.Outcome.next.injEq] at h; subst h; (repeat' split) <;> first | rfl | simp
theorem execGs1RdoneTimeout_fixed (x0 : Nat) (s : State) (t : State) (h : execGs1RdoneTimeout x0 s = .next t) :
    t.fixed = s.fixed := by
  simp only [execGs1RdoneTimeout, Host.Outcome.next.injEq] at h; subst h; simp
theorem execGform_fixed (x0 : Nat) (x1 : Msg) (s : State) (t : State) (h : execGform x0 x1 s = .next t) :
    t.fixed = s.fixed := by
  simp only [execGform, Host.Outcome.next.injEq] at h; subst h; simp
theorem execFormLimitExpiry_fixed (x0 : Bool) (x1 : Nat) (s : State) (t : State) (h : execFormLimitExpiry x0 x1 s = .next t) :
    t.fixed = s.fixed := by
  simp only [execFormLimitExpiry, Host.Outcome.next.injEq] at h; subst h; (repeat' split) <;> simp_all
theorem execGroupReform_fixed (x0 : Writer) (x1 : Word) (s : State) (t : State) (h : execGroupReform x0 x1 s = .next t) :
    t.fixed = s.fixed := by
  simp only [execGroupReform, Host.Outcome.next.injEq] at h; subst h; simp
theorem execSipGroupReform_fixed (x0 : Writer) (x1 : Word) (s : State) (t : State) (h : execSipGroupReform x0 x1 s = .next t) :
    t.fixed = s.fixed := by
  simp only [execSipGroupReform, Host.Outcome.next.injEq] at h; subst h; simp
theorem execSipFlitReceive_fixed (x0 x1 : Nat) (x2 : FlitBytes) (x3 : Nat) (s : State) (t : State) (h : execSipFlitReceive x0 x1 x2 x3 s = .next t) :
    t.fixed = s.fixed := by
  simp only [execSipFlitReceive, Host.Outcome.next.injEq] at h; subst h; simp
theorem execSipCombineTimeout_fixed (x0 : Nat) (s : State) (t : State) (h : execSipCombineTimeout x0 s = .next t) :
    t.fixed = s.fixed := by
  simp only [execSipCombineTimeout, Host.Outcome.next.injEq] at h; subst h; (repeat' split) <;> first | rfl | simp
theorem execSipNak_fixed (x0 : Nat) (x1 : SlotFlit) (s : State) (t : State) (h : execSipNak x0 x1 s = .next t) :
    t.fixed = s.fixed := by
  simp only [execSipNak, Host.Outcome.next.injEq] at h; subst h; simp
theorem execSiphello_fixed (x0 x1 : Nat) (x2 : FlitBytes) (s : State) (t : State) (h : execSiphello x0 x1 x2 s = .next t) :
    t.fixed = s.fixed := by
  simp only [execSiphello, Host.Outcome.next.injEq] at h; subst h; simp
theorem execSipTrainComplete_fixed (x0 : Nat) (s : State) (t : State) (h : execSipTrainComplete x0 s = .next t) :
    t.fixed = s.fixed := by
  simp only [execSipTrainComplete, Host.Outcome.next.injEq] at h; subst h; simp
theorem execSipLaneLoss_fixed (x0 : Nat) (s : State) (t : State) (h : execSipLaneLoss x0 s = .next t) :
    t.fixed = s.fixed := by
  simp only [execSipLaneLoss, Host.Outcome.next.injEq] at h; subst h; simp
theorem execGovExchangeResult_fixed (x0 : Bool) (s : State) (t : State) (h : execGovExchangeResult x0 s = .next t) :
    t.fixed = s.fixed := by
  simp only [execGovExchangeResult, Host.Outcome.next.injEq] at h; subst h; (repeat' split) <;> simp_all
theorem execPartnerDetect_fixed (x0 : Nat) (s : State) (t : State) (h : execPartnerDetect x0 s = .next t) :
    t.fixed = s.fixed := by
  simp only [execPartnerDetect, Host.Outcome.next.injEq] at h; subst h; simp
theorem execPortTrainComplete_fixed (x0 : Nat) (x1 : Bool) (x2 : Nat) (x3 : TxTraining) (s : State) (t : State) (h : execPortTrainComplete x0 x1 x2 x3 s = .next t) :
    t.fixed = s.fixed := by
  simp only [execPortTrainComplete, Host.Outcome.next.injEq] at h; subst h; simp
theorem execHello_fixed (x0 : Nat) (x1 : Msg) (s : State) (t : State) (h : execHello x0 x1 s = .next t) :
    t.fixed = s.fixed := by
  simp only [execHello, Host.Outcome.next.injEq] at h; subst h; simp
theorem execHelloRepeat_fixed (x0 : Nat) (s : State) (t : State) (h : execHelloRepeat x0 s = .next t) :
    t.fixed = s.fixed := by
  simp only [execHelloRepeat, Host.Outcome.next.injEq] at h; subst h; simp
theorem execPairReceive_fixed (x0 : Nat) (x1 : PairObs) (s : State) (t : State) (h : execPairReceive x0 x1 s = .next t) :
    t.fixed = s.fixed := by
  simp only [execPairReceive, Host.Outcome.next.injEq] at h; subst h; simp
theorem execAckTimeout_fixed (x0 : Nat) (s : State) (t : State) (h : execAckTimeout x0 s = .next t) :
    t.fixed = s.fixed := by
  simp only [execAckTimeout, Host.Outcome.next.injEq] at h; subst h; simp
theorem execLaneSymThreshold_fixed (x0 x1 : Nat) (s : State) (t : State) (h : execLaneSymThreshold x0 x1 s = .next t) :
    t.fixed = s.fixed := by
  simp only [execLaneSymThreshold, Host.Outcome.next.injEq] at h; subst h; simp
theorem execSparePrbsExclude_fixed (x0 x1 : Nat) (s : State) (t : State) (h : execSparePrbsExclude x0 x1 s = .next t) :
    t.fixed = s.fixed := by
  simp only [execSparePrbsExclude, Host.Outcome.next.injEq] at h; subst h; simp
theorem execFastRetrainComplete_fixed (x0 x1 : Nat) (s : State) (t : State) (h : execFastRetrainComplete x0 x1 s = .next t) :
    t.fixed = s.fixed := by
  simp only [execFastRetrainComplete, Host.Outcome.next.injEq] at h; subst h; simp
theorem execFastRetrainTimeout_fixed (x0 : Nat) (s : State) (t : State) (h : execFastRetrainTimeout x0 s = .next t) :
    t.fixed = s.fixed := by
  simp only [execFastRetrainTimeout, Host.Outcome.next.injEq] at h; subst h; simp
theorem execCplReceive_fixed (x0 : Nat) (x1 : Msg) (s : State) (t : State) (h : execCplReceive x0 x1 s = .next t) :
    t.fixed = s.fixed := by
  simp only [execCplReceive, Host.Outcome.next.injEq] at h; subst h; simp
theorem execJfence_fixed (x0 : Nat) (x1 : Msg) (s : State) (t : State) (h : execJfence x0 x1 s = .next t) :
    t.fixed = s.fixed := by
  simp only [execJfence, Host.Outcome.next.injEq] at h; subst h; simp
theorem execJfenceDone_fixed (x0 : Nat) (x1 : Msg) (s : State) (t : State) (h : execJfenceDone x0 x1 s = .next t) :
    t.fixed = s.fixed := by
  simp only [execJfenceDone, Host.Outcome.next.injEq] at h; subst h; simp
theorem execJfenceTimeout_fixed (x0 : Nat) (s : State) (t : State) (h : execJfenceTimeout x0 s = .next t) :
    t.fixed = s.fixed := by
  simp only [execJfenceTimeout, Host.Outcome.next.injEq] at h; subst h; (repeat' split) <;> simp_all
theorem execBcopy_fixed (x0 : Nat) (x1 : Msg) (s : State) (t : State) (h : execBcopy x0 x1 s = .next t) :
    t.fixed = s.fixed := by
  simp only [execBcopy, Host.Outcome.next.injEq] at h; subst h; simp
theorem execBcopyHandover_fixed (x0 : Nat) (x1 : Msg) (s : State) (t : State) (h : execBcopyHandover x0 x1 s = .next t) :
    t.fixed = s.fixed := by
  simp only [execBcopyHandover, Host.Outcome.next.injEq] at h; subst h; simp
theorem execBack_fixed (x0 : Nat) (x1 : Msg) (s : State) (t : State) (h : execBack x0 x1 s = .next t) :
    t.fixed = s.fixed := by
  simp only [execBack, Host.Outcome.next.injEq] at h; subst h; simp
theorem execBcopyTimeout_fixed (x0 : Nat) (s : State) (t : State) (h : execBcopyTimeout x0 s = .next t) :
    t.fixed = s.fixed := by
  simp only [execBcopyTimeout, Host.Outcome.next.injEq] at h; subst h; simp
theorem execFullRetrain_fixed (x0 : Nat) (x1 : Word) (s : State) (t : State) (h : execFullRetrain x0 x1 s = .next t) :
    t.fixed = s.fixed := by
  simp only [execFullRetrain, Host.Outcome.next.injEq] at h; subst h; simp
theorem execFastRetrain_fixed (x0 : Nat) (x1 : Word) (s : State) (t : State) (h : execFastRetrain x0 x1 s = .next t) :
    t.fixed = s.fixed := by
  simp only [execFastRetrain, Host.Outcome.next.injEq] at h; subst h; simp
theorem execPortDisable_fixed (x0 : Nat) (x1 : Word) (s : State) (t : State) (h : execPortDisable x0 x1 s = .next t) :
    t.fixed = s.fixed := by
  simp only [execPortDisable, Host.Outcome.next.injEq] at h; subst h; simp
theorem execPortEnable_fixed (x0 : Nat) (x1 : Word) (s : State) (t : State) (h : execPortEnable x0 x1 s = .next t) :
    t.fixed = s.fixed := by
  simp only [execPortEnable, Host.Outcome.next.injEq] at h; subst h; simp
theorem execSipRetrain_fixed (x0 : Nat) (x1 : Word) (s : State) (t : State) (h : execSipRetrain x0 x1 s = .next t) :
    t.fixed = s.fixed := by
  simp only [execSipRetrain, Host.Outcome.next.injEq] at h; subst h; simp
theorem execLnkTest_fixed (x0 : Nat) (x1 : Word) (s : State) (t : State) (h : execLnkTest x0 x1 s = .next t) :
    t.fixed = s.fixed := by
  simp only [execLnkTest, Host.Outcome.next.injEq] at h; subst h; simp
theorem execMemoryRead_fixed (x0 : Nat) (x1 : Upset) (s : State) (t : State) (h : execMemoryRead x0 x1 s = .next t) :
    t.fixed = s.fixed := by
  simp only [execMemoryRead, Host.Outcome.next.injEq] at h; subst h; simp
theorem execMemoryWrite_fixed (x0 : Nat) (x1 : List Byte) (x2 : Upset) (s : State) (t : State) (h : execMemoryWrite x0 x1 x2 s = .next t) :
    t.fixed = s.fixed := by
  simp only [execMemoryWrite, Host.Outcome.next.injEq] at h; subst h; simp
theorem execCriticalRead_fixed (x0 : Nat) (x1 : CritUpset) (s : State) (t : State) (h : execCriticalRead x0 x1 s = .next t) :
    t.fixed = s.fixed := by
  unfold execCriticalRead at h; dsimp only at h; (repeat' split at h) <;> (cases h; (repeat' split) <;> first | rfl | simp)
theorem execCriticalWrite_fixed (x0 : Writer) (x1 : Nat) (x2 : Word) (s : State) (t : State) (h : execCriticalWrite x0 x1 x2 s = .next t) :
    t.fixed = s.fixed := by
  unfold execCriticalWrite at h; dsimp only at h; (repeat' split at h) <;> (cases h; (repeat' split) <;> first | rfl | simp)
theorem execDieErrThreshold_fixed (x0 x1 : Nat) (s : State) (t : State) (h : execDieErrThreshold x0 x1 s = .next t) :
    t.fixed = s.fixed := by
  unfold execDieErrThreshold at h; dsimp only at h; (repeat' split at h) <;> (cases h; (repeat' split) <;> first | rfl | simp)
theorem execCeRateLimit_fixed (x0 : Nat) (s t : State) (h : execCeRateLimit x0 s = .next t) : t.fixed = s.fixed := by
  unfold execCeRateLimit at h; (repeat' split at h) <;> (cases h; first | rfl | simp)
theorem execScrubRead_fixed (x0 : Nat) (x1 : ScrubObs) (s : State) (t : State) (h : execScrubRead x0 x1 s = .next t) :
    t.fixed = s.fixed := by
  unfold execScrubRead at h; dsimp only at h; (repeat' split at h) <;> (cases h; (repeat' split) <;> first | (simp; done) | rfl)
theorem execScrubLapLimit_fixed (x0 : Nat) (s : State) (t : State) (h : execScrubLapLimit x0 s = .next t) :
    t.fixed = s.fixed := by
  unfold execScrubLapLimit at h; dsimp only at h; (repeat' split at h) <;> (cases h; (repeat' split) <;> first | rfl | simp)
theorem execRowCandidateWrite_fixed (x0 x1 : Nat) (s : State) (t : State) (h : execRowCandidateWrite x0 x1 s = .next t) :
    t.fixed = s.fixed := by
  unfold execRowCandidateWrite at h; dsimp only at h; (repeat' split at h) <;> (cases h; (repeat' split) <;> first | rfl | simp)
theorem execCaddyLinkUp_fixed (x0 x1 : Nat) (s : State) (t : State) (h : execCaddyLinkUp x0 x1 s = .next t) :
    t.fixed = s.fixed := by
  simp only [execCaddyLinkUp, Host.Outcome.next.injEq] at h; subst h; simp
theorem execCaddyLinkDown_fixed (s : State) (t : State) (h : execCaddyLinkDown s = .next t) :
    t.fixed = s.fixed := by
  simp only [execCaddyLinkDown, Host.Outcome.next.injEq] at h; subst h; simp
theorem execNvmeCompletion_fixed (x0 : Bool) (x1 : List Byte) (s : State) (t : State) (h : execNvmeCompletion x0 x1 s = .next t) :
    t.fixed = s.fixed := by
  simp only [execNvmeCompletion, Host.Outcome.next.injEq] at h; subst h; simp
theorem execNvmeCmdTimeout_fixed (s : State) (t : State) (h : execNvmeCmdTimeout s = .next t) :
    t.fixed = s.fixed := by
  simp only [execNvmeCmdTimeout, Host.Outcome.next.injEq] at h; subst h; simp
theorem execCaddyDeviceAccess_fixed (x0 : Bool) (x1 : Nat) (x2 : List Byte) (s : State) (t : State) (h : execCaddyDeviceAccess x0 x1 x2 s = .next t) :
    t.fixed = s.fixed := by
  simp only [execCaddyDeviceAccess, Host.Outcome.next.injEq] at h; subst h; simp
theorem execPreemptPin_fixed (s : State) (t : State) (h : execPreemptPin s = .next t) :
    t.fixed = s.fixed := by
  simp only [execPreemptPin, Host.Outcome.next.injEq] at h; subst h; simp
theorem execPreemptMarginExpiry_fixed (s : State) (t : State) (h : execPreemptMarginExpiry s = .next t) :
    t.fixed = s.fixed := by
  simp only [execPreemptMarginExpiry, Host.Outcome.next.injEq] at h; subst h; simp
theorem execCkpHandover_fixed (x0 : Writer) (x1 : Word) (s : State) (t : State) (h : execCkpHandover x0 x1 s = .next t) :
    t.fixed = s.fixed := by
  simp only [execCkpHandover, Host.Outcome.next.injEq] at h; subst h; simp
theorem execPowerSample_fixed (x0 : PowerObs) (s : State) (t : State) (h : execPowerSample x0 s = .next t) :
    t.fixed = s.fixed := by
  simp only [execPowerSample, Host.Outcome.next.injEq] at h; subst h; simp
theorem execPowerTrip_fixed (s : State) (t : State) (h : execPowerTrip s = .next t) :
    t.fixed = s.fixed := by
  simp only [execPowerTrip, Host.Outcome.next.injEq] at h; subst h; simp
theorem execPowerTripRelease_fixed (s : State) (t : State) (h : execPowerTripRelease s = .next t) :
    t.fixed = s.fixed := by
  simp only [execPowerTripRelease, Host.Outcome.next.injEq] at h; subst h; simp
theorem execTempSample_fixed (x0 : TempObs) (s : State) (t : State) (h : execTempSample x0 s = .next t) :
    t.fixed = s.fixed := by
  simp only [execTempSample, Host.Outcome.next.injEq] at h; subst h; (repeat' split) <;> first | rfl | simp
theorem execCoolantSample_fixed (x0 : CoolantObs) (s : State) (t : State) (h : execCoolantSample x0 s = .next t) :
    t.fixed = s.fixed := by
  simp only [execCoolantSample, Host.Outcome.next.injEq] at h; subst h; simp
theorem execSensorTimeout_fixed (x0 : Nat) (s : State) (t : State) (h : execSensorTimeout x0 s = .next t) :
    t.fixed = s.fixed := by
  simp only [execSensorTimeout, Host.Outcome.next.injEq] at h; subst h; simp
theorem execWarmIdleEnter_fixed (s : State) (t : State) (h : execWarmIdleEnter s = .next t) :
    t.fixed = s.fixed := by
  simp only [execWarmIdleEnter, Host.Outcome.next.injEq] at h; subst h; simp
theorem execStatusRead_fixed (x0 : MgtMsg) (s : State) (t : State) (h : execStatusRead x0 s = .next t) :
    t.fixed = s.fixed := by
  simp only [execStatusRead, Host.Outcome.next.injEq] at h; subst h; simp
theorem execAlertAck_fixed (x0 : MgtMsg) (s : State) (t : State) (h : execAlertAck x0 s = .next t) :
    t.fixed = s.fixed := by
  simp only [execAlertAck, Host.Outcome.next.injEq] at h; subst h; simp
theorem execBind_fixed (x0 : MgtMsg) (s : State) (t : State) (h : execBind x0 s = .next t) :
    t.fixed = s.fixed := by
  simp only [execBind, Host.Outcome.next.injEq] at h; subst h; simp
theorem execPower_fixed (x0 : MgtMsg) (s : State) (t : State) (h : execPower x0 s = .next t) :
    t.fixed = s.fixed := by
  simp only [execPower, Host.Outcome.next.injEq] at h; subst h; simp
theorem execKeepWarm_fixed (x0 : MgtMsg) (s : State) (t : State) (h : execKeepWarm x0 s = .next t) :
    t.fixed = s.fixed := by
  simp only [execKeepWarm, Host.Outcome.next.injEq] at h; subst h; simp
theorem execPreempt_fixed (x0 : MgtMsg) (s : State) (t : State) (h : execPreempt x0 s = .next t) :
    t.fixed = s.fixed := by
  simp only [execPreempt, Host.Outcome.next.injEq] at h; subst h; simp
theorem execJobFence_fixed (x0 : MgtMsg) (s : State) (t : State) (h : execJobFence x0 s = .next t) :
    t.fixed = s.fixed := by
  simp only [execJobFence, Host.Outcome.next.injEq] at h; subst h; simp
theorem execRollback_fixed (x0 : MgtMsg) (s : State) (t : State) (h : execRollback x0 s = .next t) :
    t.fixed = s.fixed := by
  simp only [execRollback, Host.Outcome.next.injEq] at h; subst h; simp
theorem execReform_fixed (x0 : MgtMsg) (s : State) (t : State) (h : execReform x0 s = .next t) :
    t.fixed = s.fixed := by
  simp only [execReform, Host.Outcome.next.injEq] at h; subst h; simp
theorem execHandover_fixed (x0 : MgtMsg) (s : State) (t : State) (h : execHandover x0 s = .next t) :
    t.fixed = s.fixed := by
  simp only [execHandover, Host.Outcome.next.injEq] at h; subst h; simp
theorem execCounterRead_fixed (x0 : MgtMsg) (s : State) (t : State) (h : execCounterRead x0 s = .next t) :
    t.fixed = s.fixed := by
  simp only [execCounterRead, Host.Outcome.next.injEq] at h; subst h; simp
theorem execRecoverWrite_fixed (x0 : MgtMsg) (s : State) (t : State) (h : execRecoverWrite x0 s = .next t) :
    t.fixed = s.fixed := by
  simp only [execRecoverWrite, Host.Outcome.next.injEq] at h; subst h; simp
theorem execRecoverCommit_fixed (m : MgtMsg) (s t : State) (h : execRecoverCommit m s = .next t) : t.fixed = s.fixed := by
  simp only [execRecoverCommit, Host.Outcome.next.injEq] at h; subst h
  apply State.mgtRow_fixed; intro s; (repeat' split) <;> first | rfl | simp
theorem execStatusReport_fixed (s : State) (t : State) (h : execStatusReport s = .next t) :
    t.fixed = s.fixed := by
  simp only [execStatusReport, Host.Outcome.next.injEq] at h; subst h; simp
theorem execAlertResend_fixed (x0 : Nat) (s : State) (t : State) (h : execAlertResend x0 s = .next t) :
    t.fixed = s.fixed := by
  simp only [execAlertResend, Host.Outcome.next.injEq] at h; subst h; (repeat' split) <;> first | rfl | simp
theorem execI3cPoll_fixed (x0 : List (Option Word)) (s : State) (t : State) (h : execI3cPoll x0 s = .next t) :
    t.fixed = s.fixed := by
  simp only [execI3cPoll, Host.Outcome.next.injEq] at h; subst h; simp
theorem execSync_fixed (x0 : PtpSync) (s : State) (t : State) (h : execSync x0 s = .next t) :
    t.fixed = s.fixed := by
  simp only [execSync, Host.Outcome.next.injEq] at h; subst h; simp
theorem execSyncTimeout_fixed (s : State) (t : State) (h : execSyncTimeout s = .next t) :
    t.fixed = s.fixed := by
  simp only [execSyncTimeout, Host.Outcome.next.injEq] at h; subst h; simp
theorem execTraceSample_fixed (s : State) (t : State) (h : execTraceSample s = .next t) :
    t.fixed = s.fixed := by
  simp only [execTraceSample, Host.Outcome.next.injEq] at h; subst h; simp
theorem execRefclkLoss_fixed (s : State) (t : State) (h : execRefclkLoss s = .next t) :
    t.fixed = s.fixed := by
  simp only [execRefclkLoss, Host.Outcome.next.injEq] at h; subst h; simp
theorem execRefclkReturn_fixed (s : State) (t : State) (h : execRefclkReturn s = .next t) :
    t.fixed = s.fixed := by
  simp only [execRefclkReturn, Host.Outcome.next.injEq] at h; subst h; simp
theorem execTagHoldExpiry_fixed (x0 x1 : Nat) (s : State) (t : State) (h : execTagHoldExpiry x0 x1 s = .next t) :
    t.fixed = s.fixed := by
  simp only [execTagHoldExpiry, Host.Outcome.next.injEq] at h; subst h; simp
theorem execInputEntersRange_fixed (x0 : BootObs) (s : State) (t : State) (h : execInputEntersRange x0 s = .next t) :
    t.fixed = s.fixed := by
  simp only [execInputEntersRange, Host.Outcome.next.injEq] at h; subst h; simp
theorem execPreemptDeadline_fixed (s : State) (t : State) (h : execPreemptDeadline s = .next t) :
    t.fixed = s.fixed := by
  simp only [execPreemptDeadline, Host.Outcome.next.injEq] at h; subst h; (repeat' split) <;> first | rfl | simp
theorem execAnnounce_fixed (x0 : PtpAnnounce) (s : State) (t : State) (h : execAnnounce x0 s = .next t) :
    t.fixed = s.fixed := by
  simp only [execAnnounce, Host.Outcome.next.injEq] at h; subst h; simp
theorem execReservedOpcode_fixed (x0 : Nat) (x1 : IssueObs) (s : State) (t : State) (h : execReservedOpcode x0 x1 s = .next t) :
    t.fixed = s.fixed := by
  simp only [execReservedOpcode, Host.Outcome.next.injEq] at h; subst h; simp
theorem execReservedHostMessage_fixed (x0 : HostMsg) (s : State) (t : State) (h : execReservedHostMessage x0 s = .next t) :
    t.fixed = s.fixed := by
  simp only [execReservedHostMessage, Host.Outcome.next.injEq] at h; subst h; simp
theorem execReservedMgtMessage_fixed (x0 : MgtMsg) (s : State) (t : State) (h : execReservedMgtMessage x0 s = .next t) :
    t.fixed = s.fixed := by
  simp only [execReservedMgtMessage, Host.Outcome.next.injEq] at h; subst h; simp
theorem execMgtLinkUp_fixed (s : State) (t : State) (h : execMgtLinkUp s = .next t) :
    t.fixed = s.fixed := by
  simp only [execMgtLinkUp, Host.Outcome.next.injEq] at h; subst h; simp

end Sys2Proof.Machine
end

