-- ==== Sys2Proof/Laws/Kept.lean ====
section
/-! SUPPORT. What no command undoes (State.Kept): its small lemmas, and one lemma for each command that writes a fuse. -/

namespace Sys2Proof.Machine

theorem State.kept_of_fixed {s t : State} (h : t.fixed = s.fixed) : s.Kept t := by
  have h1 : t.pending = s.pending := congrArg Prod.fst h
  have h2 : t.fuse = s.fuse := congrArg Prod.snd h
  exact ⟨h1, by rw [h2]; exact fun _ h => h, by rw [h2], by rw [h2]; exact ⟨rfl, rfl, rfl, rfl, rfl⟩⟩
theorem State.Kept.refl (s : State) : s.Kept s := State.kept_of_fixed rfl
theorem State.Kept.trans {s t u : State} (h : s.Kept t) (k : t.Kept u) : s.Kept u :=
  ⟨k.queue.trans h.queue, fun o x => k.owner o (h.owner o x), h.epoch.trans k.epoch,
    k.factory.1.trans h.factory.1, k.factory.2.1.trans h.factory.2.1, k.factory.2.2.1.trans h.factory.2.2.1,
    k.factory.2.2.2.1.trans h.factory.2.2.2.1, k.factory.2.2.2.2.trans h.factory.2.2.2.2⟩
theorem State.Kept.then {s t u : State} (h : s.Kept t) (k : u.fixed = t.fixed) : s.Kept u := h.trans (State.kept_of_fixed k)

theorem State.fwRaise_kept (s : State) (a : Nat) : s.Kept (s.fwRaise a).2 := by
  unfold State.fwRaise
  split
  · exact .refl s
  · split
    · exact .refl s
    · rename_i h
      refine State.Kept.then (t := { s with fuse := { s.fuse with epoch := s.fwRunning.epoch } }) ?_ (by simp)
      exact ⟨rfl, fun _ h => h, by show _ ≤ s.fwRunning.epoch; omega, rfl, rfl, rfl, rfl, rfl⟩
theorem State.wrSeal_kept (s : State) (v : Word) (b : Bool) : s.Kept (s.wrSeal v b).2 := by
  unfold State.wrSeal
  split
  · exact .refl s
  · split
    · exact .refl s
    · split
      · exact .refl s
      · rename_i h
        split
        · refine State.Kept.then (t := { s with fuse := { s.fuse with owner := some (BitVec.ofNat 256 s.ownerHash) } }) ?_ (by simp)
          refine ⟨rfl, fun o h' => ?_, Nat.le_refl _, rfl, rfl, rfl, rfl, rfl⟩
          simp [h'] at h
        · exact State.kept_of_fixed (by simp)
theorem fwDone_fixed (x : Status × State) : (State.fwDone x).2.fixed = x.2.fixed := by unfold State.fwDone; simp
theorem State.wrFwCmd_kept (s : State) (v : Word) (b : Bool) : s.Kept (s.wrFwCmd v b).2 := by
  unfold State.wrFwCmd
  split
  · exact .refl s
  · split
    · exact State.kept_of_fixed (by simp [fwDone_fixed])
    · exact (State.fwRaise_kept s _).then (fwDone_fixed _)
    · exact .refl s
theorem State.wrAction_kept (s : State) (b : RBlk) (i o : Nat) (w : Word) (x : Status × State) (h : s.wrAction b i o w = some x) : s.Kept x.2 := by
  unfold State.wrAction at h
  (repeat' split at h) <;> cases h <;>
    first
    | exact State.wrSeal_kept s _ _
    | exact State.wrFwCmd_kept s _ _
    | exact State.kept_of_fixed (by simp)
theorem State.regWrite_kept (s : State) (b : RBlk) (i o n : Nat) (v : Word) : s.Kept (s.regWrite b i o n v).2 := by
  unfold State.regWrite
  dsimp only
  split
  · exact .refl s
  · split
    · exact .refl s
    · split
      · exact State.kept_of_fixed (by simp)
      · split
        · exact State.kept_of_fixed (by dsimp only; split <;> simp)
        · split
          · exact State.wrAction_kept s _ _ _ _ _ ‹_›
          · split
            · exact .refl s
            · exact State.kept_of_fixed (by dsimp only; split <;> simp)
theorem State.regRow_kept (s : State) (b : RBlk) (i o : Nat) (v : Word) : s.Kept (s.regRow b i o v) :=
  (State.regWrite_kept s b i o 8 v).then (by unfold State.regRow; simp)
theorem State.hostWrite_kept (s : State) (a : Nat) (bs : List Byte) (o : StoreObs) : s.Kept (s.hostWrite a bs o).2 := by
  unfold State.hostWrite
  split
  · exact .refl s
  · dsimp only
    split
    · split
      · rename_i b i x _
        exact (State.regWrite_kept s b i x bs.length (BitVec.ofNat 64 (ofLe bs))).then (by dsimp only; simp [State.regBytes])
      · exact State.kept_of_fixed (by simp)
    · exact .refl s

theorem State.hostArrive_kept (s : State) (m : HostMsg) (f : State → State) (hf : s.Kept (f s)) : s.Kept (s.hostArrive m f) := by
  unfold State.hostArrive
  split
  · exact .refl s
  · split
    · exact State.kept_of_fixed (by simp)
    · split
      · exact State.kept_of_fixed (by simp)
      · exact hf
theorem execMwr_kept (x : HostAccess) (s t : State) (h : execMwr x s = .next t) : s.Kept t := by
  simp only [execMwr, Host.Outcome.next.injEq] at h
  subst h
  split
  · exact .refl s
  · exact State.hostArrive_kept s x.msg _ ((State.hostWrite_kept s (fld x.msg.arg 48 0) x.msg.payload x.obs).then (by simp))
theorem execEngTauWrite_kept (w : Writer) (v : Word) (s t : State) (h : execEngTauWrite w v s = .next t) : s.Kept t := by
  simp only [execEngTauWrite, Host.Outcome.next.injEq] at h; subst h; exact State.regRow_kept s _ _ _ _
theorem execTimCtrlWrite_kept (w : Writer) (v : Word) (s t : State) (h : execTimCtrlWrite w v s = .next t) : s.Kept t := by
  simp only [execTimCtrlWrite, Host.Outcome.next.injEq] at h; subst h; exact State.regRow_kept s _ _ _ _
theorem execTopRegionRelease_kept (w : Writer) (v : Word) (s t : State) (h : execTopRegionRelease w v s = .next t) : s.Kept t := by
  simp only [execTopRegionRelease, Host.Outcome.next.injEq] at h; subst h; exact State.regRow_kept s _ _ _ _
theorem execEngSrSeedWrite_kept (w : Writer) (k : Nat) (v : Word) (s t : State) (h : execEngSrSeedWrite w k v s = .next t) : s.Kept t := by
  simp only [execEngSrSeedWrite, Host.Outcome.next.injEq] at h; subst h; split
  · exact .refl s
  · exact State.regRow_kept s _ _ _ _
theorem execEngSrCounterWrite_kept (w : Writer) (core : Nat) (v : Word) (s t : State) (h : execEngSrCounterWrite w core v s = .next t) : s.Kept t := by
  simp only [execEngSrCounterWrite, Host.Outcome.next.injEq] at h; subst h; split
  · exact State.regRow_kept s _ _ _ _
  · exact .refl s
theorem execMemFlipArm_kept (n : Nat) (v : Word) (s t : State) (h : execMemFlipArm n v s = .next t) : s.Kept t := by
  simp only [execMemFlipArm, Host.Outcome.next.injEq] at h; subst h; split
  · exact .refl s
  · exact State.regRow_kept s _ _ _ _
theorem execMemFlipCancel_kept (n : Nat) (v : Word) (s t : State) (h : execMemFlipCancel n v s = .next t) : s.Kept t := by
  simp only [execMemFlipCancel, Host.Outcome.next.injEq] at h; subst h; split
  · exact .refl s
  · exact State.regRow_kept s _ _ _ _
theorem execSecSeal_kept (w : Writer) (v : Word) (b : Bool) (s t : State) (h : execSecSeal w v b s = .next t) : s.Kept t := by
  simp only [execSecSeal, Host.Outcome.next.injEq] at h; subst h; exact (State.wrSeal_kept s v b).then (by simp)
theorem execFwUpdate_kept (w : Writer) (v : Word) (b : Bool) (s t : State) (h : execFwUpdate w v b s = .next t) : s.Kept t := by
  simp only [execFwUpdate, Host.Outcome.next.injEq] at h; subst h; split
  · exact .refl s
  · exact (State.wrFwCmd_kept s v b).then (by simp)
theorem execFwEpochRaise_kept (w : Writer) (v : Word) (s t : State) (h : execFwEpochRaise w v s = .next t) : s.Kept t := by
  simp only [execFwEpochRaise, Host.Outcome.next.injEq] at h; subst h; split
  · exact .refl s
  · exact (State.wrFwCmd_kept s v true).then (by simp)
theorem execEventRegisterClear_kept (w : Writer) (a : Nat) (v : Word) (s t : State) (h : execEventRegisterClear w a v s = .next t) : s.Kept t := by
  simp only [execEventRegisterClear, Host.Outcome.next.injEq] at h; subst h; split
  · exact .refl s
  · split
    · exact State.regRow_kept s _ _ _ _
    · exact .refl s
theorem execRegisterWrite_kept (w : Writer) (a n : Nat) (v : Word) (s t : State) (h : execRegisterWrite w a n v s = .next t) : s.Kept t := by
  simp only [execRegisterWrite, Host.Outcome.next.injEq] at h; subst h; split
  · exact State.kept_of_fixed (by simp)
  · rename_i b i o _; exact (State.regWrite_kept s b i o n v).then (by simp)

end Sys2Proof.Machine
end

