-- ==== Sys2Proof/Laws/Stores.lean ====
section
/-! SUPPORT. Memory, symbol errors and critical words, left as they are: one lemma for each operation that stores nothing. -/

namespace Sys2Proof.Machine

/-- What the memory of the module holds. -/
def State.store (s : State) : (Smap Byte) × (Smap Byte) × (Smap CritWord) := (s.mem, s.memErr, s.crit)
@[simp] theorem State.store_mk :
    ∀ x0 x1 x2 x3 x4 x5 x6 x7 x8 x9 x10 x11 x12 x13 x14 x15 x16 x17 x18 x19 x20 x21 x22 x23 x24 x25 x26 x27 x28 x29 x30 x31 x32 x33 x34, (State.mk x0 x1 x2 x3 x4 x5 x6 x7 x8 x9 x10 x11 x12 x13 x14 x15 x16 x17 x18 x19 x20 x21 x22 x23 x24 x25 x26 x27 x28 x29 x30 x31 x32 x33 x34).store = (x10, x11, x12) := by
  intros; rfl
@[simp] theorem State.pair_store (s : State) : (s.mem, s.memErr, s.crit) = s.store := rfl
@[simp] theorem foldl_store {α : Type} (f : State → α → State) (h : ∀ s a, (f s a).store = s.store) (l : List α) (s : State) : (l.foldl f s).store = s.store := by
  induction l generalizing s with
  | nil => rfl
  | cons a l ih => simp [ih, h]
@[simp] theorem ite_store (c : Prop) [Decidable c] (a b : State) :
    (if c then a else b).store = if c then a.store else b.store := by
  split <;> rfl
theorem foldl_store_by {α β : Type} (p : β → State) (f : β → α → β) (h : ∀ b a, (p (f b a)).store = (p b).store) (l : List α) (b : β) :
    (p (l.foldl f b)).store = (p b).store := by
  induction l generalizing b with
  | nil => rfl
  | cons a l ih => simp [ih, h]

@[simp] theorem State.pokeAddr_store (s : State) (x1 : Nat) (x2 : Word) :
    (State.pokeAddr s x1 x2).store = s.store := by
  simp [State.pokeAddr]
@[simp] theorem State.poke_store (s : State) (x1 : RBlk) (x2 x3 : Nat) (x4 : Word) :
    (State.poke s x1 x2 x3 x4).store = s.store := by
  simp [State.poke]
@[simp] theorem State.rset_store (s : State) (x1 : RBlk) (x2 x3 : Nat) (x4 x5 x6 : Nat) :
    (State.rset s x1 x2 x3 x4 x5 x6).store = s.store := by
  simp [State.rset]
@[simp] theorem State.rbit_store (s : State) (x1 : RBlk) (x2 x3 x4 : Nat) (x5 : Bool) :
    (State.rbit s x1 x2 x3 x4 x5).store = s.store := by
  simp [State.rbit]
@[simp] theorem State.showCkp_store (s : State) : (State.showCkp s).store = s.store := by simp [State.showCkp]
@[simp] theorem State.add_store (s : State) (x1 : RBlk) (x2 x3 x4 : Nat) :
    (State.add s x1 x2 x3 x4).store = s.store := by
  simp [State.add]
@[simp] theorem State.bump_store (s : State) (x1 : RBlk) (x2 x3 x4 : Nat) :
    (State.bump s x1 x2 x3 x4).store = s.store := by
  simp [State.bump]
@[simp] theorem State.memGate_store (s : State) (x1 x2 : Nat) :
    (State.memGate s x1 x2).2.store = s.store := by
  simp [State.memGate]
@[simp] theorem State.errLog_store (s : State) (x1 : RBlk) (x2 x3 : Nat) (x4 x5 : Nat) (x6 : Word) :
    (State.errLog s x1 x2 x3 x4 x5 x6).store = s.store := by
  simp [State.errLog]
@[simp] theorem State.send_store (s : State) (x1 : Out) : (State.send s x1).store = s.store := by simp [State.send]
@[simp] theorem State.trace_store (s : State) (x1 x2 : Nat) (x3 x4 : Nat) (x5 : List Byte) :
    (State.trace s x1 x2 x3 x4 x5).store = s.store := by
  simp [State.trace]
@[simp] theorem State.raise_store (s : State) (x1 : RBlk) (x2 x3 x4 : Nat) :
    (State.raise s x1 x2 x3 x4).store = s.store := by
  simp [State.raise]
@[simp] theorem State.setStack_store (s : State) (x1 : Nat) (x2 : Stack) :
    (State.setStack s x1 x2).store = s.store := by
  simp [State.setStack]
@[simp] theorem State.rowCandidate_store (s : State) (x1 : Nat) :
    (State.rowCandidate s x1).store = s.store := by
  unfold State.rowCandidate; dsimp only; (repeat' split) <;> first | rfl | simp
@[simp] theorem State.check_store (s : State) (x1 x2 : Nat) (x3 x4 x5 : Nat) :
    (State.check s x1 x2 x3 x4 x5).store = s.store := by
  simp [State.check]
@[simp] theorem State.dieErr_store (x0 : Nat) (s : State) (x2 : CwOut) :
    (State.dieErr x0 s x2).store = s.store := by
  unfold State.dieErr; (repeat' split) <;> simp_all
@[simp] theorem State.readGranule_store (s : State) (x1 : MemReader) (x2 : Nat) :
    (State.readGranule s x1 x2).2.2.store = s.store := by
  unfold State.readGranule; (repeat' split) <;> first | rfl | simp [-List.reduceReplicate]
@[simp] theorem State.memRead_store (s : State) (a n : Nat) : (s.memRead a n).2.2.store = s.store := by
  have h := foldl_store_by (fun b : Bool × List Byte × State => b.2.2)
    (fun acc g => (acc.1 && (acc.2.2.readGranule .requester g).1, acc.2.1 ++ (acc.2.2.readGranule .requester g).2.1,
      (acc.2.2.readGranule .requester g).2.2)) (by intros; simp) (granules a n) (true, [], s)
  unfold State.memRead; dsimp only; (repeat' split) <;> first | simp; done | exact h
@[simp] theorem State.readArea_store (s : State) (k o n : Nat) : (s.readArea k o n).2.2.store = s.store :=
  foldl_store_by (fun b : Status × List Byte × State => b.2.2) _ (by intros; simp) _ (Status.ok, [], s)
@[simp] theorem State.useFree_store (s : State) (x1 : Nat) : (State.useFree s x1).store = s.store := by simp [State.useFree]
@[simp] theorem State.critRead_store (s : State) (x1 : Nat) :
    (State.critRead s x1).2.2.store = s.store := by
  unfold State.critRead; dsimp only; (repeat' split) <;> first | rfl | simp
@[simp] theorem State.votedWord_store (s : State) (x1 : Nat) (x2 : Word) :
    (State.votedWord s x1 x2).2.2.store = s.store := by
  simp [State.votedWord]
@[simp] theorem State.faultLog_store (s : State) (x1 x2 : Nat) (x3 : Status) (x4 : Nat) :
    (State.faultLog s x1 x2 x3 x4).store = s.store := by
  simp [State.faultLog]
@[simp] theorem State.enqueueEvt_store (s : State) (x1 : Nat) (x2 : List Byte) :
    (State.enqueueEvt s x1 x2).store = s.store := by
  simp [State.enqueueEvt]
@[simp] theorem State.hostEvent_store (s : State) (x1 : Nat) (x2 : List Byte) :
    (State.hostEvent s x1 x2).store = s.store := by
  simp [State.hostEvent]
@[simp] theorem State.stepEnd_store (s : State) (x1 : Nat) (x2 : Status) :
    (State.stepEnd s x1 x2).store = s.store := by
  simp [State.stepEnd]
@[simp] theorem State.readCounts_store (s : State) : (State.readCounts s).store = s.store := by simp [State.readCounts]
@[simp] theorem State.alertPin_store (s : State) : (State.alertPin s).store = s.store := by simp [State.alertPin]
@[simp] theorem State.mgtSend_store (s : State) (x1 : Nat) (x2 : List Byte) :
    (State.mgtSend s x1 x2).store = s.store := by
  unfold State.mgtSend; dsimp only; (repeat' split) <;> first | rfl | simp
@[simp] theorem State.mgtAlert_store (s : State) (x1 x2 x3 : Nat) :
    (State.mgtAlert s x1 x2 x3).store = s.store := by
  unfold State.mgtAlert; dsimp only; (repeat' split) <;> first | rfl | simp
@[simp] theorem State.lastCkp_store (s : State) (x1 : Status) :
    (State.lastCkp s x1).store = s.store := by
  simp [State.lastCkp]
@[simp] theorem State.setCmdq_store (s : State) (x1 : Nat) (x2 : CmdQ) :
    (State.setCmdq s x1 x2).store = s.store := by
  simp [State.setCmdq]
@[simp] theorem State.sendCpl_store (s : State) (x1 : Nat) (x2 : Status) (x3 : List Byte) :
    (State.sendCpl s x1 x2 x3).store = s.store := by
  simp [State.sendCpl]
@[simp] theorem State.finishCmd_store (s : State) (x1 : Nat) (x2 : Status) (x3 : List Byte) :
    (State.finishCmd s x1 x2 x3).store = s.store := by
  unfold State.finishCmd; dsimp only; (repeat' split) <;> first | rfl | simp
@[simp] theorem State.finishCmds_store (s : State) (x1 : List Nat) (x2 : Status) :
    (State.finishCmds s x1 x2).store = s.store := by
  simp [State.finishCmds]
@[simp] theorem State.nvIssue_store (s : State) (x1 : NvCmd) : (State.nvIssue s x1).store = s.store := by simp [State.nvIssue]
@[simp] theorem State.nvPut_store (s : State) (x1 : Nat) (x2 : List Byte) (x3 : Bool) (x4 : NvWhy) :
    (State.nvPut s x1 x2 x3 x4).store = s.store := by
  simp [State.nvPut]
@[simp] theorem State.setCore_store (s : State) (x1 : Nat) (x2 : Core) :
    (State.setCore s x1 x2).store = s.store := by
  simp [State.setCore]
@[simp] theorem State.stopCore_store (s : State) (x1 : Nat) :
    (State.stopCore s x1).store = s.store := by
  simp [State.stopCore]
@[simp] theorem State.stopCores_store (s : State) : (State.stopCores s).store = s.store := by simp [State.stopCores]
@[simp] theorem State.setInf_store (s : State) (x1 : Nat) (x2 : Inf) :
    (State.setInf s x1 x2).store = s.store := by
  simp [State.setInf]
@[simp] theorem State.checkAt_store (s : State) (x1 x2 : Nat) (x3 x4 : Nat) (x5 x6 : Nat) :
    (State.checkAt s x1 x2 x3 x4 x5 x6).store = s.store := by
  simp [State.checkAt]
@[simp] theorem State.settle_store (s : State) (x1 : Nat) :
    (State.settle s x1).store = s.store := by
  unfold State.settle; dsimp only; (repeat' split) <;> first | rfl | simp
@[simp] theorem State.freeSlots_store (s : State) : (State.freeSlots s).store = s.store := by simp [State.freeSlots]
@[simp] theorem State.ackEvents_store (s : State) (x1 : Nat) :
    (State.ackEvents s x1).store = s.store := by
  simp [State.ackEvents]
@[simp] theorem State.advance_store (s : State) (x1 x2 : Nat) :
    (State.advance s x1 x2).2.store = s.store := by
  simp [State.advance]
@[simp] theorem State.answer_store (s : State) (x1 : Status) : (State.answer s x1).store = s.store := by simp [State.answer]
@[simp] theorem State.setPort_store (s : State) (x1 : Nat) (x2 : Port) :
    (State.setPort s x1 x2).store = s.store := by
  simp [State.setPort]
@[simp] theorem State.sendPair_store (s : State) (x1 x2 : Nat) (x3 x4 : Nat) (x5 : List FlitBytes) :
    (State.sendPair s x1 x2 x3 x4 x5).store = s.store := by
  simp [State.sendPair]
@[simp] theorem State.sendPairs_store (s : State) (x1 x2 : Nat) (x3 : List FlitBytes) :
    (State.sendPairs s x1 x2 x3).store = s.store := by
  simp [State.sendPairs]
@[simp] theorem State.pump_store (s : State) (x1 : Nat) : (State.pump s x1).store = s.store := by simp [State.pump]
@[simp] theorem State.post_store (s : State) (x1 : Nat) (x2 : Msg) :
    (State.post s x1 x2).store = s.store := by
  simp [State.post]
@[simp] theorem State.answerFence_store (s : State) (x1 : Nat) :
    (State.answerFence s x1).store = s.store := by
  unfold State.answerFence; dsimp only; (repeat' split) <;> first | rfl | simp
@[simp] theorem State.applyControls_store (s : State) (x1 : List (RBlk × Nat × Word)) (x2 : Nat) :
    (State.applyControls s x1 x2).store = s.store := by
  simp [State.applyControls]
@[simp] theorem State.liftCore_store (s : State) (x1 : Nat) :
    (State.liftCore s x1).store = s.store := by
  simp [State.liftCore]
@[simp] theorem State.liftLinks_store (s : State) : (State.liftLinks s).store = s.store := by simp [State.liftLinks]
@[simp] theorem State.liftAll_store (s : State) : (State.liftAll s).store = s.store := by simp [State.liftAll]
@[simp] theorem State.applyXbar_store (s : State) (x1 : List TopoEntry) (x2 : TopoEntry) :
    (State.applyXbar s x1 x2).store = s.store := by
  simp [State.applyXbar]
@[simp] theorem State.applyTrees_store (s : State) (x1 : Nat) (x2 : List Byte) :
    (State.applyTrees s x1 x2).store = s.store := by
  simp [State.applyTrees]
@[simp] theorem State.applyRoutes_store (s : State) (x1 : Nat) (x2 : List Byte) :
    (State.applyRoutes s x1 x2).store = s.store := by
  simp [State.applyRoutes]
@[simp] theorem State.showHand_store (s : State) : (State.showHand s).store = s.store := by simp [State.showHand]
@[simp] theorem State.nvGet_store (s : State) (x1 x2 : Nat) (x3 : NvWhy) :
    (State.nvGet s x1 x2 x3).store = s.store := by
  simp [State.nvGet]
@[simp] theorem State.settleFails_store (s : State) (x1 : CKey) (x2 : Bool) :
    (State.settleFails s x1 x2).store = s.store := by
  simp [State.settleFails]
@[simp] theorem State.takeTag_store (s : State) (x1 : Nat) (x2 : TagUse) :
    (State.takeTag s x1 x2).2.store = s.store := by
  unfold State.takeTag; dsimp only; (repeat' split) <;> first | rfl | simp
@[simp] theorem State.askForm_store (s : State) (x1 x2 x3 : Nat) (x4 : List Byte) :
    (State.askForm s x1 x2 x3 x4).2.store = s.store := by
  unfold State.askForm; dsimp only; repeat' (first | (simp; done) | split | rw [foldl_store _ (by intro s a; (repeat' split) <;> simp)])
@[simp] theorem State.setGrp_store (s : State) (x1 : Nat) (x2 : Grp) :
    (State.setGrp s x1 x2).store = s.store := by
  simp [State.setGrp]
@[simp] theorem State.formAsk_store (x0 : Nat) (s : State) (x2 : Nat) :
    (State.formAsk x0 s x2).store = s.store := by
  unfold State.formAsk; dsimp only; (repeat' split) <;> first | rfl | simp
@[simp] theorem State.formOne_store (s : State) (x1 : Nat) :
    (State.formOne s x1).store = s.store := by
  unfold State.formOne; dsimp only; (repeat' split) <;> first | rfl | simp
@[simp] theorem State.setSipg_store (s : State) (x1 : Nat) (x2 : SipGrp) :
    (State.setSipg s x1 x2).store = s.store := by
  simp [State.setSipg]
@[simp] theorem State.sipFormAsk_store (x0 : Nat) (s : State) (x2 : Nat) :
    (State.sipFormAsk x0 s x2).store = s.store := by
  unfold State.sipFormAsk; dsimp only; (repeat' split) <;> first | rfl | simp
@[simp] theorem State.sipFormOne_store (s : State) (x1 : Nat) :
    (State.sipFormOne s x1).store = s.store := by
  unfold State.sipFormOne; dsimp only; (repeat' split) <;> first | rfl | simp
@[simp] theorem State.showExchange_store (s : State) :
    (State.showExchange s).store = s.store := by
  unfold State.showExchange; split <;> simp
@[simp] theorem State.sipGoesDown_store (s : State) (x1 : Nat) :
    (State.sipGoesDown s x1).store = s.store := by
  simp [State.sipGoesDown]
@[simp] theorem State.setPortState_store (s : State) (x1 x2 : Nat) :
    (State.setPortState s x1 x2).store = s.store := by
  simp [State.setPortState]
@[simp] theorem State.formAgain_store (s : State) (x1 : Nat) :
    (State.formAgain s x1).store = s.store := by
  simp [State.formAgain]
@[simp] theorem State.holdTag_store (s : State) (x1 x2 : Nat) :
    (State.holdTag s x1 x2).store = s.store := by
  simp [State.holdTag]
@[simp] theorem State.grantTag_store (s : State) (x1 : Nat) :
    (State.grantTag s x1).store = s.store := by
  unfold State.grantTag; dsimp only; repeat' (first | (simp; done) | split | rw [foldl_store _ (by intro s a; (repeat' split) <;> simp)])
@[simp] theorem State.freeTag_store (s : State) (x1 x2 : Nat) :
    (State.freeTag s x1 x2).store = s.store := by
  simp [State.freeTag]
@[simp] theorem State.sendReq_store (s : State) (x1 x2 : Nat) (x3 : TagUse) (x4 : List Byte) :
    (State.sendReq s x1 x2 x3 x4).2.store = s.store := by
  unfold State.sendReq; dsimp only; repeat' (first | (simp; done) | split | rw [foldl_store _ (by intro s a; (repeat' split) <;> simp)])
@[simp] theorem State.sendPub_store (s : State) (w : Wpub) (n : Nat) : (s.sendPub w n).2.2.store = s.store := by
  induction n generalizing w with
  | zero => simp [State.sendPub]
  | succ n ih => simp only [State.sendPub]; (repeat' split) <;> simp [ih]
@[simp] theorem State.setChunk_store (s : State) (x1 : Nat) (x2 : InfChunk) :
    (State.setChunk s x1 x2).store = s.store := by
  simp [State.setChunk]
@[simp] theorem State.sendAttempt_store (s : State) (x1 : Nat) (x2 : InfChunk) :
    (State.sendAttempt s x1 x2).2.store = s.store := by
  unfold State.sendAttempt; dsimp only; repeat' (first | (simp; done) | split | rw [foldl_store _ (by intro s a; (repeat' split) <;> simp)])
@[simp] theorem State.dropChunks_store (s : State) (x1 : Nat) (x2 : InfChunk → Bool) :
    (State.dropChunks s x1 x2).store = s.store := by
  simp [State.dropChunks]
@[simp] theorem State.pruneManifests_store (s : State) :
    (State.pruneManifests s).store = s.store := by
  simp [State.pruneManifests]
@[simp] theorem State.dropReqs_store (s : State) (x1 : Nat) (x2 : InfReq → Bool) :
    (State.dropReqs s x1 x2).store = s.store := by
  simp [State.dropReqs]
@[simp] theorem State.setReq_store (s : State) (x1 : Nat) (x2 : InfReq) :
    (State.setReq s x1 x2).store = s.store := by
  simp [State.setReq]
@[simp] theorem State.showCopy_store (s : State) (x1 x2 : Nat) (x3 x4 : Nat) :
    (State.showCopy s x1 x2 x3 x4).store = s.store := by
  simp [State.showCopy]
@[simp] theorem State.postBlock_store (s : State) (x1 : BlockSend) (x2 : List Byte) :
    (State.postBlock s x1 x2).2.store = s.store := by
  unfold State.postBlock; dsimp only; repeat' (first | (simp; done) | split | rw [foldl_store _ (by intro s a; (repeat' split) <;> simp)])
@[simp] theorem State.sendBlock_store (s : State) (x1 : BlockSend) (x2 : Bool) :
    (State.sendBlock s x1 x2).2.2.store = s.store := by
  simp [State.sendBlock]
@[simp] theorem State.mgtReply_store (s : State) (x1 : MgtSrc) (x2 : BitVec 32) (x3 x4 : Nat) (x5 : Status) (x6 : List Byte) :
    (State.mgtReply s x1 x2 x3 x4 x5 x6).store = s.store := by
  simp [State.mgtReply]
@[simp] theorem State.fencePortDone_store (s : State) (x1 : Nat) :
    (State.fencePortDone s x1).store = s.store := by
  unfold State.fencePortDone; dsimp only; (repeat' split) <;> first | rfl | simp
@[simp] theorem State.startPort_store (s : State) (x1 : Nat) :
    (State.startPort s x1).store = s.store := by
  simp [State.startPort]
@[simp] theorem State.applyMemory_store (s : State) (x1 : List Area) :
    (State.applyMemory s x1).store = s.store := by
  simp [State.applyMemory]
@[simp] theorem State.applyStages_store (s : State) (x1 : List StageCfg) :
    (State.applyStages s x1).store = s.store := by
  simp [State.applyStages]
@[simp] theorem State.applyPrograms_store (s : State) (x1 : List Nat) :
    (State.applyPrograms s x1).store = s.store := by
  simp [State.applyPrograms]
@[simp] theorem State.showDies_store (s : State) : (State.showDies s).store = s.store := by simp [State.showDies]
@[simp] theorem State.showKettle_store (s : State) : (State.showKettle s).store = s.store := by simp [State.showKettle]
@[simp] theorem State.setDie_store (s : State) (x1 : Nat) (x2 : Die) :
    (State.setDie s x1 x2).store = s.store := by
  simp [State.setDie]
@[simp] theorem State.judgeThrottle_store (s : State) (x1 : Nat) :
    (State.judgeThrottle s x1).store = s.store := by
  simp [State.judgeThrottle]
@[simp] theorem State.setCap_store (s : State) (x1 : Nat) : (State.setCap s x1).store = s.store := by simp [State.setCap]
@[simp] theorem State.loadPower_store (s : State) : (State.loadPower s).store = s.store := by simp [State.loadPower]
@[simp] theorem State.showTopo_store (s : State) (x1 x2 : Bool) (x3 x4 : Nat) :
    (State.showTopo s x1 x2 x3 x4).store = s.store := by
  simp [State.showTopo]
@[simp] theorem State.setHealth_store (s : State) (x1 : Nat) :
    (State.setHealth s x1).store = s.store := by
  simp [State.setHealth]
@[simp] theorem State.sendStatus_store (s : State) : (State.sendStatus s).store = s.store := by simp [State.sendStatus]
@[simp] theorem State.failHealth_store (s : State) (x1 : Nat) :
    (State.failHealth s x1).store = s.store := by
  simp [State.failHealth]
@[simp] theorem State.healHealth_store (s : State) : (State.healHealth s).store = s.store := by simp [State.healHealth]
@[simp] theorem State.judgeTopo_store (s : State) (x1 : Bool) :
    (State.judgeTopo s x1).store = s.store := by
  unfold State.judgeTopo; dsimp only; (repeat' split) <;> first | rfl | simp
@[simp] theorem State.compareTopo_store (s : State) : (State.compareTopo s).store = s.store := by simp [State.compareTopo]
@[simp] theorem State.degrade_store (s : State) (x1 : Nat) : (State.degrade s x1).store = s.store := by simp [State.degrade]
@[simp] theorem State.checkSpares_store (s : State) : (State.checkSpares s).store = s.store := by simp [State.checkSpares]
@[simp] theorem State.applyPartial_store (s : State) (x1 : Parsed) :
    (State.applyPartial s x1).store = s.store := by
  simp [State.applyPartial]
@[simp] theorem State.applyPending_store (s : State) : (State.applyPending s).store = s.store := by simp [State.applyPending]
@[simp] theorem State.setCluster_store (s : State) (x1 : Nat) (x2 : Cluster) :
    (State.setCluster s x1 x2).store = s.store := by
  simp [State.setCluster]
@[simp] theorem State.setRegion_store (s : State) (x1 : Nat) (x2 : Region) :
    (State.setRegion s x1 x2).store = s.store := by
  simp [State.setRegion]
@[simp] theorem State.moveMarks_store (s : State) (x1 x2 : Nat) (x3 x4 : Nat) :
    (State.moveMarks s x1 x2 x3 x4).store = s.store := by
  simp [State.moveMarks]
@[simp] theorem State.applyTakeover_store (s : State) (x1 x2 : Nat) (x3 : Bool) :
    (State.applyTakeover s x1 x2 x3).store = s.store := by
  simp [State.applyTakeover]
@[simp] theorem State.startAttest_store (s : State) (x1 : Nat) (x2 : Cmd) :
    (State.startAttest s x1 x2).2.store = s.store := by
  simp [State.startAttest]
@[simp] theorem State.setState_store (s : State) (x1 : Nat) :
    (State.setState s x1).store = s.store := by
  simp [State.setState]
@[simp] theorem State.leaveWarm_store (s : State) : (State.leaveWarm s).store = s.store := by simp [State.leaveWarm]
@[simp] theorem State.decideAgain_store (s : State) : (State.decideAgain s).store = s.store := by simp [State.decideAgain]
@[simp] theorem State.loadSeed_store (s : State) (x1 : List Byte) :
    (State.loadSeed s x1).store = s.store := by
  simp [State.loadSeed]
@[simp] theorem State.restState_store (s : State) : (State.restState s).store = s.store := by simp [State.restState]
@[simp] theorem State.jobChanged_store (s : State) : (State.jobChanged s).store = s.store := by simp [State.jobChanged]
@[simp] theorem State.logBlock_store (s : State) (x1 : Nat) :
    (State.logBlock s x1).2.2.store = s.store := by
  simp [State.logBlock]
@[simp] theorem State.window_store (s : State) (k : Nat) : (s.window k).2.2.store = s.store :=
  foldl_store_by (fun b : Status × List (List (Option GovEntry)) × State => b.2.2) _ (by intros; simp) _ (Status.ok, [], s)
@[simp] theorem State.chooseLayer_store (s : State) (x1 : List (List (Option GovEntry))) (x2 : Nat) :
    (State.chooseLayer s x1 x2).store = s.store := by
  simp [State.chooseLayer]
@[simp] theorem State.startStepData_store (s : State) (x1 : Nat) (x2 : Cmd) :
    (State.startStepData s x1 x2).2.store = s.store := by
  simp [State.startStepData]
@[simp] theorem State.lastLoad_store (s : State) (x1 : Status) :
    (State.lastLoad s x1).store = s.store := by
  simp [State.lastLoad]
@[simp] theorem State.verified_store (s : State) (x1 : Bool) :
    (State.verified s x1).store = s.store := by
  simp [State.verified]
@[simp] theorem State.countVerify_store (s : State) (x1 : List Byte) (x2 : Option LoadFault) :
    (State.countVerify s x1 x2).store = s.store := by
  unfold State.countVerify; (repeat' split) <;> first | rfl | simp [-List.reduceReplicate]
@[simp] theorem State.readBlend_store (s : State) (x1 x2 : Nat) (x3 : Bool) :
    (State.readBlend s x1 x2 x3).2.store = s.store := by
  unfold State.readBlend; dsimp only; (repeat' split) <;> first | rfl | simp
@[simp] theorem State.putHash_store (s : State) (x1 : Nat) (x2 : List Byte) :
    (State.putHash s x1 x2).store = s.store := by
  simp [State.putHash]
@[simp] theorem State.showLoad_store (s : State) (x1 : Parsed) (x2 : List Byte) (x3 x4 : Bool) :
    (State.showLoad s x1 x2 x3 x4).store = s.store := by
  simp [State.showLoad]
@[simp] theorem State.decided_store (s : State) : (State.decided s).store = s.store := by simp [State.decided]
@[simp] theorem State.stageEvent_store (s : State) (x1 : Nat) :
    (State.stageEvent s x1).store = s.store := by
  simp [State.stageEvent]
@[simp] theorem State.sendMan_store (s : State) (x1 : ManFetch) :
    (State.sendMan s x1).store = s.store := by
  unfold State.sendMan; dsimp only; repeat' (first | (simp; done) | split | rw [foldl_store _ (by intro s a; (repeat' split) <;> simp)])
@[simp] theorem State.startMan_store (s : State) (x1 : Nat) (x2 : Bool) :
    (State.startMan s x1 x2).store = s.store := by
  simp [State.startMan]
@[simp] theorem State.setHead_store (s : State) (x1 x2 : Nat) (x3 : QEntry) :
    (State.setHead s x1 x2 x3).store = s.store := by
  simp [State.setHead]
@[simp] theorem State.tsCorrections_store (s : State) (x1 : Nat) :
    (State.tsCorrections s x1).store = s.store := by
  simp [State.tsCorrections]
@[simp] theorem State.tsReads_store (s : State) (x1 x2 : Nat) (x3 : List Nat) (x4 : Bool) :
    (State.tsReads s x1 x2 x3 x4).store = s.store := by
  simp [State.tsReads]
@[simp] theorem State.dropSpare_store (s : State) (x1 : Nat) :
    (State.dropSpare s x1).store = s.store := by
  simp [State.dropSpare]
@[simp] theorem State.lostEnd_store (s : State) (x1 : Nat × Nat → Bool) (x2 : Bool) :
    (State.lostEnd s x1 x2).store = s.store := by
  simp [State.lostEnd]
@[simp] theorem State.meshEnd_store (s : State) (x1 x2 : Nat) (x3 : Bool) :
    (State.meshEnd s x1 x2 x3).store = s.store := by
  simp [State.meshEnd]
@[simp] theorem State.giveUp_store (s : State) (x1 : Nat) : (State.giveUp s x1).store = s.store := by simp [State.giveUp]
@[simp] theorem State.noteSlice_store (s : State) (x1 : Shard) (x2 : Nat) :
    (State.noteSlice s x1 x2).store = s.store := by
  simp [State.noteSlice]
@[simp] theorem State.sipStale_store (s : State) (x1 : Nat) :
    (State.sipStale s x1).store = s.store := by
  simp [State.sipStale]
@[simp] theorem State.sendSlot_store (s : State) (x1 : Nat) (x2 : FlitBytes) :
    (State.sendSlot s x1 x2).store = s.store := by
  simp [State.sendSlot]
@[simp] theorem State.sendSip_store (s : State) (x1 : Nat) (x2 : SipFlit) (x3 : Nat) :
    (State.sendSip s x1 x2 x3).store = s.store := by
  simp [State.sendSip]
@[simp] theorem State.setSam_store (s : State) (x1 : Nat) (x2 : Sam) :
    (State.setSam s x1 x2).store = s.store := by
  simp [State.setSam]
@[simp] theorem State.compareRed_store (s : State) (x1 : Nat) (x2 : CKey) (x3 : Bool) :
    (State.compareRed s x1 x2 x3).store = s.store := by
  simp [State.compareRed]
@[simp] theorem State.putCtx_store (s : State) (x1 : Nat) (x2 : Ctx) :
    (State.putCtx s x1 x2).store = s.store := by
  simp [State.putCtx]
@[simp] theorem State.enterCtx_store (s : State) (x1 : Nat) (x2 : Ctx) (x3 : Nat × Nat) (x4 : Status) (x5 : WireChunk) :
    (State.enterCtx s x1 x2 x3 x4 x5).2.store = s.store := by
  simp [State.enterCtx]
@[simp] theorem State.dropCtx_store (s : State) (x1 : CKey) : (State.dropCtx s x1).store = s.store := by simp [State.dropCtx]
@[simp] theorem State.moveCtx_store (s : State) (x1 x2 : Nat) (x3 : Ctx) :
    (State.moveCtx s x1 x2 x3).store = s.store := by
  simp [State.moveCtx]
@[simp] theorem State.sumUp_store (s : State) (x1 : Nat) (x2 : Ctx) :
    (State.sumUp s x1 x2).2.store = s.store := by
  simp [State.sumUp]
@[simp] theorem State.sendRed_store (s : State) (x1 x2 x3 : Nat) (x4 : CKey) (x5 : Nat) (x6 : Status) (x7 : List Byte) :
    (State.sendRed s x1 x2 x3 x4 x5 x6 x7).store = s.store := by
  simp [State.sendRed]
@[simp] theorem State.sendPartial_store (s : State) (x1 : Nat) (x2 : Ctx) :
    (State.sendPartial s x1 x2).store = s.store := by
  simp [State.sendPartial, -List.reduceReplicate]
@[simp] theorem State.sendMate_store (x0 : Nat) (x1 : CKey) (x2 : Nat) (x3 : List Byte) (s : State) (x5 : Nat) :
    (State.sendMate x0 x1 x2 x3 s x5).store = s.store := by
  unfold State.sendMate; (repeat' split) <;> first | rfl | simp [-List.reduceReplicate]
@[simp] theorem State.fanOut_store (s : State) (x1 : Grp) (x2 : Nat) (x3 : CKey) (x4 : Nat) (x5 : List Byte) (x6 : Option Nat) :
    (State.fanOut s x1 x2 x3 x4 x5 x6).store = s.store := by
  unfold State.fanOut; dsimp only; (repeat' split) <;> first | rfl | simp
@[simp] theorem State.dropRetained_store (s : State) (x1 : CKey) :
    (State.dropRetained s x1).store = s.store := by
  simp [State.dropRetained]
@[simp] theorem State.readRetained_store (s : State) (x1 : Nat) (x2 : Retained) :
    (State.readRetained s x1 x2).2.2.store = s.store := by
  simp [State.readRetained]
@[simp] theorem State.putRetained_store (s : State) (x1 : Nat) (x2 : Retained) :
    (State.putRetained s x1 x2).store = s.store := by
  simp [State.putRetained]
@[simp] theorem State.encodeFrom_store (s : State) (x1 : Nat) (x2 : Retained) (x3 : Nat) (x4 : Bool) (x5 : List FVal) :
    (State.encodeFrom s x1 x2 x3 x4 x5).2.store = s.store := by
  simp [State.encodeFrom]
@[simp] theorem State.reencode_store (s : State) (x1 : CKey) (x2 : Nat) (x3 : Bool) :
    (State.reencode s x1 x2 x3).2.2.2.store = s.store := by
  unfold State.reencode; dsimp only; (repeat' split) <;> first | (simp; done) | rfl
@[simp] theorem State.sendHello_store (s : State) (x1 : Nat) :
    (State.sendHello s x1).store = s.store := by
  simp [State.sendHello]
@[simp] theorem State.rebindOne_store (s : State) (x1 : Nat) :
    (State.rebindOne s x1).store = s.store := by
  simp [State.rebindOne]
@[simp] theorem State.rebindAll_store (s : State) : (State.rebindAll s).store = s.store := by simp [State.rebindAll]
@[simp] theorem State.formAll_store (s : State) : (State.formAll s).store = s.store := by simp [State.formAll]
@[simp] theorem State.rmax_store (s : State) (x1 : RBlk) (x2 x3 x4 : Nat) :
    (State.rmax s x1 x2 x3 x4).store = s.store := by
  simp [State.rmax]
@[simp] theorem State.regionEvent_store (s : State) (x1 x2 : Nat) :
    (State.regionEvent s x1 x2).store = s.store := by
  simp [State.regionEvent]
@[simp] theorem State.finishReset_store (s : State) (x1 : Nat) :
    (State.finishReset s x1).store = s.store := by
  simp [State.finishReset]
@[simp] theorem State.endResets_store (s : State) : (State.endResets s).store = s.store := by simp [State.endResets]
@[simp] theorem State.holdQueued_store (s : State) (x1 : Nat) :
    (State.holdQueued s x1).store = s.store := by
  simp [State.holdQueued]
@[simp] theorem State.dropAttempt_store (s : State) : (State.dropAttempt s).store = s.store := by simp [State.dropAttempt]
@[simp] theorem State.readTail_store (s : State) (x1 x2 : Nat) :
    (State.readTail s x1 x2).2.2.store = s.store := by
  simp [State.readTail]
@[simp] theorem State.setCounters_store (s : State) (x1 : List Nat) :
    (State.setCounters s x1).store = s.store := by
  simp [State.setCounters]
@[simp] theorem State.endMan_store (s : State) (x1 x2 : Bool) :
    (State.endMan s x1 x2).store = s.store := by
  simp [State.endMan]
@[simp] theorem State.dropMan_store (s : State) (x1 : Bool) : (State.dropMan s x1).store = s.store := by simp [State.dropMan]
@[simp] theorem State.holdExchange_store (s : State) (x1 : Nat) (x2 : List (List Byte)) :
    (State.holdExchange s x1 x2).store = s.store := by
  simp [State.holdExchange]
@[simp] theorem State.resetRegs_store (s : State) (x1 x2 : List Nat) :
    (State.resetRegs s x1 x2).store = s.store := by
  simp [State.resetRegs]
@[simp] theorem State.dropTakeovers_store (s : State) (x1 : List Nat) :
    (State.dropTakeovers s x1).store = s.store := by
  simp [State.dropTakeovers]
@[simp] theorem State.startSelfTest_store (s : State) (x1 : Nat) (x2 : Cmd) :
    (State.startSelfTest s x1 x2).2.store = s.store := by
  simp [State.startSelfTest]
@[simp] theorem State.restoreEnds_store (s : State) (x1 : Restore) (x2 : Status) (x3 : Option Nat) :
    (State.restoreEnds s x1 x2 x3).store = s.store := by
  simp [State.restoreEnds]
@[simp] theorem State.beginRestore_store (s : State) (x1 x2 : Nat) (x3 x4 : Bool) :
    (State.beginRestore s x1 x2 x3 x4).store = s.store := by
  simp [State.beginRestore]
@[simp] theorem State.startRestore_store (s : State) (x1 : Nat) (x2 : Cmd) :
    (State.startRestore s x1 x2).2.store = s.store := by
  simp [State.startRestore]
@[simp] theorem State.finishCode_store (s : State) (x1 : Nat) (x2 : Status) :
    (State.finishCode s x1 x2).store = s.store := by
  simp [State.finishCode]
@[simp] theorem State.cplTo_store (s : State) (x1 : Nat) (x2 : Msg) (x3 : Status) :
    (State.cplTo s x1 x2 x3).store = s.store := by
  simp [State.cplTo]
@[simp] theorem State.msgMalformed_store (s : State) (x1 : Nat) (x2 : Msg) :
    (State.msgMalformed s x1 x2).store = s.store := by
  simp [State.msgMalformed]
@[simp] theorem State.foreignJob_store (s : State) (x1 : Nat) :
    (State.foreignJob s x1).store = s.store := by
  simp [State.foreignJob]
@[simp] theorem State.arrive_store (s : State) (x1 : Nat) (x2 : Msg) (x3 : State → State) (h4 : ∀ (y0 : State), (x3 y0).store = y0.store) :
    (State.arrive s x1 x2 x3).store = s.store := by
  unfold State.arrive; (repeat' split) <;> simp_all
@[simp] theorem State.lateReply_store (s : State) (x1 : Nat) (x2 : Msg) :
    (State.lateReply s x1 x2).store = s.store := by
  simp [State.lateReply]
@[simp] theorem State.backTo_store (s : State) (x1 : Nat) (x2 : Msg) (x3 : Status) :
    (State.backTo s x1 x2 x3).store = s.store := by
  simp [State.backTo]
@[simp] theorem State.vecBegin_store (s : State) (x1 : QEntry) :
    (State.vecBegin s x1).2.store = s.store := by
  simp [State.vecBegin]
@[simp] theorem State.markBeat_store (s : State) (x1 x2 x3 : Nat) :
    (State.markBeat s x1 x2 x3).store = s.store := by
  simp [State.markBeat]
@[simp] theorem State.draws_store (s : State) (x1 x2 : Nat) : (State.draws s x1 x2).2.store = s.store := by simp [State.draws]
@[simp] theorem State.saturated_store (s : State) (x1 x2 : Nat) :
    (State.saturated s x1 x2).store = s.store := by
  simp [State.saturated]
@[simp] theorem State.recover_store (s : State) (x1 x2 : Nat) :
    (State.recover s x1 x2).store = s.store := by
  simp [State.recover]
@[simp] theorem State.vecDone_store (s : State) (x1 : Nat) (x2 : QEntry) :
    (State.vecDone s x1 x2).store = s.store := by
  simp [State.vecDone]
@[simp] theorem State.setGovAcc_store (s : State) (x1 x2 : Nat) (x3 : GovAcc) :
    (State.setGovAcc s x1 x2 x3).store = s.store := by
  simp [State.setGovAcc]
@[simp] theorem State.govReport_store (s : State) (x1 x2 : Nat) (x3 : List (List FVal)) :
    (State.govReport s x1 x2 x3).store = s.store := by
  simp [State.govReport]
@[simp] theorem State.vecReport_store (s : State) (x1 : Nat) (x2 : Tensor) (x3 : BitVec 256) (x4 : Nat → Nat → FVal) :
    (State.vecReport s x1 x2 x3 x4).store = s.store := by
  simp [State.vecReport]
@[simp] theorem State.vecReports_store (s : State) (x1 : Nat) (x2 : QEntry) :
    (State.vecReports s x1 x2).store = s.store := by
  unfold State.vecReports; dsimp only; (repeat' split) <;> first | rfl | simp
@[simp] theorem State.setUrn_store (s : State) (x1 : Nat) (x2 : Urn) :
    (State.setUrn s x1 x2).store = s.store := by
  simp [State.setUrn]
@[simp] theorem State.urnSession_store (s : State) (x1 : Nat) (x2 : Tensor) :
    (State.urnSession s x1 x2).2.store = s.store := by
  simp [State.urnSession]
@[simp] theorem State.beginRamp_store (s : State) : (State.beginRamp s).store = s.store := by simp [State.beginRamp]
@[simp] theorem State.cacheRead_store (s : State) (a : Nat) (c : InfChunk) (n : Nat) : (s.cacheRead a c n).2.store = s.store := by
  unfold State.cacheRead
  dsimp only
  split
  · split <;> simp
  · simp
@[simp] theorem State.cacheLook_store (s : State) (x1 : Nat) (x2 : InfChunk) (x3 : Nat) :
    (State.cacheLook s x1 x2 x3).2.store = s.store := by
  simp [State.cacheLook]
@[simp] theorem State.pushOn_store (s : State) (x1 : Nat) (x2 : InfChunk) (x3 : List Byte) :
    (State.pushOn s x1 x2 x3).store = s.store := by
  simp [State.pushOn]
@[simp] theorem State.takePush_store (s : State) (x1 : Nat) (x2 : InfChunk) (x3 : Nat) :
    (State.takePush s x1 x2 x3).2.store = s.store := by
  unfold State.takePush; dsimp only; (repeat' split) <;> first | rfl | simp
@[simp] theorem State.setPhase_store (s : State) (x1 : Nat) :
    (State.setPhase s x1).store = s.store := by
  simp [State.setPhase]
@[simp] theorem State.linkMalformed_store (s : State) (x1 : Nat) :
    (State.linkMalformed s x1).store = s.store := by
  simp [State.linkMalformed]
@[simp] theorem State.brokenMsg_store (s : State) (x1 : Nat) (x2 : List Byte) :
    (State.brokenMsg s x1 x2).store = s.store := by
  simp [State.brokenMsg]
@[simp] theorem State.chainOn_store (s : State) (x1 : Nat) (x2 : QEntry) (x3 : List FVal) (x4 x5 : Nat) :
    (State.chainOn s x1 x2 x3 x4 x5).store = s.store := by
  simp [State.chainOn]
@[simp] theorem State.ckpFlush_store (s : State) : (State.ckpFlush s).store = s.store := by simp [State.ckpFlush]
@[simp] theorem State.eventClear_store (s : State) (x1 : RBlk) (x2 : Nat) (x3 : Word) :
    (State.eventClear s x1 x2 x3).store = s.store := by
  unfold State.eventClear; apply foldl_store; intro s a; (repeat' split) <;> simp
@[simp] theorem State.clearEvents_store (s : State) (x1 : RBlk) (x2 x3 : Nat) (x4 : RegDef) (x5 x6 : Word) :
    (State.clearEvents s x1 x2 x3 x4 x5 x6).store = s.store := by
  unfold State.clearEvents; dsimp only; (repeat' split) <;> first | rfl | simp
@[simp] theorem State.clearExc_store (s : State) (x1 : RBlk) (x2 : Nat) :
    (State.clearExc s x1 x2).store = s.store := by
  simp [State.clearExc]
@[simp] theorem State.handOver_store (s : State) : (State.handOver s).2.store = s.store := by simp [State.handOver]
@[simp] theorem State.ringAlert_store (s : State) : (State.ringAlert s).store = s.store := by simp [State.ringAlert]
@[simp] theorem State.funcReady_store (s : State) (x1 x2 : Nat) (x3 : Status) :
    (State.funcReady s x1 x2 x3).store = s.store := by
  simp [State.funcReady]
@[simp] theorem State.clusterReady_store (s : State) (x1 : Nat) :
    (State.clusterReady s x1).store = s.store := by
  simp [State.clusterReady]
@[simp] theorem State.enterSafe_store (s : State) (x1 : Nat) :
    (State.enterSafe s x1).store = s.store := by
  simp [State.enterSafe]
@[simp] theorem State.raiseDie0_store (s : State) : (State.raiseDie0 s).store = s.store := by simp [State.raiseDie0]
@[simp] theorem State.refuseMsg_store (s : State) (x1 : HostMsg) :
    (State.refuseMsg s x1).store = s.store := by
  simp [State.refuseMsg]
@[simp] theorem State.hostArrive_store (s : State) (x1 : HostMsg) (x2 : State → State) (h3 : ∀ (y0 : State), (x2 y0).store = y0.store) :
    (State.hostArrive s x1 x2).store = s.store := by
  unfold State.hostArrive; (repeat' split) <;> simp_all
@[simp] theorem State.consumed_store (s : State) (x1 : Nat) :
    (State.consumed s x1).store = s.store := by
  simp [State.consumed]
@[simp] theorem State.withError_store (s : State) (x1 x2 : Nat) (x3 : Fmt) (x4 : List FVal) :
    (State.withError s x1 x2 x3 x4).2.2.store = s.store := by
  unfold State.withError; dsimp only; (repeat' split) <;> first | rfl | simp
@[simp] theorem State.noteOwned_store (s : State) (x1 : ChunkRole) (x2 : Nat × Nat) :
    (State.noteOwned s x1 x2).store = s.store := by
  unfold State.noteOwned; dsimp only; (repeat' split) <;> first | rfl | simp
@[simp] theorem State.transferOk_store (s : State) (x1 : Nat) (x2 : QEntry) :
    (State.transferOk s x1 x2).store = s.store := by
  simp [State.transferOk]
@[simp] theorem State.wgbReads_store (s : State) (x1 x2 x3 : Nat) (x4 : Bool) :
    (State.wgbReads s x1 x2 x3 x4).store = s.store := by
  simp [State.wgbReads]
@[simp] theorem State.coreBeats_store (s : State) (x1 x2 : Nat) :
    (State.coreBeats s x1 x2).store = s.store := by
  simp [State.coreBeats]
@[simp] theorem State.corePassed_store (s : State) (x1 : Nat) :
    (State.corePassed s x1).store = s.store := by
  simp [State.corePassed]
@[simp] theorem State.coreRailOff_store (s : State) (x1 : Nat) :
    (State.coreRailOff s x1).store = s.store := by
  simp [State.coreRailOff]
@[simp] theorem State.countSeg_store (s : State) (x1 : Nat) (x2 : Pass) :
    (State.countSeg s x1 x2).store = s.store := by
  unfold State.countSeg; (repeat' split) <;> simp_all
@[simp] theorem State.countVotes_store (s : State) (x1 x2 : Nat) (x3 : Vote) :
    (State.countVotes s x1 x2 x3).store = s.store := by
  unfold State.countVotes; (repeat' split) <;> simp_all
@[simp] theorem State.sipsNone_store (s : State) (x1 : Nat → SipGrp → Bool) :
    (State.sipsNone s x1).store = s.store := by
  unfold State.sipsNone; apply foldl_store; intro s a; (repeat' split) <;> simp
@[simp] theorem State.dropPush_store (s : State) (x1 : Nat) :
    (State.dropPush s x1).store = s.store := by
  simp [State.dropPush]
@[simp] theorem State.dropSipWait_store (s : State) (x1 : SipWait) :
    (State.dropSipWait s x1).store = s.store := by
  simp [State.dropSipWait]
@[simp] theorem State.elapse_store (s : State) (x1 : Nat) : (State.elapse s x1).store = s.store := by simp [State.elapse]
@[simp] theorem State.fenceUrn_store (s : State) (x1 x2 : Nat) :
    (State.fenceUrn s x1 x2).store = s.store := by
  simp [State.fenceUrn]
@[simp] theorem State.mergeAddFails_store (s : State) (x1 x2 : Nat) (x3 : Bool) :
    (State.mergeAddFails s x1 x2 x3).store = s.store := by
  simp [State.mergeAddFails]
@[simp] theorem State.readLog_store (s : State) (b n j : Nat) : (s.readLog b n j).2.2.store = s.store := by
  induction n generalizing s j with
  | zero => simp [State.readLog]
  | succ n ih => simp only [State.readLog]; (repeat' split) <;> simp [ih]
@[simp] theorem State.offerReads_store (s : State) (x1 x2 : Nat) (x3 : QEntry) (x4 : StoreObs) :
    (State.offerReads s x1 x2 x3 x4).store = s.store := by
  simp [State.offerReads]
@[simp] theorem State.startReplay_store (s : State) (x1 : Nat) (x2 : QEntry) :
    (State.startReplay s x1 x2).store = s.store := by
  simp [State.startReplay]
@[simp] theorem State.govChunk_store (s : State) (x1 x2 : Nat) (x3 : List FVal) :
    (State.govChunk s x1 x2 x3).store = s.store := by
  simp [State.govChunk]
@[simp] theorem State.ownTransfer_store (s : State) (x1 : Nat) :
    (State.ownTransfer s x1).2.store = s.store := by
  simp [State.ownTransfer]
@[simp] theorem State.failLoc_store (s : State) (x1 x2 : Nat) (x3 x4 x5 : Nat) :
    (State.failLoc s x1 x2 x3 x4 x5).store = s.store := by
  simp [State.failLoc]
@[simp] theorem State.markFail_store (s : State) (x1 x2 : Nat) (x3 x4 x5 : Nat) :
    (State.markFail s x1 x2 x3 x4 x5).store = s.store := by
  simp [State.markFail]
@[simp] theorem State.excludeLanes_store (s : State) (x1 x2 x3 : Nat) :
    (State.excludeLanes s x1 x2 x3).store = s.store := by
  simp [State.excludeLanes]
@[simp] theorem State.fastRetrain_store (s : State) (x1 x2 : Nat) :
    (State.fastRetrain s x1 x2).store = s.store := by
  simp [State.fastRetrain]
@[simp] theorem State.fenceAnswered_store (s : State) (x1 : Nat) (x2 : Msg) :
    (State.fenceAnswered s x1 x2).store = s.store := by
  simp [State.fenceAnswered]
@[simp] theorem State.fenceDie_store (s : State) (x1 : Nat) :
    (State.fenceDie s x1).store = s.store := by
  unfold State.fenceDie; dsimp only; repeat' (first | (simp; done) | split | rw [foldl_store _ (by intro s a; (repeat' split) <;> simp)])
@[simp] theorem State.fenceJob_store (s : State) (x1 : Nat) :
    (State.fenceJob s x1).store = s.store := by
  simp [State.fenceJob]
@[simp] theorem State.sendFence_store (s : State) (x1 x2 : Nat) :
    (State.sendFence s x1 x2).store = s.store := by
  unfold State.sendFence; dsimp only; repeat' (first | (simp; done) | split | rw [foldl_store _ (by intro s a; (repeat' split) <;> simp)])
@[simp] theorem State.fencedItem_store (s : State) (x1 x2 : Nat) :
    (State.fencedItem s x1 x2).store = s.store := by
  simp [State.fencedItem]
@[simp] theorem State.formAnswer_store (s : State) (x1 : Nat) (x2 : Msg) :
    (State.formAnswer s x1 x2).store = s.store := by
  simp [State.formAnswer]
@[simp] theorem State.formConfirm_store (s : State) (x1 : Nat) (x2 : Msg) :
    (State.formConfirm s x1 x2).store = s.store := by
  unfold State.formConfirm; dsimp only; (repeat' split) <;> first | rfl | simp
@[simp] theorem State.formatStore_store (s : State) : (State.formatStore s).store = s.store := by simp [State.formatStore]
@[simp] theorem State.forward_store (s : State) (x1 : Nat) (x2 : MeshFlit) :
    (State.forward s x1 x2).store = s.store := by
  unfold State.forward; dsimp only; repeat' (first | (simp; done) | split | rw [foldl_store _ (by intro s a; (repeat' split) <;> simp)])
@[simp] theorem State.freeSlice_store (s : State) (x1 : Shard) (x2 : Nat) :
    (State.freeSlice s x1 x2).store = s.store := by
  simp [State.freeSlice]
@[simp] theorem State.fullRetrain_store (s : State) (x1 : Nat) :
    (State.fullRetrain s x1).store = s.store := by
  simp [State.fullRetrain]
@[simp] theorem State.fwRaise_store (s : State) (x1 : Nat) : (State.fwRaise s x1).2.store = s.store := by simp [State.fwRaise]
@[simp] theorem State.putSlot_store (s : State) (x1 : Nat) (x2 : FwSlot) :
    (State.putSlot s x1 x2).store = s.store := by
  simp [State.putSlot]
@[simp] theorem State.fwWrite_store (s : State) (x1 : Nat) (x2 : Bool) :
    (State.fwWrite s x1 x2).2.store = s.store := by
  simp [State.fwWrite]
@[simp] theorem State.gReply_store (s : State) (x1 : MgtMsg) (x2 : Status) (x3 : List Byte) :
    (State.gReply s x1 x2 x3).store = s.store := by
  simp [State.gReply]
@[simp] theorem State.gformIn_store (s : State) (x1 : Nat) (x2 : Msg) :
    (State.gformIn s x1 x2).store = s.store := by
  simp [State.gformIn]
@[simp] theorem State.helloGens_store (s : State) (x1 : Nat) (x2 : List Byte) :
    (State.helloGens s x1 x2).store = s.store := by
  simp [State.helloGens]
@[simp] theorem State.recordHello_store (s : State) (x1 : Nat) (x2 : List Byte) (x3 : Nat) (x4 : Bool) :
    (State.recordHello s x1 x2 x3 x4).store = s.store := by
  simp [State.recordHello]
@[simp] theorem State.negotiate_store (s : State) (x1 : Nat) (x2 : List Byte) :
    (State.negotiate s x1 x2).store = s.store := by
  simp [State.negotiate]
@[simp] theorem State.jfenceIn_store (s : State) (x1 : Nat) (x2 : Msg) :
    (State.jfenceIn s x1 x2).store = s.store := by
  simp [State.jfenceIn]
@[simp] theorem State.notServer_store (s : State) (x1 : Nat) (x2 : Msg) :
    (State.notServer s x1 x2).store = s.store := by
  simp [State.notServer]
@[simp] theorem State.manFailed_store (s : State) (x1 : ManFetch) :
    (State.manFailed s x1).store = s.store := by
  simp [State.manFailed]
@[simp] theorem State.redStale_store (s : State) (x1 : Nat) :
    (State.redStale s x1).store = s.store := by
  simp [State.redStale]
@[simp] theorem State.holderLost_store (s : State) : (State.holderLost s).store = s.store := by simp [State.holderLost]
@[simp] theorem State.wrRelease_store (s : State) (x1 : Word) :
    (State.wrRelease s x1).2.store = s.store := by
  simp [State.wrRelease]
@[simp] theorem State.wrSeed_store (s : State) (x1 : Nat) (x2 : Word) :
    (State.wrSeed s x1 x2).2.store = s.store := by
  simp [State.wrSeed]
@[simp] theorem State.wrCounter_store (s : State) (x1 : Nat) (x2 : Word) :
    (State.wrCounter s x1 x2).2.store = s.store := by
  simp [State.wrCounter]
@[simp] theorem State.memberReplaced_store (s : State) (x1 x2 : Nat) :
    (State.memberReplaced s x1 x2).store = s.store := by
  simp [State.memberReplaced]
@[simp] theorem State.retrain_store (s : State) (x1 : Nat) : (State.retrain s x1).store = s.store := by simp [State.retrain]
@[simp] theorem State.wrFlip_store (s : State) (x1 : Nat) (x2 : Word) :
    (State.wrFlip s x1 x2).2.store = s.store := by
  simp [State.wrFlip]
@[simp] theorem State.wrSeal_store (s : State) (x1 : Word) (x2 : Bool) :
    (State.wrSeal s x1 x2).2.store = s.store := by
  simp [State.wrSeal]
@[simp] theorem State.putCtrl_store (s : State) (x1 : RBlk) (x2 : Nat) (x3 : Word) :
    (State.putCtrl s x1 x2 x3).store = s.store := by
  simp [State.putCtrl]
@[simp] theorem State.wrCtrl_store (s : State) (x1 : RBlk) (x2 : RegDef) (x3 x4 : Word) :
    (State.wrCtrl s x1 x2 x3 x4).2.store = s.store := by
  simp [State.wrCtrl]
@[simp] theorem State.showTrace_store (s : State) : (State.showTrace s).store = s.store := by simp [State.showTrace]
@[simp] theorem State.judgeLanes_store (s : State) (x1 : Nat) :
    (State.judgeLanes s x1).store = s.store := by
  simp [State.judgeLanes]
@[simp] theorem State.setLocked_store (s : State) (x1 : Bool) :
    (State.setLocked s x1).store = s.store := by
  simp [State.setLocked]
@[simp] theorem State.unlock_store (s : State) : (State.unlock s).store = s.store := by simp [State.unlock]
@[simp] theorem State.judgeLock_store (s : State) (x1 : ℤ) :
    (State.judgeLock s x1).store = s.store := by
  simp [State.judgeLock]
@[simp] theorem State.judgeMode_store (s : State) (x1 : Bool) :
    (State.judgeMode s x1).store = s.store := by
  simp [State.judgeMode]
@[simp] theorem State.lapDone_store (s : State) (x1 : Nat) : (State.lapDone s x1).store = s.store := by simp [State.lapDone]
@[simp] theorem State.votedWords_store (s : State) (w : Nat) (vs : List Word) : (s.votedWords w vs).2.2.store = s.store := by
  induction vs generalizing s w with
  | nil => simp [State.votedWords]
  | cons v vs ih => simp [State.votedWords, ih]
@[simp] theorem State.lastSlot_store (s : State) : (State.lastSlot s).2.store = s.store := by simp [State.lastSlot]
@[simp] theorem State.leaveSip_store (s : State) (x1 x2 : Nat) :
    (State.leaveSip s x1 x2).store = s.store := by
  simp [State.leaveSip]
@[simp] theorem State.storeRecord_store (s : State) (x1 : RingSlot) :
    (State.storeRecord s x1).store = s.store := by
  simp [State.storeRecord]
@[simp] theorem State.storeRecords_store (s : State) : (State.storeRecords s).store = s.store := by simp [State.storeRecords]
@[simp] theorem State.storeReady_store (s : State) : (State.storeReady s).store = s.store := by simp [State.storeReady]
@[simp] theorem State.linkHead_store (s : State) (x1 : Nat) (x2 : List Byte) :
    (State.linkHead s x1 x2).store = s.store := by
  unfold State.linkHead; dsimp only; (repeat' split) <;> first | rfl | simp
@[simp] theorem State.mgtArrive_store (s : State) (m : MgtMsg) (f : State → State) (h : ∀ s, (f s).store = s.store) :
    (s.mgtArrive m f).store = s.store := by
  unfold State.mgtArrive; dsimp only; (repeat' split) <;> simp [h]
@[simp] theorem State.mgtRow_store (s : State) (x1 : MgtMsg) (x2 : Nat) (x3 : State → State) (h4 : ∀ (y0 : State), (x3 y0).store = y0.store) :
    (State.mgtRow s x1 x2 x3).store = s.store := by
  unfold State.mgtRow; (repeat' split) <;> simp_all
@[simp] theorem State.moveReceiver_store (s : State) (x1 x2 : Nat) :
    (State.moveReceiver s x1 x2).store = s.store := by
  simp [State.moveReceiver]
@[simp] theorem State.renameWork_store (s : State) (x1 x2 : Nat) (x3 : Nat → Nat) :
    (State.renameWork s x1 x2 x3).store = s.store := by
  simp [State.renameWork]
@[simp] theorem State.migrationLost_store (s : State) :
    (State.migrationLost s).store = s.store := by
  simp [State.migrationLost]
@[simp] theorem State.modSlot_store (s : State) (x1 : Nat) (x2 : RingSlot → RingSlot) :
    (State.modSlot s x1 x2).store = s.store := by
  simp [State.modSlot]
@[simp] theorem State.moveCap_store (s : State) (x1 : Nat) : (State.moveCap s x1).store = s.store := by simp [State.moveCap]
@[simp] theorem State.moveRamp_store (s : State) : (State.moveRamp s).store = s.store := by simp [State.moveRamp]
@[simp] theorem State.nextSign_store (s : State) :
    (State.nextSign s).store = s.store := by
  unfold State.nextSign; (repeat' split) <;> first | rfl | simp [-List.reduceReplicate]
@[simp] theorem State.nvNext_store (s : State) (x1 : List NvCmd) (x2 : State → State) (h3 : ∀ (y0 : State), (x2 y0).store = y0.store) :
    (State.nvNext s x1 x2).store = s.store := by
  unfold State.nvNext; (repeat' split) <;> simp_all
@[simp] theorem State.restoreMore_store (s : State) (x1 : Nat) :
    (State.restoreMore s x1).store = s.store := by
  unfold State.restoreMore; dsimp only; (repeat' split) <;> first | rfl | simp
@[simp] theorem State.resend_store (s : State) (x1 : Nat) : (State.resend s x1).store = s.store := by simp [State.resend]
@[simp] theorem State.replay_store (s : State) (x1 : Nat) : (State.replay s x1).store = s.store := by simp [State.replay]
@[simp] theorem State.pairHeader_store (s : State) (x1 : Nat) (x2 : BitVec 40) :
    (State.pairHeader s x1 x2).2.store = s.store := by
  unfold State.pairHeader; dsimp only; repeat' (first | (simp; done) | split | rw [foldl_store _ (by intro s a; (repeat' split) <;> simp)])
@[simp] theorem State.sendAck_store (s : State) (x1 : Nat) (x2 : List Nat) :
    (State.sendAck s x1 x2).store = s.store := by
  simp [State.sendAck]
@[simp] theorem State.powerCluster_store (s : State) (x1 : Nat) :
    (State.powerCluster s x1).store = s.store := by
  simp [State.powerCluster]
@[simp] theorem State.prbsErrors_store (x0 : Nat) (s : State) (x2 : Nat × Nat) :
    (State.prbsErrors x0 s x2).store = s.store := by
  simp [State.prbsErrors]
@[simp] theorem State.railsUp_store (s : State) (x1 : Nat) : (State.railsUp s x1).store = s.store := by simp [State.railsUp]
@[simp] theorem State.reportBatches_store (s : State) (x1 : Nat) :
    (State.reportBatches s x1).store = s.store := by
  simp [State.reportBatches]
@[simp] theorem State.routerSafe_store (s : State) : (State.routerSafe s).store = s.store := by simp [State.routerSafe]
@[simp] theorem State.sampleSlot_store (s : State) (x1 : Nat) :
    (State.sampleSlot s x1).store = s.store := by
  simp [State.sampleSlot]
@[simp] theorem State.scrubCritical_store (s : State) (x1 x2 : Nat) :
    (State.scrubCritical s x1 x2).store = s.store := by
  simp [State.scrubCritical]
@[simp] theorem State.sendEvt_store (s : State) (x1 : Evt) : (State.sendEvt s x1).store = s.store := by simp [State.sendEvt]
@[simp] theorem State.sensorPoll_store (s : State) (x1 : Nat) (x2 : Option Word) :
    (State.sensorPoll s x1 x2).store = s.store := by
  unfold State.sensorPoll; dsimp only; (repeat' split) <;> first | rfl | simp
@[simp] theorem State.setLanes_store (s : State) (x1 x2 x3 : Nat) :
    (State.setLanes s x1 x2 x3).store = s.store := by
  simp [State.setLanes]
@[simp] theorem State.sipNakIn_store (s : State) (x1 x2 : Nat) :
    (State.sipNakIn s x1 x2).store = s.store := by
  unfold State.sipNakIn; dsimp only; (repeat' split) <;> first | rfl | simp
@[simp] theorem State.slew_store (s : State) : (State.slew s).store = s.store := by simp [State.slew]
@[simp] theorem State.softRepair_store (s : State) (x1 : Nat) :
    (State.softRepair s x1).store = s.store := by
  simp [State.softRepair]
@[simp] theorem State.stackUp_store (s : State) (x1 : Nat) (x2 : Option Nat) (x3 : Bool) :
    (State.stackUp s x1 x2 x3).store = s.store := by
  simp [State.stackUp]
@[simp] theorem State.startStep_store (s : State) : (State.startStep s).store = s.store := by simp [State.startStep]
@[simp] theorem State.stepTime_store (s : State) (x1 : ℤ) : (State.stepTime s x1).store = s.store := by simp [State.stepTime]
@[simp] theorem State.wdone_store (s : State) (x1 : Nat) (x2 : Stream) (x3 : Nat) :
    (State.wdone s x1 x2 x3).2.store = s.store := by
  unfold State.wdone; dsimp only; repeat' (first | (simp; done) | split | rw [foldl_store _ (by intro s a; (repeat' split) <;> simp)])
@[simp] theorem State.tick_store (s : State) : (State.tick s).store = s.store := by simp [State.tick]
@[simp] theorem State.transferLost_store (s : State) (x1 : Nat) :
    (State.transferLost s x1).store = s.store := by
  simp [State.transferLost]
@[simp] theorem State.urnIssue_store (s t : State) (i : Nat) : (s.urnIssue t i).store = t.store := by
  unfold State.urnIssue; dsimp only; (repeat' split) <;> simp
@[simp] theorem State.withFetchWord_store (s : State) (x1 x2 : Nat) :
    (State.withFetchWord s x1 x2).store = s.store := by
  unfold State.withFetchWord; (repeat' split) <;> first | rfl | simp [-List.reduceReplicate]
@[simp] theorem State.wrFwCmd_store (s : State) (x1 : Word) (x2 : Bool) : (s.wrFwCmd x1 x2).2.store = s.store := by
  unfold State.wrFwCmd State.fwDone; (repeat' split) <;> simp_all

end Sys2Proof.Machine
end

