-- ==== Sys2Proof/Laws/StoresCommands.lean ====
section
/-! SUPPORT. Memory, symbol errors and critical words: one lemma for each command that stores nothing. -/

namespace Sys2Proof.Machine

theorem execRingStart_store (s : State) (t : State) (h : execRingStart s = .next t) :
    t.store = s.store := by
  simp only [execRingStart, Host.Outcome.next.injEq] at h; subst h; simp
theorem execRouterTestDone_store (x0 : Nat) (x1 : Bool) (s : State) (t : State) (h : execRouterTestDone x0 x1 s = .next t) :
    t.store = s.store := by
  simp only [execRouterTestDone, Host.Outcome.next.injEq] at h; subst h; simp
theorem execWaveStart_store (s : State) (t : State) (h : execWaveStart s = .next t) :
    t.store = s.store := by
  simp only [execWaveStart, Host.Outcome.next.injEq] at h; subst h; (repeat' split) <;> first | rfl | simp
theorem execFailureRecordWrite_store (x0 : Nat) (s : State) (t : State) (h : execFailureRecordWrite x0 s = .next t) :
    t.store = s.store := by
  simp only [execFailureRecordWrite, Host.Outcome.next.injEq] at h; subst h; simp
theorem execEack_store (x0 : HostMsg) (s : State) (t : State) (h : execEack x0 s = .next t) :
    t.store = s.store := by
  simp only [execEack, Host.Outcome.next.injEq] at h; subst h; simp
theorem execEvtSend_store (s : State) (t : State) (h : execEvtSend s = .next t) :
    t.store = s.store := by
  simp only [execEvtSend, Host.Outcome.next.injEq] at h; subst h; (repeat' split) <;> first | rfl | simp
theorem execHostLinkDown_store (s : State) (t : State) (h : execHostLinkDown s = .next t) :
    t.store = s.store := by
  simp only [execHostLinkDown, Host.Outcome.next.injEq] at h; subst h; simp
theorem execHostLinkUp_store (s : State) (t : State) (h : execHostLinkUp s = .next t) :
    t.store = s.store := by
  simp only [execHostLinkUp, Host.Outcome.next.injEq] at h; subst h; simp
theorem execBatchBoundary_store (s : State) (t : State) (h : execBatchBoundary s = .next t) :
    t.store = s.store := by
  simp only [execBatchBoundary, Host.Outcome.next.injEq] at h; subst h; (repeat' split) <;> first | rfl | simp
theorem execTileStoreWriteback_store (x0 x1 : Nat) (s : State) (t : State) (h : execTileStoreWriteback x0 x1 s = .next t) :
    t.store = s.store := by
  simp only [execTileStoreWriteback, Host.Outcome.next.injEq] at h; subst h; simp
theorem execTopHotLevelReport_store (x0 x1 : Nat) (x2 x3 x4 : Nat) (s : State) (t : State) (h : execTopHotLevelReport x0 x1 x2 x3 x4 s = .next t) :
    t.store = s.store := by
  simp only [execTopHotLevelReport, Host.Outcome.next.injEq] at h; subst h; simp
theorem execDieRelease_store (x0 : Nat) (s : State) (t : State) (h : execDieRelease x0 s = .next t) :
    t.store = s.store := by
  simp only [execDieRelease, Host.Outcome.next.injEq] at h; subst h; simp
theorem execPushHoldExpiry_store (x0 : Nat) (s : State) (t : State) (h : execPushHoldExpiry x0 s = .next t) :
    t.store = s.store := by
  simp only [execPushHoldExpiry, Host.Outcome.next.injEq] at h; subst h; (repeat' split) <;> first | rfl | simp
theorem execSipCombineTimeout_store (x0 : Nat) (s : State) (t : State) (h : execSipCombineTimeout x0 s = .next t) :
    t.store = s.store := by
  simp only [execSipCombineTimeout, Host.Outcome.next.injEq] at h; subst h; (repeat' split) <;> first | rfl | simp
theorem execSipLaneLoss_store (x0 : Nat) (s : State) (t : State) (h : execSipLaneLoss x0 s = .next t) :
    t.store = s.store := by
  simp only [execSipLaneLoss, Host.Outcome.next.injEq] at h; subst h; simp
theorem execPartnerDetect_store (x0 : Nat) (s : State) (t : State) (h : execPartnerDetect x0 s = .next t) :
    t.store = s.store := by
  simp only [execPartnerDetect, Host.Outcome.next.injEq] at h; subst h; simp
theorem execHelloRepeat_store (x0 : Nat) (s : State) (t : State) (h : execHelloRepeat x0 s = .next t) :
    t.store = s.store := by
  simp only [execHelloRepeat, Host.Outcome.next.injEq] at h; subst h; simp
theorem execSparePrbsExclude_store (x0 x1 : Nat) (s : State) (t : State) (h : execSparePrbsExclude x0 x1 s = .next t) :
    t.store = s.store := by
  simp only [execSparePrbsExclude, Host.Outcome.next.injEq] at h; subst h; simp
theorem execDieErrThreshold_store (x0 x1 : Nat) (s : State) (t : State) (h : execDieErrThreshold x0 x1 s = .next t) :
    t.store = s.store := by
  unfold execDieErrThreshold at h; dsimp only at h; (repeat' split at h) <;> (cases h; (repeat' split) <;> first | rfl | simp)
theorem execCeRateLimit_store (x0 : Nat) (s t : State) (h : execCeRateLimit x0 s = .next t) : t.store = s.store := by
  unfold execCeRateLimit at h; (repeat' split at h) <;> (cases h; first | rfl | simp)
theorem execScrubLapLimit_store (x0 : Nat) (s : State) (t : State) (h : execScrubLapLimit x0 s = .next t) :
    t.store = s.store := by
  unfold execScrubLapLimit at h; dsimp only at h; (repeat' split at h) <;> (cases h; (repeat' split) <;> first | rfl | simp)
theorem execRowCandidateWrite_store (x0 x1 : Nat) (s : State) (t : State) (h : execRowCandidateWrite x0 x1 s = .next t) :
    t.store = s.store := by
  unfold execRowCandidateWrite at h; dsimp only at h; (repeat' split at h) <;> (cases h; (repeat' split) <;> first | rfl | simp)
theorem execCaddyLinkUp_store (x0 x1 : Nat) (s : State) (t : State) (h : execCaddyLinkUp x0 x1 s = .next t) :
    t.store = s.store := by
  simp only [execCaddyLinkUp, Host.Outcome.next.injEq] at h; subst h; simp
theorem execSecSeal_store (x0 : Writer) (x1 : Word) (x2 : Bool) (s : State) (t : State) (h : execSecSeal x0 x1 x2 s = .next t) :
    t.store = s.store := by
  simp only [execSecSeal, Host.Outcome.next.injEq] at h; subst h; simp
theorem execFwUpdate_store (x0 : Writer) (x1 : Word) (x2 : Bool) (s : State) (t : State) (h : execFwUpdate x0 x1 x2 s = .next t) :
    t.store = s.store := by
  simp only [execFwUpdate, Host.Outcome.next.injEq] at h; subst h; simp
theorem execFwEpochRaise_store (x0 : Writer) (x1 : Word) (s : State) (t : State) (h : execFwEpochRaise x0 x1 s = .next t) :
    t.store = s.store := by
  simp only [execFwEpochRaise, Host.Outcome.next.injEq] at h; subst h; simp
theorem execPowerSample_store (x0 : PowerObs) (s : State) (t : State) (h : execPowerSample x0 s = .next t) :
    t.store = s.store := by
  simp only [execPowerSample, Host.Outcome.next.injEq] at h; subst h; simp
theorem execPowerTripRelease_store (s : State) (t : State) (h : execPowerTripRelease s = .next t) :
    t.store = s.store := by
  simp only [execPowerTripRelease, Host.Outcome.next.injEq] at h; subst h; simp
theorem execTempSample_store (x0 : TempObs) (s : State) (t : State) (h : execTempSample x0 s = .next t) :
    t.store = s.store := by
  simp only [execTempSample, Host.Outcome.next.injEq] at h; subst h; (repeat' split) <;> first | rfl | simp
theorem execCoolantSample_store (x0 : CoolantObs) (s : State) (t : State) (h : execCoolantSample x0 s = .next t) :
    t.store = s.store := by
  simp only [execCoolantSample, Host.Outcome.next.injEq] at h; subst h; simp
theorem execSensorTimeout_store (x0 : Nat) (s : State) (t : State) (h : execSensorTimeout x0 s = .next t) :
    t.store = s.store := by
  simp only [execSensorTimeout, Host.Outcome.next.injEq] at h; subst h; simp
theorem execWarmIdleEnter_store (s : State) (t : State) (h : execWarmIdleEnter s = .next t) :
    t.store = s.store := by
  simp only [execWarmIdleEnter, Host.Outcome.next.injEq] at h; subst h; simp
theorem execStatusRead_store (x0 : MgtMsg) (s : State) (t : State) (h : execStatusRead x0 s = .next t) :
    t.store = s.store := by
  simp only [execStatusRead, Host.Outcome.next.injEq] at h; subst h; simp
theorem execAlertAck_store (x0 : MgtMsg) (s : State) (t : State) (h : execAlertAck x0 s = .next t) :
    t.store = s.store := by
  simp only [execAlertAck, Host.Outcome.next.injEq] at h; subst h; simp
theorem execBind_store (x0 : MgtMsg) (s : State) (t : State) (h : execBind x0 s = .next t) :
    t.store = s.store := by
  simp only [execBind, Host.Outcome.next.injEq] at h; subst h; simp
theorem execPower_store (x0 : MgtMsg) (s : State) (t : State) (h : execPower x0 s = .next t) :
    t.store = s.store := by
  simp only [execPower, Host.Outcome.next.injEq] at h; subst h; simp
theorem execKeepWarm_store (x0 : MgtMsg) (s : State) (t : State) (h : execKeepWarm x0 s = .next t) :
    t.store = s.store := by
  simp only [execKeepWarm, Host.Outcome.next.injEq] at h; subst h; simp
theorem execCounterRead_store (x0 : MgtMsg) (s : State) (t : State) (h : execCounterRead x0 s = .next t) :
    t.store = s.store := by
  simp only [execCounterRead, Host.Outcome.next.injEq] at h; subst h; simp
theorem execRecoverWrite_store (x0 : MgtMsg) (s : State) (t : State) (h : execRecoverWrite x0 s = .next t) :
    t.store = s.store := by
  simp only [execRecoverWrite, Host.Outcome.next.injEq] at h; subst h; simp
theorem execStatusReport_store (s : State) (t : State) (h : execStatusReport s = .next t) :
    t.store = s.store := by
  simp only [execStatusReport, Host.Outcome.next.injEq] at h; subst h; simp
theorem execAlertResend_store (x0 : Nat) (s : State) (t : State) (h : execAlertResend x0 s = .next t) :
    t.store = s.store := by
  simp only [execAlertResend, Host.Outcome.next.injEq] at h; subst h; (repeat' split) <;> first | rfl | simp
theorem execI3cPoll_store (x0 : List (Option Word)) (s : State) (t : State) (h : execI3cPoll x0 s = .next t) :
    t.store = s.store := by
  simp only [execI3cPoll, Host.Outcome.next.injEq] at h; subst h; simp
theorem execSync_store (x0 : PtpSync) (s : State) (t : State) (h : execSync x0 s = .next t) :
    t.store = s.store := by
  simp only [execSync, Host.Outcome.next.injEq] at h; subst h; simp
theorem execSyncTimeout_store (s : State) (t : State) (h : execSyncTimeout s = .next t) :
    t.store = s.store := by
  simp only [execSyncTimeout, Host.Outcome.next.injEq] at h; subst h; simp
theorem execTraceSample_store (s : State) (t : State) (h : execTraceSample s = .next t) :
    t.store = s.store := by
  simp only [execTraceSample, Host.Outcome.next.injEq] at h; subst h; simp
theorem execRefclkReturn_store (s : State) (t : State) (h : execRefclkReturn s = .next t) :
    t.store = s.store := by
  simp only [execRefclkReturn, Host.Outcome.next.injEq] at h; subst h; simp
theorem execPreemptDeadline_store (s : State) (t : State) (h : execPreemptDeadline s = .next t) :
    t.store = s.store := by
  simp only [execPreemptDeadline, Host.Outcome.next.injEq] at h; subst h; (repeat' split) <;> first | rfl | simp
theorem execAnnounce_store (x0 : PtpAnnounce) (s : State) (t : State) (h : execAnnounce x0 s = .next t) :
    t.store = s.store := by
  simp only [execAnnounce, Host.Outcome.next.injEq] at h; subst h; simp
theorem execReservedHostMessage_store (x0 : HostMsg) (s : State) (t : State) (h : execReservedHostMessage x0 s = .next t) :
    t.store = s.store := by
  simp only [execReservedHostMessage, Host.Outcome.next.injEq] at h; subst h; simp
theorem execReservedMgtMessage_store (x0 : MgtMsg) (s : State) (t : State) (h : execReservedMgtMessage x0 s = .next t) :
    t.store = s.store := by
  simp only [execReservedMgtMessage, Host.Outcome.next.injEq] at h; subst h; simp
theorem execMgtLinkUp_store (s : State) (t : State) (h : execMgtLinkUp s = .next t) :
    t.store = s.store := by
  simp only [execMgtLinkUp, Host.Outcome.next.injEq] at h; subst h; simp

end Sys2Proof.Machine
end

