-- ==== Sys2Proof/Laws/State.lean ====
section
/-! SUPPORT. The small lemmas of the state: for each of its updates, one lemma a field; what a table reads after a write.
Each is proved by (rfl), not rfl, so that simp rewrites with it and leaves no conversion of whole states to the kernel. -/

namespace Sys2Proof.Machine

/-! ## Fields -/

/-! ### `send` -/

@[simp] theorem State.send_pending (s : State) (o : Out) : (s.send o).pending = s.pending := (rfl)
@[simp] theorem State.send_freeIx (s : State) (o : Out) : (s.send o).freeIx = s.freeIx := (rfl)
@[simp] theorem State.send_out (s : State) (o : Out) : (s.send o).out = s.out ++ [o] := (rfl)
@[simp] theorem State.send_regs (s : State) (o : Out) : (s.send o).regs = s.regs := (rfl)
@[simp] theorem State.send_pendRegs (s : State) (o : Out) : (s.send o).pendRegs = s.pendRegs := (rfl)
@[simp] theorem State.send_snap (s : State) (o : Out) : (s.send o).snap = s.snap := (rfl)
@[simp] theorem State.send_snapHead (s : State) (o : Out) : (s.send o).snapHead = s.snapHead := (rfl)
@[simp] theorem State.send_meshLost (s : State) (o : Out) : (s.send o).meshLost = s.meshLost := (rfl)
@[simp] theorem State.send_trcLost (s : State) (o : Out) : (s.send o).trcLost = s.trcLost := (rfl)
@[simp] theorem State.send_tsRate (s : State) (o : Out) : (s.send o).tsRate = s.tsRate := (rfl)
@[simp] theorem State.send_mem (s : State) (o : Out) : (s.send o).mem = s.mem := (rfl)
@[simp] theorem State.send_memErr (s : State) (o : Out) : (s.send o).memErr = s.memErr := (rfl)
@[simp] theorem State.send_crit (s : State) (o : Out) : (s.send o).crit = s.crit := (rfl)
@[simp] theorem State.send_stackSt (s : State) (o : Out) : (s.send o).stackSt = s.stackSt := (rfl)
@[simp] theorem State.send_cores (s : State) (o : Out) : (s.send o).cores = s.cores := (rfl)
@[simp] theorem State.send_clusters (s : State) (o : Out) : (s.send o).clusters = s.clusters := (rfl)
@[simp] theorem State.send_dies (s : State) (o : Out) : (s.send o).dies = s.dies := (rfl)
@[simp] theorem State.send_regions (s : State) (o : Out) : (s.send o).regions = s.regions := (rfl)
@[simp] theorem State.send_sigs (s : State) (o : Out) : (s.send o).sigs = s.sigs := (rfl)
@[simp] theorem State.send_takeovers (s : State) (o : Out) : (s.send o).takeovers = s.takeovers := (rfl)
@[simp] theorem State.send_host (s : State) (o : Out) : (s.send o).host = s.host := (rfl)
@[simp] theorem State.send_top (s : State) (o : Out) : (s.send o).top = s.top := (rfl)
@[simp] theorem State.send_flash (s : State) (o : Out) : (s.send o).flash = s.flash := (rfl)
@[simp] theorem State.send_fuse (s : State) (o : Out) : (s.send o).fuse = s.fuse := (rfl)
@[simp] theorem State.send_blend (s : State) (o : Out) : (s.send o).blend = s.blend := (rfl)
@[simp] theorem State.send_job (s : State) (o : Out) : (s.send o).job = s.job := (rfl)
@[simp] theorem State.send_ports (s : State) (o : Out) : (s.send o).ports = s.ports := (rfl)
@[simp] theorem State.send_coll (s : State) (o : Out) : (s.send o).coll = s.coll := (rfl)
@[simp] theorem State.send_wts (s : State) (o : Out) : (s.send o).wts = s.wts := (rfl)
@[simp] theorem State.send_record (s : State) (o : Out) : (s.send o).record = s.record := (rfl)
@[simp] theorem State.send_ckp (s : State) (o : Out) : (s.send o).ckp = s.ckp := (rfl)
@[simp] theorem State.send_sec (s : State) (o : Out) : (s.send o).sec = s.sec := (rfl)
@[simp] theorem State.send_ktl (s : State) (o : Out) : (s.send o).ktl = s.ktl := (rfl)
@[simp] theorem State.send_mgt (s : State) (o : Out) : (s.send o).mgt = s.mgt := (rfl)
@[simp] theorem State.send_tim (s : State) (o : Out) : (s.send o).tim = s.tim := (rfl)

/-! ### `useFree` -/

@[simp] theorem State.useFree_pending (s : State) (n : Nat) : (s.useFree n).pending = s.pending := (rfl)
@[simp] theorem State.useFree_freeIx (s : State) (n : Nat) : (s.useFree n).freeIx = s.freeIx + n := (rfl)
@[simp] theorem State.useFree_out (s : State) (n : Nat) : (s.useFree n).out = s.out := (rfl)
@[simp] theorem State.useFree_regs (s : State) (n : Nat) : (s.useFree n).regs = s.regs := (rfl)
@[simp] theorem State.useFree_pendRegs (s : State) (n : Nat) : (s.useFree n).pendRegs = s.pendRegs := (rfl)
@[simp] theorem State.useFree_snap (s : State) (n : Nat) : (s.useFree n).snap = s.snap := (rfl)
@[simp] theorem State.useFree_snapHead (s : State) (n : Nat) : (s.useFree n).snapHead = s.snapHead := (rfl)
@[simp] theorem State.useFree_meshLost (s : State) (n : Nat) : (s.useFree n).meshLost = s.meshLost := (rfl)
@[simp] theorem State.useFree_trcLost (s : State) (n : Nat) : (s.useFree n).trcLost = s.trcLost := (rfl)
@[simp] theorem State.useFree_tsRate (s : State) (n : Nat) : (s.useFree n).tsRate = s.tsRate := (rfl)
@[simp] theorem State.useFree_mem (s : State) (n : Nat) : (s.useFree n).mem = s.mem := (rfl)
@[simp] theorem State.useFree_memErr (s : State) (n : Nat) : (s.useFree n).memErr = s.memErr := (rfl)
@[simp] theorem State.useFree_crit (s : State) (n : Nat) : (s.useFree n).crit = s.crit := (rfl)
@[simp] theorem State.useFree_stackSt (s : State) (n : Nat) : (s.useFree n).stackSt = s.stackSt := (rfl)
@[simp] theorem State.useFree_cores (s : State) (n : Nat) : (s.useFree n).cores = s.cores := (rfl)
@[simp] theorem State.useFree_clusters (s : State) (n : Nat) : (s.useFree n).clusters = s.clusters := (rfl)
@[simp] theorem State.useFree_dies (s : State) (n : Nat) : (s.useFree n).dies = s.dies := (rfl)
@[simp] theorem State.useFree_regions (s : State) (n : Nat) : (s.useFree n).regions = s.regions := (rfl)
@[simp] theorem State.useFree_sigs (s : State) (n : Nat) : (s.useFree n).sigs = s.sigs := (rfl)
@[simp] theorem State.useFree_takeovers (s : State) (n : Nat) : (s.useFree n).takeovers = s.takeovers := (rfl)
@[simp] theorem State.useFree_host (s : State) (n : Nat) : (s.useFree n).host = s.host := (rfl)
@[simp] theorem State.useFree_top (s : State) (n : Nat) : (s.useFree n).top = s.top := (rfl)
@[simp] theorem State.useFree_flash (s : State) (n : Nat) : (s.useFree n).flash = s.flash := (rfl)
@[simp] theorem State.useFree_fuse (s : State) (n : Nat) : (s.useFree n).fuse = s.fuse := (rfl)
@[simp] theorem State.useFree_blend (s : State) (n : Nat) : (s.useFree n).blend = s.blend := (rfl)
@[simp] theorem State.useFree_job (s : State) (n : Nat) : (s.useFree n).job = s.job := (rfl)
@[simp] theorem State.useFree_ports (s : State) (n : Nat) : (s.useFree n).ports = s.ports := (rfl)
@[simp] theorem State.useFree_coll (s : State) (n : Nat) : (s.useFree n).coll = s.coll := (rfl)
@[simp] theorem State.useFree_wts (s : State) (n : Nat) : (s.useFree n).wts = s.wts := (rfl)
@[simp] theorem State.useFree_record (s : State) (n : Nat) : (s.useFree n).record = s.record := (rfl)
@[simp] theorem State.useFree_ckp (s : State) (n : Nat) : (s.useFree n).ckp = s.ckp := (rfl)
@[simp] theorem State.useFree_sec (s : State) (n : Nat) : (s.useFree n).sec = s.sec := (rfl)
@[simp] theorem State.useFree_ktl (s : State) (n : Nat) : (s.useFree n).ktl = s.ktl := (rfl)
@[simp] theorem State.useFree_mgt (s : State) (n : Nat) : (s.useFree n).mgt = s.mgt := (rfl)
@[simp] theorem State.useFree_tim (s : State) (n : Nat) : (s.useFree n).tim = s.tim := (rfl)

/-! ### `setCore` -/

@[simp] theorem State.setCore_pending (s : State) (i : Nat) (c : Core) : (s.setCore i c).pending = s.pending := (rfl)
@[simp] theorem State.setCore_freeIx (s : State) (i : Nat) (c : Core) : (s.setCore i c).freeIx = s.freeIx := (rfl)
@[simp] theorem State.setCore_out (s : State) (i : Nat) (c : Core) : (s.setCore i c).out = s.out := (rfl)
@[simp] theorem State.setCore_regs (s : State) (i : Nat) (c : Core) : (s.setCore i c).regs = s.regs := (rfl)
@[simp] theorem State.setCore_pendRegs (s : State) (i : Nat) (c : Core) : (s.setCore i c).pendRegs = s.pendRegs := (rfl)
@[simp] theorem State.setCore_snap (s : State) (i : Nat) (c : Core) : (s.setCore i c).snap = s.snap := (rfl)
@[simp] theorem State.setCore_snapHead (s : State) (i : Nat) (c : Core) : (s.setCore i c).snapHead = s.snapHead := (rfl)
@[simp] theorem State.setCore_meshLost (s : State) (i : Nat) (c : Core) : (s.setCore i c).meshLost = s.meshLost := (rfl)
@[simp] theorem State.setCore_trcLost (s : State) (i : Nat) (c : Core) : (s.setCore i c).trcLost = s.trcLost := (rfl)
@[simp] theorem State.setCore_tsRate (s : State) (i : Nat) (c : Core) : (s.setCore i c).tsRate = s.tsRate := (rfl)
@[simp] theorem State.setCore_mem (s : State) (i : Nat) (c : Core) : (s.setCore i c).mem = s.mem := (rfl)
@[simp] theorem State.setCore_memErr (s : State) (i : Nat) (c : Core) : (s.setCore i c).memErr = s.memErr := (rfl)
@[simp] theorem State.setCore_crit (s : State) (i : Nat) (c : Core) : (s.setCore i c).crit = s.crit := (rfl)
@[simp] theorem State.setCore_stackSt (s : State) (i : Nat) (c : Core) : (s.setCore i c).stackSt = s.stackSt := (rfl)
@[simp] theorem State.setCore_cores (s : State) (i : Nat) (c : Core) : (s.setCore i c).cores = Smap.set Core.blank s.cores i c := (rfl)
@[simp] theorem State.setCore_clusters (s : State) (i : Nat) (c : Core) : (s.setCore i c).clusters = s.clusters := (rfl)
@[simp] theorem State.setCore_dies (s : State) (i : Nat) (c : Core) : (s.setCore i c).dies = s.dies := (rfl)
@[simp] theorem State.setCore_regions (s : State) (i : Nat) (c : Core) : (s.setCore i c).regions = s.regions := (rfl)
@[simp] theorem State.setCore_sigs (s : State) (i : Nat) (c : Core) : (s.setCore i c).sigs = s.sigs := (rfl)
@[simp] theorem State.setCore_takeovers (s : State) (i : Nat) (c : Core) : (s.setCore i c).takeovers = s.takeovers := (rfl)
@[simp] theorem State.setCore_host (s : State) (i : Nat) (c : Core) : (s.setCore i c).host = s.host := (rfl)
@[simp] theorem State.setCore_top (s : State) (i : Nat) (c : Core) : (s.setCore i c).top = s.top := (rfl)
@[simp] theorem State.setCore_flash (s : State) (i : Nat) (c : Core) : (s.setCore i c).flash = s.flash := (rfl)
@[simp] theorem State.setCore_fuse (s : State) (i : Nat) (c : Core) : (s.setCore i c).fuse = s.fuse := (rfl)
@[simp] theorem State.setCore_blend (s : State) (i : Nat) (c : Core) : (s.setCore i c).blend = s.blend := (rfl)
@[simp] theorem State.setCore_job (s : State) (i : Nat) (c : Core) : (s.setCore i c).job = s.job := (rfl)
@[simp] theorem State.setCore_ports (s : State) (i : Nat) (c : Core) : (s.setCore i c).ports = s.ports := (rfl)
@[simp] theorem State.setCore_coll (s : State) (i : Nat) (c : Core) : (s.setCore i c).coll = s.coll := (rfl)
@[simp] theorem State.setCore_wts (s : State) (i : Nat) (c : Core) : (s.setCore i c).wts = s.wts := (rfl)
@[simp] theorem State.setCore_record (s : State) (i : Nat) (c : Core) : (s.setCore i c).record = s.record := (rfl)
@[simp] theorem State.setCore_ckp (s : State) (i : Nat) (c : Core) : (s.setCore i c).ckp = s.ckp := (rfl)
@[simp] theorem State.setCore_sec (s : State) (i : Nat) (c : Core) : (s.setCore i c).sec = s.sec := (rfl)
@[simp] theorem State.setCore_ktl (s : State) (i : Nat) (c : Core) : (s.setCore i c).ktl = s.ktl := (rfl)
@[simp] theorem State.setCore_mgt (s : State) (i : Nat) (c : Core) : (s.setCore i c).mgt = s.mgt := (rfl)
@[simp] theorem State.setCore_tim (s : State) (i : Nat) (c : Core) : (s.setCore i c).tim = s.tim := (rfl)

/-! ### `setCluster` -/

@[simp] theorem State.setCluster_pending (s : State) (i : Nat) (c : Cluster) : (s.setCluster i c).pending = s.pending := (rfl)
@[simp] theorem State.setCluster_freeIx (s : State) (i : Nat) (c : Cluster) : (s.setCluster i c).freeIx = s.freeIx := (rfl)
@[simp] theorem State.setCluster_out (s : State) (i : Nat) (c : Cluster) : (s.setCluster i c).out = s.out := (rfl)
@[simp] theorem State.setCluster_regs (s : State) (i : Nat) (c : Cluster) : (s.setCluster i c).regs = s.regs := (rfl)
@[simp] theorem State.setCluster_pendRegs (s : State) (i : Nat) (c : Cluster) : (s.setCluster i c).pendRegs = s.pendRegs := (rfl)
@[simp] theorem State.setCluster_snap (s : State) (i : Nat) (c : Cluster) : (s.setCluster i c).snap = s.snap := (rfl)
@[simp] theorem State.setCluster_snapHead (s : State) (i : Nat) (c : Cluster) : (s.setCluster i c).snapHead = s.snapHead := (rfl)
@[simp] theorem State.setCluster_meshLost (s : State) (i : Nat) (c : Cluster) : (s.setCluster i c).meshLost = s.meshLost := (rfl)
@[simp] theorem State.setCluster_trcLost (s : State) (i : Nat) (c : Cluster) : (s.setCluster i c).trcLost = s.trcLost := (rfl)
@[simp] theorem State.setCluster_tsRate (s : State) (i : Nat) (c : Cluster) : (s.setCluster i c).tsRate = s.tsRate := (rfl)
@[simp] theorem State.setCluster_mem (s : State) (i : Nat) (c : Cluster) : (s.setCluster i c).mem = s.mem := (rfl)
@[simp] theorem State.setCluster_memErr (s : State) (i : Nat) (c : Cluster) : (s.setCluster i c).memErr = s.memErr := (rfl)
@[simp] theorem State.setCluster_crit (s : State) (i : Nat) (c : Cluster) : (s.setCluster i c).crit = s.crit := (rfl)
@[simp] theorem State.setCluster_stackSt (s : State) (i : Nat) (c : Cluster) : (s.setCluster i c).stackSt = s.stackSt := (rfl)
@[simp] theorem State.setCluster_cores (s : State) (i : Nat) (c : Cluster) : (s.setCluster i c).cores = s.cores := (rfl)
@[simp] theorem State.setCluster_clusters (s : State) (i : Nat) (c : Cluster) : (s.setCluster i c).clusters = Smap.set Cluster.blank s.clusters i c := (rfl)
@[simp] theorem State.setCluster_dies (s : State) (i : Nat) (c : Cluster) : (s.setCluster i c).dies = s.dies := (rfl)
@[simp] theorem State.setCluster_regions (s : State) (i : Nat) (c : Cluster) : (s.setCluster i c).regions = s.regions := (rfl)
@[simp] theorem State.setCluster_sigs (s : State) (i : Nat) (c : Cluster) : (s.setCluster i c).sigs = s.sigs := (rfl)
@[simp] theorem State.setCluster_takeovers (s : State) (i : Nat) (c : Cluster) : (s.setCluster i c).takeovers = s.takeovers := (rfl)
@[simp] theorem State.setCluster_host (s : State) (i : Nat) (c : Cluster) : (s.setCluster i c).host = s.host := (rfl)
@[simp] theorem State.setCluster_top (s : State) (i : Nat) (c : Cluster) : (s.setCluster i c).top = s.top := (rfl)
@[simp] theorem State.setCluster_flash (s : State) (i : Nat) (c : Cluster) : (s.setCluster i c).flash = s.flash := (rfl)
@[simp] theorem State.setCluster_fuse (s : State) (i : Nat) (c : Cluster) : (s.setCluster i c).fuse = s.fuse := (rfl)
@[simp] theorem State.setCluster_blend (s : State) (i : Nat) (c : Cluster) : (s.setCluster i c).blend = s.blend := (rfl)
@[simp] theorem State.setCluster_job (s : State) (i : Nat) (c : Cluster) : (s.setCluster i c).job = s.job := (rfl)
@[simp] theorem State.setCluster_ports (s : State) (i : Nat) (c : Cluster) : (s.setCluster i c).ports = s.ports := (rfl)
@[simp] theorem State.setCluster_coll (s : State) (i : Nat) (c : Cluster) : (s.setCluster i c).coll = s.coll := (rfl)
@[simp] theorem State.setCluster_wts (s : State) (i : Nat) (c : Cluster) : (s.setCluster i c).wts = s.wts := (rfl)
@[simp] theorem State.setCluster_record (s : State) (i : Nat) (c : Cluster) : (s.setCluster i c).record = s.record := (rfl)
@[simp] theorem State.setCluster_ckp (s : State) (i : Nat) (c : Cluster) : (s.setCluster i c).ckp = s.ckp := (rfl)
@[simp] theorem State.setCluster_sec (s : State) (i : Nat) (c : Cluster) : (s.setCluster i c).sec = s.sec := (rfl)
@[simp] theorem State.setCluster_ktl (s : State) (i : Nat) (c : Cluster) : (s.setCluster i c).ktl = s.ktl := (rfl)
@[simp] theorem State.setCluster_mgt (s : State) (i : Nat) (c : Cluster) : (s.setCluster i c).mgt = s.mgt := (rfl)
@[simp] theorem State.setCluster_tim (s : State) (i : Nat) (c : Cluster) : (s.setCluster i c).tim = s.tim := (rfl)

/-! ### `setDie` -/

@[simp] theorem State.setDie_pending (s : State) (i : Nat) (c : Die) : (s.setDie i c).pending = s.pending := (rfl)
@[simp] theorem State.setDie_freeIx (s : State) (i : Nat) (c : Die) : (s.setDie i c).freeIx = s.freeIx := (rfl)
@[simp] theorem State.setDie_out (s : State) (i : Nat) (c : Die) : (s.setDie i c).out = s.out := (rfl)
@[simp] theorem State.setDie_regs (s : State) (i : Nat) (c : Die) : (s.setDie i c).regs = s.regs := (rfl)
@[simp] theorem State.setDie_pendRegs (s : State) (i : Nat) (c : Die) : (s.setDie i c).pendRegs = s.pendRegs := (rfl)
@[simp] theorem State.setDie_snap (s : State) (i : Nat) (c : Die) : (s.setDie i c).snap = s.snap := (rfl)
@[simp] theorem State.setDie_snapHead (s : State) (i : Nat) (c : Die) : (s.setDie i c).snapHead = s.snapHead := (rfl)
@[simp] theorem State.setDie_meshLost (s : State) (i : Nat) (c : Die) : (s.setDie i c).meshLost = s.meshLost := (rfl)
@[simp] theorem State.setDie_trcLost (s : State) (i : Nat) (c : Die) : (s.setDie i c).trcLost = s.trcLost := (rfl)
@[simp] theorem State.setDie_tsRate (s : State) (i : Nat) (c : Die) : (s.setDie i c).tsRate = s.tsRate := (rfl)
@[simp] theorem State.setDie_mem (s : State) (i : Nat) (c : Die) : (s.setDie i c).mem = s.mem := (rfl)
@[simp] theorem State.setDie_memErr (s : State) (i : Nat) (c : Die) : (s.setDie i c).memErr = s.memErr := (rfl)
@[simp] theorem State.setDie_crit (s : State) (i : Nat) (c : Die) : (s.setDie i c).crit = s.crit := (rfl)
@[simp] theorem State.setDie_stackSt (s : State) (i : Nat) (c : Die) : (s.setDie i c).stackSt = s.stackSt := (rfl)
@[simp] theorem State.setDie_cores (s : State) (i : Nat) (c : Die) : (s.setDie i c).cores = s.cores := (rfl)
@[simp] theorem State.setDie_clusters (s : State) (i : Nat) (c : Die) : (s.setDie i c).clusters = s.clusters := (rfl)
@[simp] theorem State.setDie_dies (s : State) (i : Nat) (c : Die) : (s.setDie i c).dies = Smap.set Die.off s.dies i c := (rfl)
@[simp] theorem State.setDie_regions (s : State) (i : Nat) (c : Die) : (s.setDie i c).regions = s.regions := (rfl)
@[simp] theorem State.setDie_sigs (s : State) (i : Nat) (c : Die) : (s.setDie i c).sigs = s.sigs := (rfl)
@[simp] theorem State.setDie_takeovers (s : State) (i : Nat) (c : Die) : (s.setDie i c).takeovers = s.takeovers := (rfl)
@[simp] theorem State.setDie_host (s : State) (i : Nat) (c : Die) : (s.setDie i c).host = s.host := (rfl)
@[simp] theorem State.setDie_top (s : State) (i : Nat) (c : Die) : (s.setDie i c).top = s.top := (rfl)
@[simp] theorem State.setDie_flash (s : State) (i : Nat) (c : Die) : (s.setDie i c).flash = s.flash := (rfl)
@[simp] theorem State.setDie_fuse (s : State) (i : Nat) (c : Die) : (s.setDie i c).fuse = s.fuse := (rfl)
@[simp] theorem State.setDie_blend (s : State) (i : Nat) (c : Die) : (s.setDie i c).blend = s.blend := (rfl)
@[simp] theorem State.setDie_job (s : State) (i : Nat) (c : Die) : (s.setDie i c).job = s.job := (rfl)
@[simp] theorem State.setDie_ports (s : State) (i : Nat) (c : Die) : (s.setDie i c).ports = s.ports := (rfl)
@[simp] theorem State.setDie_coll (s : State) (i : Nat) (c : Die) : (s.setDie i c).coll = s.coll := (rfl)
@[simp] theorem State.setDie_wts (s : State) (i : Nat) (c : Die) : (s.setDie i c).wts = s.wts := (rfl)
@[simp] theorem State.setDie_record (s : State) (i : Nat) (c : Die) : (s.setDie i c).record = s.record := (rfl)
@[simp] theorem State.setDie_ckp (s : State) (i : Nat) (c : Die) : (s.setDie i c).ckp = s.ckp := (rfl)
@[simp] theorem State.setDie_sec (s : State) (i : Nat) (c : Die) : (s.setDie i c).sec = s.sec := (rfl)
@[simp] theorem State.setDie_ktl (s : State) (i : Nat) (c : Die) : (s.setDie i c).ktl = s.ktl := (rfl)
@[simp] theorem State.setDie_mgt (s : State) (i : Nat) (c : Die) : (s.setDie i c).mgt = s.mgt := (rfl)
@[simp] theorem State.setDie_tim (s : State) (i : Nat) (c : Die) : (s.setDie i c).tim = s.tim := (rfl)

/-! ### `setStack` -/

@[simp] theorem State.setStack_pending (s : State) (i : Nat) (c : Stack) : (s.setStack i c).pending = s.pending := (rfl)
@[simp] theorem State.setStack_freeIx (s : State) (i : Nat) (c : Stack) : (s.setStack i c).freeIx = s.freeIx := (rfl)
@[simp] theorem State.setStack_out (s : State) (i : Nat) (c : Stack) : (s.setStack i c).out = s.out := (rfl)
@[simp] theorem State.setStack_regs (s : State) (i : Nat) (c : Stack) : (s.setStack i c).regs = s.regs := (rfl)
@[simp] theorem State.setStack_pendRegs (s : State) (i : Nat) (c : Stack) : (s.setStack i c).pendRegs = s.pendRegs := (rfl)
@[simp] theorem State.setStack_snap (s : State) (i : Nat) (c : Stack) : (s.setStack i c).snap = s.snap := (rfl)
@[simp] theorem State.setStack_snapHead (s : State) (i : Nat) (c : Stack) : (s.setStack i c).snapHead = s.snapHead := (rfl)
@[simp] theorem State.setStack_meshLost (s : State) (i : Nat) (c : Stack) : (s.setStack i c).meshLost = s.meshLost := (rfl)
@[simp] theorem State.setStack_trcLost (s : State) (i : Nat) (c : Stack) : (s.setStack i c).trcLost = s.trcLost := (rfl)
@[simp] theorem State.setStack_tsRate (s : State) (i : Nat) (c : Stack) : (s.setStack i c).tsRate = s.tsRate := (rfl)
@[simp] theorem State.setStack_mem (s : State) (i : Nat) (c : Stack) : (s.setStack i c).mem = s.mem := (rfl)
@[simp] theorem State.setStack_memErr (s : State) (i : Nat) (c : Stack) : (s.setStack i c).memErr = s.memErr := (rfl)
@[simp] theorem State.setStack_crit (s : State) (i : Nat) (c : Stack) : (s.setStack i c).crit = s.crit := (rfl)
@[simp] theorem State.setStack_stackSt (s : State) (i : Nat) (c : Stack) : (s.setStack i c).stackSt = Smap.set Stack.blank s.stackSt i c := (rfl)
@[simp] theorem State.setStack_cores (s : State) (i : Nat) (c : Stack) : (s.setStack i c).cores = s.cores := (rfl)
@[simp] theorem State.setStack_clusters (s : State) (i : Nat) (c : Stack) : (s.setStack i c).clusters = s.clusters := (rfl)
@[simp] theorem State.setStack_dies (s : State) (i : Nat) (c : Stack) : (s.setStack i c).dies = s.dies := (rfl)
@[simp] theorem State.setStack_regions (s : State) (i : Nat) (c : Stack) : (s.setStack i c).regions = s.regions := (rfl)
@[simp] theorem State.setStack_sigs (s : State) (i : Nat) (c : Stack) : (s.setStack i c).sigs = s.sigs := (rfl)
@[simp] theorem State.setStack_takeovers (s : State) (i : Nat) (c : Stack) : (s.setStack i c).takeovers = s.takeovers := (rfl)
@[simp] theorem State.setStack_host (s : State) (i : Nat) (c : Stack) : (s.setStack i c).host = s.host := (rfl)
@[simp] theorem State.setStack_top (s : State) (i : Nat) (c : Stack) : (s.setStack i c).top = s.top := (rfl)
@[simp] theorem State.setStack_flash (s : State) (i : Nat) (c : Stack) : (s.setStack i c).flash = s.flash := (rfl)
@[simp] theorem State.setStack_fuse (s : State) (i : Nat) (c : Stack) : (s.setStack i c).fuse = s.fuse := (rfl)
@[simp] theorem State.setStack_blend (s : State) (i : Nat) (c : Stack) : (s.setStack i c).blend = s.blend := (rfl)
@[simp] theorem State.setStack_job (s : State) (i : Nat) (c : Stack) : (s.setStack i c).job = s.job := (rfl)
@[simp] theorem State.setStack_ports (s : State) (i : Nat) (c : Stack) : (s.setStack i c).ports = s.ports := (rfl)
@[simp] theorem State.setStack_coll (s : State) (i : Nat) (c : Stack) : (s.setStack i c).coll = s.coll := (rfl)
@[simp] theorem State.setStack_wts (s : State) (i : Nat) (c : Stack) : (s.setStack i c).wts = s.wts := (rfl)
@[simp] theorem State.setStack_record (s : State) (i : Nat) (c : Stack) : (s.setStack i c).record = s.record := (rfl)
@[simp] theorem State.setStack_ckp (s : State) (i : Nat) (c : Stack) : (s.setStack i c).ckp = s.ckp := (rfl)
@[simp] theorem State.setStack_sec (s : State) (i : Nat) (c : Stack) : (s.setStack i c).sec = s.sec := (rfl)
@[simp] theorem State.setStack_ktl (s : State) (i : Nat) (c : Stack) : (s.setStack i c).ktl = s.ktl := (rfl)
@[simp] theorem State.setStack_mgt (s : State) (i : Nat) (c : Stack) : (s.setStack i c).mgt = s.mgt := (rfl)
@[simp] theorem State.setStack_tim (s : State) (i : Nat) (c : Stack) : (s.setStack i c).tim = s.tim := (rfl)

/-! ### `setRegion` -/

@[simp] theorem State.setRegion_pending (s : State) (i : Nat) (c : Region) : (s.setRegion i c).pending = s.pending := (rfl)
@[simp] theorem State.setRegion_freeIx (s : State) (i : Nat) (c : Region) : (s.setRegion i c).freeIx = s.freeIx := (rfl)
@[simp] theorem State.setRegion_out (s : State) (i : Nat) (c : Region) : (s.setRegion i c).out = s.out := (rfl)
@[simp] theorem State.setRegion_regs (s : State) (i : Nat) (c : Region) : (s.setRegion i c).regs = s.regs := (rfl)
@[simp] theorem State.setRegion_pendRegs (s : State) (i : Nat) (c : Region) : (s.setRegion i c).pendRegs = s.pendRegs := (rfl)
@[simp] theorem State.setRegion_snap (s : State) (i : Nat) (c : Region) : (s.setRegion i c).snap = s.snap := (rfl)
@[simp] theorem State.setRegion_snapHead (s : State) (i : Nat) (c : Region) : (s.setRegion i c).snapHead = s.snapHead := (rfl)
@[simp] theorem State.setRegion_meshLost (s : State) (i : Nat) (c : Region) : (s.setRegion i c).meshLost = s.meshLost := (rfl)
@[simp] theorem State.setRegion_trcLost (s : State) (i : Nat) (c : Region) : (s.setRegion i c).trcLost = s.trcLost := (rfl)
@[simp] theorem State.setRegion_tsRate (s : State) (i : Nat) (c : Region) : (s.setRegion i c).tsRate = s.tsRate := (rfl)
@[simp] theorem State.setRegion_mem (s : State) (i : Nat) (c : Region) : (s.setRegion i c).mem = s.mem := (rfl)
@[simp] theorem State.setRegion_memErr (s : State) (i : Nat) (c : Region) : (s.setRegion i c).memErr = s.memErr := (rfl)
@[simp] theorem State.setRegion_crit (s : State) (i : Nat) (c : Region) : (s.setRegion i c).crit = s.crit := (rfl)
@[simp] theorem State.setRegion_stackSt (s : State) (i : Nat) (c : Region) : (s.setRegion i c).stackSt = s.stackSt := (rfl)
@[simp] theorem State.setRegion_cores (s : State) (i : Nat) (c : Region) : (s.setRegion i c).cores = s.cores := (rfl)
@[simp] theorem State.setRegion_clusters (s : State) (i : Nat) (c : Region) : (s.setRegion i c).clusters = s.clusters := (rfl)
@[simp] theorem State.setRegion_dies (s : State) (i : Nat) (c : Region) : (s.setRegion i c).dies = s.dies := (rfl)
@[simp] theorem State.setRegion_regions (s : State) (i : Nat) (c : Region) : (s.setRegion i c).regions = Smap.set Region.blank s.regions i c := (rfl)
@[simp] theorem State.setRegion_sigs (s : State) (i : Nat) (c : Region) : (s.setRegion i c).sigs = s.sigs := (rfl)
@[simp] theorem State.setRegion_takeovers (s : State) (i : Nat) (c : Region) : (s.setRegion i c).takeovers = s.takeovers := (rfl)
@[simp] theorem State.setRegion_host (s : State) (i : Nat) (c : Region) : (s.setRegion i c).host = s.host := (rfl)
@[simp] theorem State.setRegion_top (s : State) (i : Nat) (c : Region) : (s.setRegion i c).top = s.top := (rfl)
@[simp] theorem State.setRegion_flash (s : State) (i : Nat) (c : Region) : (s.setRegion i c).flash = s.flash := (rfl)
@[simp] theorem State.setRegion_fuse (s : State) (i : Nat) (c : Region) : (s.setRegion i c).fuse = s.fuse := (rfl)
@[simp] theorem State.setRegion_blend (s : State) (i : Nat) (c : Region) : (s.setRegion i c).blend = s.blend := (rfl)
@[simp] theorem State.setRegion_job (s : State) (i : Nat) (c : Region) : (s.setRegion i c).job = s.job := (rfl)
@[simp] theorem State.setRegion_ports (s : State) (i : Nat) (c : Region) : (s.setRegion i c).ports = s.ports := (rfl)
@[simp] theorem State.setRegion_coll (s : State) (i : Nat) (c : Region) : (s.setRegion i c).coll = s.coll := (rfl)
@[simp] theorem State.setRegion_wts (s : State) (i : Nat) (c : Region) : (s.setRegion i c).wts = s.wts := (rfl)
@[simp] theorem State.setRegion_record (s : State) (i : Nat) (c : Region) : (s.setRegion i c).record = s.record := (rfl)
@[simp] theorem State.setRegion_ckp (s : State) (i : Nat) (c : Region) : (s.setRegion i c).ckp = s.ckp := (rfl)
@[simp] theorem State.setRegion_sec (s : State) (i : Nat) (c : Region) : (s.setRegion i c).sec = s.sec := (rfl)
@[simp] theorem State.setRegion_ktl (s : State) (i : Nat) (c : Region) : (s.setRegion i c).ktl = s.ktl := (rfl)
@[simp] theorem State.setRegion_mgt (s : State) (i : Nat) (c : Region) : (s.setRegion i c).mgt = s.mgt := (rfl)
@[simp] theorem State.setRegion_tim (s : State) (i : Nat) (c : Region) : (s.setRegion i c).tim = s.tim := (rfl)

/-! ### `setPort` -/

@[simp] theorem State.setPort_pending (s : State) (i : Nat) (c : Port) : (s.setPort i c).pending = s.pending := (rfl)
@[simp] theorem State.setPort_freeIx (s : State) (i : Nat) (c : Port) : (s.setPort i c).freeIx = s.freeIx := (rfl)
@[simp] theorem State.setPort_out (s : State) (i : Nat) (c : Port) : (s.setPort i c).out = s.out := (rfl)
@[simp] theorem State.setPort_regs (s : State) (i : Nat) (c : Port) : (s.setPort i c).regs = s.regs := (rfl)
@[simp] theorem State.setPort_pendRegs (s : State) (i : Nat) (c : Port) : (s.setPort i c).pendRegs = s.pendRegs := (rfl)
@[simp] theorem State.setPort_snap (s : State) (i : Nat) (c : Port) : (s.setPort i c).snap = s.snap := (rfl)
@[simp] theorem State.setPort_snapHead (s : State) (i : Nat) (c : Port) : (s.setPort i c).snapHead = s.snapHead := (rfl)
@[simp] theorem State.setPort_meshLost (s : State) (i : Nat) (c : Port) : (s.setPort i c).meshLost = s.meshLost := (rfl)
@[simp] theorem State.setPort_trcLost (s : State) (i : Nat) (c : Port) : (s.setPort i c).trcLost = s.trcLost := (rfl)
@[simp] theorem State.setPort_tsRate (s : State) (i : Nat) (c : Port) : (s.setPort i c).tsRate = s.tsRate := (rfl)
@[simp] theorem State.setPort_mem (s : State) (i : Nat) (c : Port) : (s.setPort i c).mem = s.mem := (rfl)
@[simp] theorem State.setPort_memErr (s : State) (i : Nat) (c : Port) : (s.setPort i c).memErr = s.memErr := (rfl)
@[simp] theorem State.setPort_crit (s : State) (i : Nat) (c : Port) : (s.setPort i c).crit = s.crit := (rfl)
@[simp] theorem State.setPort_stackSt (s : State) (i : Nat) (c : Port) : (s.setPort i c).stackSt = s.stackSt := (rfl)
@[simp] theorem State.setPort_cores (s : State) (i : Nat) (c : Port) : (s.setPort i c).cores = s.cores := (rfl)
@[simp] theorem State.setPort_clusters (s : State) (i : Nat) (c : Port) : (s.setPort i c).clusters = s.clusters := (rfl)
@[simp] theorem State.setPort_dies (s : State) (i : Nat) (c : Port) : (s.setPort i c).dies = s.dies := (rfl)
@[simp] theorem State.setPort_regions (s : State) (i : Nat) (c : Port) : (s.setPort i c).regions = s.regions := (rfl)
@[simp] theorem State.setPort_sigs (s : State) (i : Nat) (c : Port) : (s.setPort i c).sigs = s.sigs := (rfl)
@[simp] theorem State.setPort_takeovers (s : State) (i : Nat) (c : Port) : (s.setPort i c).takeovers = s.takeovers := (rfl)
@[simp] theorem State.setPort_host (s : State) (i : Nat) (c : Port) : (s.setPort i c).host = s.host := (rfl)
@[simp] theorem State.setPort_top (s : State) (i : Nat) (c : Port) : (s.setPort i c).top = s.top := (rfl)
@[simp] theorem State.setPort_flash (s : State) (i : Nat) (c : Port) : (s.setPort i c).flash = s.flash := (rfl)
@[simp] theorem State.setPort_fuse (s : State) (i : Nat) (c : Port) : (s.setPort i c).fuse = s.fuse := (rfl)
@[simp] theorem State.setPort_blend (s : State) (i : Nat) (c : Port) : (s.setPort i c).blend = s.blend := (rfl)
@[simp] theorem State.setPort_job (s : State) (i : Nat) (c : Port) : (s.setPort i c).job = s.job := (rfl)
@[simp] theorem State.setPort_ports (s : State) (i : Nat) (c : Port) : (s.setPort i c).ports = Smap.set Port.down s.ports i c := (rfl)
@[simp] theorem State.setPort_coll (s : State) (i : Nat) (c : Port) : (s.setPort i c).coll = s.coll := (rfl)
@[simp] theorem State.setPort_wts (s : State) (i : Nat) (c : Port) : (s.setPort i c).wts = s.wts := (rfl)
@[simp] theorem State.setPort_record (s : State) (i : Nat) (c : Port) : (s.setPort i c).record = s.record := (rfl)
@[simp] theorem State.setPort_ckp (s : State) (i : Nat) (c : Port) : (s.setPort i c).ckp = s.ckp := (rfl)
@[simp] theorem State.setPort_sec (s : State) (i : Nat) (c : Port) : (s.setPort i c).sec = s.sec := (rfl)
@[simp] theorem State.setPort_ktl (s : State) (i : Nat) (c : Port) : (s.setPort i c).ktl = s.ktl := (rfl)
@[simp] theorem State.setPort_mgt (s : State) (i : Nat) (c : Port) : (s.setPort i c).mgt = s.mgt := (rfl)
@[simp] theorem State.setPort_tim (s : State) (i : Nat) (c : Port) : (s.setPort i c).tim = s.tim := (rfl)

/-! ### `pokeAddr` -/

@[simp] theorem State.pokeAddr_pending (s : State) (a : Nat) (v : Word) : (s.pokeAddr a v).pending = s.pending := (rfl)
@[simp] theorem State.pokeAddr_freeIx (s : State) (a : Nat) (v : Word) : (s.pokeAddr a v).freeIx = s.freeIx := (rfl)
@[simp] theorem State.pokeAddr_out (s : State) (a : Nat) (v : Word) : (s.pokeAddr a v).out = s.out := (rfl)
@[simp] theorem State.pokeAddr_regs (s : State) (a : Nat) (v : Word) : (s.pokeAddr a v).regs = Smap.set (regReset a) s.regs a v := (rfl)
@[simp] theorem State.pokeAddr_pendRegs (s : State) (a : Nat) (v : Word) : (s.pokeAddr a v).pendRegs = s.pendRegs := (rfl)
@[simp] theorem State.pokeAddr_snap (s : State) (a : Nat) (v : Word) : (s.pokeAddr a v).snap = s.snap := (rfl)
@[simp] theorem State.pokeAddr_snapHead (s : State) (a : Nat) (v : Word) : (s.pokeAddr a v).snapHead = s.snapHead := (rfl)
@[simp] theorem State.pokeAddr_meshLost (s : State) (a : Nat) (v : Word) : (s.pokeAddr a v).meshLost = s.meshLost := (rfl)
@[simp] theorem State.pokeAddr_trcLost (s : State) (a : Nat) (v : Word) : (s.pokeAddr a v).trcLost = s.trcLost := (rfl)
@[simp] theorem State.pokeAddr_tsRate (s : State) (a : Nat) (v : Word) : (s.pokeAddr a v).tsRate = s.tsRate := (rfl)
@[simp] theorem State.pokeAddr_mem (s : State) (a : Nat) (v : Word) : (s.pokeAddr a v).mem = s.mem := (rfl)
@[simp] theorem State.pokeAddr_memErr (s : State) (a : Nat) (v : Word) : (s.pokeAddr a v).memErr = s.memErr := (rfl)
@[simp] theorem State.pokeAddr_crit (s : State) (a : Nat) (v : Word) : (s.pokeAddr a v).crit = s.crit := (rfl)
@[simp] theorem State.pokeAddr_stackSt (s : State) (a : Nat) (v : Word) : (s.pokeAddr a v).stackSt = s.stackSt := (rfl)
@[simp] theorem State.pokeAddr_cores (s : State) (a : Nat) (v : Word) : (s.pokeAddr a v).cores = s.cores := (rfl)
@[simp] theorem State.pokeAddr_clusters (s : State) (a : Nat) (v : Word) : (s.pokeAddr a v).clusters = s.clusters := (rfl)
@[simp] theorem State.pokeAddr_dies (s : State) (a : Nat) (v : Word) : (s.pokeAddr a v).dies = s.dies := (rfl)
@[simp] theorem State.pokeAddr_regions (s : State) (a : Nat) (v : Word) : (s.pokeAddr a v).regions = s.regions := (rfl)
@[simp] theorem State.pokeAddr_sigs (s : State) (a : Nat) (v : Word) : (s.pokeAddr a v).sigs = s.sigs := (rfl)
@[simp] theorem State.pokeAddr_takeovers (s : State) (a : Nat) (v : Word) : (s.pokeAddr a v).takeovers = s.takeovers := (rfl)
@[simp] theorem State.pokeAddr_host (s : State) (a : Nat) (v : Word) : (s.pokeAddr a v).host = s.host := (rfl)
@[simp] theorem State.pokeAddr_top (s : State) (a : Nat) (v : Word) : (s.pokeAddr a v).top = s.top := (rfl)
@[simp] theorem State.pokeAddr_flash (s : State) (a : Nat) (v : Word) : (s.pokeAddr a v).flash = s.flash := (rfl)
@[simp] theorem State.pokeAddr_fuse (s : State) (a : Nat) (v : Word) : (s.pokeAddr a v).fuse = s.fuse := (rfl)
@[simp] theorem State.pokeAddr_blend (s : State) (a : Nat) (v : Word) : (s.pokeAddr a v).blend = s.blend := (rfl)
@[simp] theorem State.pokeAddr_job (s : State) (a : Nat) (v : Word) : (s.pokeAddr a v).job = s.job := (rfl)
@[simp] theorem State.pokeAddr_ports (s : State) (a : Nat) (v : Word) : (s.pokeAddr a v).ports = s.ports := (rfl)
@[simp] theorem State.pokeAddr_coll (s : State) (a : Nat) (v : Word) : (s.pokeAddr a v).coll = s.coll := (rfl)
@[simp] theorem State.pokeAddr_wts (s : State) (a : Nat) (v : Word) : (s.pokeAddr a v).wts = s.wts := (rfl)
@[simp] theorem State.pokeAddr_record (s : State) (a : Nat) (v : Word) : (s.pokeAddr a v).record = s.record := (rfl)
@[simp] theorem State.pokeAddr_ckp (s : State) (a : Nat) (v : Word) : (s.pokeAddr a v).ckp = s.ckp := (rfl)
@[simp] theorem State.pokeAddr_sec (s : State) (a : Nat) (v : Word) : (s.pokeAddr a v).sec = s.sec := (rfl)
@[simp] theorem State.pokeAddr_ktl (s : State) (a : Nat) (v : Word) : (s.pokeAddr a v).ktl = s.ktl := (rfl)
@[simp] theorem State.pokeAddr_mgt (s : State) (a : Nat) (v : Word) : (s.pokeAddr a v).mgt = s.mgt := (rfl)
@[simp] theorem State.pokeAddr_tim (s : State) (a : Nat) (v : Word) : (s.pokeAddr a v).tim = s.tim := (rfl)

/-! ### `check` -/

@[simp] theorem State.check_pending (s : State) (k p f r e : Nat) : (s.check k p f r e).pending = s.pending := (rfl)
@[simp] theorem State.check_freeIx (s : State) (k p f r e : Nat) : (s.check k p f r e).freeIx = s.freeIx := (rfl)
@[simp] theorem State.check_out (s : State) (k p f r e : Nat) : (s.check k p f r e).out = s.out := (rfl)
@[simp] theorem State.check_regs (s : State) (k p f r e : Nat) : (s.check k p f r e).regs = s.regs := (rfl)
@[simp] theorem State.check_pendRegs (s : State) (k p f r e : Nat) : (s.check k p f r e).pendRegs = s.pendRegs := (rfl)
@[simp] theorem State.check_snap (s : State) (k p f r e : Nat) : (s.check k p f r e).snap = s.snap := (rfl)
@[simp] theorem State.check_snapHead (s : State) (k p f r e : Nat) : (s.check k p f r e).snapHead = s.snapHead := (rfl)
@[simp] theorem State.check_meshLost (s : State) (k p f r e : Nat) : (s.check k p f r e).meshLost = s.meshLost := (rfl)
@[simp] theorem State.check_trcLost (s : State) (k p f r e : Nat) : (s.check k p f r e).trcLost = s.trcLost := (rfl)
@[simp] theorem State.check_tsRate (s : State) (k p f r e : Nat) : (s.check k p f r e).tsRate = s.tsRate := (rfl)
@[simp] theorem State.check_mem (s : State) (k p f r e : Nat) : (s.check k p f r e).mem = s.mem := (rfl)
@[simp] theorem State.check_memErr (s : State) (k p f r e : Nat) : (s.check k p f r e).memErr = s.memErr := (rfl)
@[simp] theorem State.check_crit (s : State) (k p f r e : Nat) : (s.check k p f r e).crit = s.crit := (rfl)
@[simp] theorem State.check_stackSt (s : State) (k p f r e : Nat) : (s.check k p f r e).stackSt = s.stackSt := (rfl)
@[simp] theorem State.check_cores (s : State) (k p f r e : Nat) : (s.check k p f r e).cores = s.cores := (rfl)
@[simp] theorem State.check_clusters (s : State) (k p f r e : Nat) : (s.check k p f r e).clusters = s.clusters := (rfl)
@[simp] theorem State.check_dies (s : State) (k p f r e : Nat) : (s.check k p f r e).dies = s.dies := (rfl)
@[simp] theorem State.check_regions (s : State) (k p f r e : Nat) : (s.check k p f r e).regions = s.regions := (rfl)
@[simp] theorem State.check_sigs (s : State) (k p f r e : Nat) : (s.check k p f r e).sigs = s.sigs := (rfl)
@[simp] theorem State.check_takeovers (s : State) (k p f r e : Nat) : (s.check k p f r e).takeovers = s.takeovers := (rfl)
@[simp] theorem State.check_host (s : State) (k p f r e : Nat) : (s.check k p f r e).host = s.host := (rfl)
@[simp] theorem State.check_top (s : State) (k p f r e : Nat) : (s.check k p f r e).top = s.top := (rfl)
@[simp] theorem State.check_flash (s : State) (k p f r e : Nat) : (s.check k p f r e).flash = s.flash := (rfl)
@[simp] theorem State.check_fuse (s : State) (k p f r e : Nat) : (s.check k p f r e).fuse = s.fuse := (rfl)
@[simp] theorem State.check_blend (s : State) (k p f r e : Nat) : (s.check k p f r e).blend = s.blend := (rfl)
@[simp] theorem State.check_job (s : State) (k p f r e : Nat) : (s.check k p f r e).job = s.job := (rfl)
@[simp] theorem State.check_ports (s : State) (k p f r e : Nat) : (s.check k p f r e).ports = s.ports := (rfl)
@[simp] theorem State.check_coll (s : State) (k p f r e : Nat) : (s.check k p f r e).coll = s.coll := (rfl)
@[simp] theorem State.check_wts (s : State) (k p f r e : Nat) : (s.check k p f r e).wts = s.wts := (rfl)
@[simp] theorem State.check_ckp (s : State) (k p f r e : Nat) : (s.check k p f r e).ckp = s.ckp := (rfl)
@[simp] theorem State.check_sec (s : State) (k p f r e : Nat) : (s.check k p f r e).sec = s.sec := (rfl)
@[simp] theorem State.check_ktl (s : State) (k p f r e : Nat) : (s.check k p f r e).ktl = s.ktl := (rfl)
@[simp] theorem State.check_mgt (s : State) (k p f r e : Nat) : (s.check k p f r e).mgt = s.mgt := (rfl)
@[simp] theorem State.check_tim (s : State) (k p f r e : Nat) : (s.check k p f r e).tim = s.tim := (rfl)

/-! ### `enqueueEvt` -/

@[simp] theorem State.enqueueEvt_pending (s : State) (k : Nat) (p : List Byte) : (s.enqueueEvt k p).pending = s.pending := (rfl)
@[simp] theorem State.enqueueEvt_freeIx (s : State) (k : Nat) (p : List Byte) : (s.enqueueEvt k p).freeIx = s.freeIx := (rfl)
@[simp] theorem State.enqueueEvt_out (s : State) (k : Nat) (p : List Byte) : (s.enqueueEvt k p).out = s.out := (rfl)
@[simp] theorem State.enqueueEvt_regs (s : State) (k : Nat) (p : List Byte) : (s.enqueueEvt k p).regs = s.regs := (rfl)
@[simp] theorem State.enqueueEvt_pendRegs (s : State) (k : Nat) (p : List Byte) : (s.enqueueEvt k p).pendRegs = s.pendRegs := (rfl)
@[simp] theorem State.enqueueEvt_snap (s : State) (k : Nat) (p : List Byte) : (s.enqueueEvt k p).snap = s.snap := (rfl)
@[simp] theorem State.enqueueEvt_snapHead (s : State) (k : Nat) (p : List Byte) : (s.enqueueEvt k p).snapHead = s.snapHead := (rfl)
@[simp] theorem State.enqueueEvt_meshLost (s : State) (k : Nat) (p : List Byte) : (s.enqueueEvt k p).meshLost = s.meshLost := (rfl)
@[simp] theorem State.enqueueEvt_trcLost (s : State) (k : Nat) (p : List Byte) : (s.enqueueEvt k p).trcLost = s.trcLost := (rfl)
@[simp] theorem State.enqueueEvt_tsRate (s : State) (k : Nat) (p : List Byte) : (s.enqueueEvt k p).tsRate = s.tsRate := (rfl)
@[simp] theorem State.enqueueEvt_mem (s : State) (k : Nat) (p : List Byte) : (s.enqueueEvt k p).mem = s.mem := (rfl)
@[simp] theorem State.enqueueEvt_memErr (s : State) (k : Nat) (p : List Byte) : (s.enqueueEvt k p).memErr = s.memErr := (rfl)
@[simp] theorem State.enqueueEvt_crit (s : State) (k : Nat) (p : List Byte) : (s.enqueueEvt k p).crit = s.crit := (rfl)
@[simp] theorem State.enqueueEvt_stackSt (s : State) (k : Nat) (p : List Byte) : (s.enqueueEvt k p).stackSt = s.stackSt := (rfl)
@[simp] theorem State.enqueueEvt_cores (s : State) (k : Nat) (p : List Byte) : (s.enqueueEvt k p).cores = s.cores := (rfl)
@[simp] theorem State.enqueueEvt_clusters (s : State) (k : Nat) (p : List Byte) : (s.enqueueEvt k p).clusters = s.clusters := (rfl)
@[simp] theorem State.enqueueEvt_dies (s : State) (k : Nat) (p : List Byte) : (s.enqueueEvt k p).dies = s.dies := (rfl)
@[simp] theorem State.enqueueEvt_regions (s : State) (k : Nat) (p : List Byte) : (s.enqueueEvt k p).regions = s.regions := (rfl)
@[simp] theorem State.enqueueEvt_sigs (s : State) (k : Nat) (p : List Byte) : (s.enqueueEvt k p).sigs = s.sigs := (rfl)
@[simp] theorem State.enqueueEvt_takeovers (s : State) (k : Nat) (p : List Byte) : (s.enqueueEvt k p).takeovers = s.takeovers := (rfl)
@[simp] theorem State.enqueueEvt_top (s : State) (k : Nat) (p : List Byte) : (s.enqueueEvt k p).top = s.top := (rfl)
@[simp] theorem State.enqueueEvt_flash (s : State) (k : Nat) (p : List Byte) : (s.enqueueEvt k p).flash = s.flash := (rfl)
@[simp] theorem State.enqueueEvt_fuse (s : State) (k : Nat) (p : List Byte) : (s.enqueueEvt k p).fuse = s.fuse := (rfl)
@[simp] theorem State.enqueueEvt_blend (s : State) (k : Nat) (p : List Byte) : (s.enqueueEvt k p).blend = s.blend := (rfl)
@[simp] theorem State.enqueueEvt_job (s : State) (k : Nat) (p : List Byte) : (s.enqueueEvt k p).job = s.job := (rfl)
@[simp] theorem State.enqueueEvt_ports (s : State) (k : Nat) (p : List Byte) : (s.enqueueEvt k p).ports = s.ports := (rfl)
@[simp] theorem State.enqueueEvt_coll (s : State) (k : Nat) (p : List Byte) : (s.enqueueEvt k p).coll = s.coll := (rfl)
@[simp] theorem State.enqueueEvt_wts (s : State) (k : Nat) (p : List Byte) : (s.enqueueEvt k p).wts = s.wts := (rfl)
@[simp] theorem State.enqueueEvt_record (s : State) (k : Nat) (p : List Byte) : (s.enqueueEvt k p).record = s.record := (rfl)
@[simp] theorem State.enqueueEvt_ckp (s : State) (k : Nat) (p : List Byte) : (s.enqueueEvt k p).ckp = s.ckp := (rfl)
@[simp] theorem State.enqueueEvt_sec (s : State) (k : Nat) (p : List Byte) : (s.enqueueEvt k p).sec = s.sec := (rfl)
@[simp] theorem State.enqueueEvt_ktl (s : State) (k : Nat) (p : List Byte) : (s.enqueueEvt k p).ktl = s.ktl := (rfl)
@[simp] theorem State.enqueueEvt_mgt (s : State) (k : Nat) (p : List Byte) : (s.enqueueEvt k p).mgt = s.mgt := (rfl)
@[simp] theorem State.enqueueEvt_tim (s : State) (k : Nat) (p : List Byte) : (s.enqueueEvt k p).tim = s.tim := (rfl)

/-! ### `answer` -/

@[simp] theorem State.answer_pending (s : State) (st : Status) : (s.answer st).pending = s.pending := (rfl)
@[simp] theorem State.answer_freeIx (s : State) (st : Status) : (s.answer st).freeIx = s.freeIx := (rfl)
@[simp] theorem State.answer_regs (s : State) (st : Status) : (s.answer st).regs = s.regs := (rfl)
@[simp] theorem State.answer_pendRegs (s : State) (st : Status) : (s.answer st).pendRegs = s.pendRegs := (rfl)
@[simp] theorem State.answer_snap (s : State) (st : Status) : (s.answer st).snap = s.snap := (rfl)
@[simp] theorem State.answer_snapHead (s : State) (st : Status) : (s.answer st).snapHead = s.snapHead := (rfl)
@[simp] theorem State.answer_meshLost (s : State) (st : Status) : (s.answer st).meshLost = s.meshLost := (rfl)
@[simp] theorem State.answer_trcLost (s : State) (st : Status) : (s.answer st).trcLost = s.trcLost := (rfl)
@[simp] theorem State.answer_tsRate (s : State) (st : Status) : (s.answer st).tsRate = s.tsRate := (rfl)
@[simp] theorem State.answer_mem (s : State) (st : Status) : (s.answer st).mem = s.mem := (rfl)
@[simp] theorem State.answer_memErr (s : State) (st : Status) : (s.answer st).memErr = s.memErr := (rfl)
@[simp] theorem State.answer_crit (s : State) (st : Status) : (s.answer st).crit = s.crit := (rfl)
@[simp] theorem State.answer_stackSt (s : State) (st : Status) : (s.answer st).stackSt = s.stackSt := (rfl)
@[simp] theorem State.answer_cores (s : State) (st : Status) : (s.answer st).cores = s.cores := (rfl)
@[simp] theorem State.answer_clusters (s : State) (st : Status) : (s.answer st).clusters = s.clusters := (rfl)
@[simp] theorem State.answer_dies (s : State) (st : Status) : (s.answer st).dies = s.dies := (rfl)
@[simp] theorem State.answer_regions (s : State) (st : Status) : (s.answer st).regions = s.regions := (rfl)
@[simp] theorem State.answer_sigs (s : State) (st : Status) : (s.answer st).sigs = s.sigs := (rfl)
@[simp] theorem State.answer_takeovers (s : State) (st : Status) : (s.answer st).takeovers = s.takeovers := (rfl)
@[simp] theorem State.answer_host (s : State) (st : Status) : (s.answer st).host = s.host := (rfl)
@[simp] theorem State.answer_top (s : State) (st : Status) : (s.answer st).top = s.top := (rfl)
@[simp] theorem State.answer_flash (s : State) (st : Status) : (s.answer st).flash = s.flash := (rfl)
@[simp] theorem State.answer_fuse (s : State) (st : Status) : (s.answer st).fuse = s.fuse := (rfl)
@[simp] theorem State.answer_blend (s : State) (st : Status) : (s.answer st).blend = s.blend := (rfl)
@[simp] theorem State.answer_job (s : State) (st : Status) : (s.answer st).job = s.job := (rfl)
@[simp] theorem State.answer_ports (s : State) (st : Status) : (s.answer st).ports = s.ports := (rfl)
@[simp] theorem State.answer_coll (s : State) (st : Status) : (s.answer st).coll = s.coll := (rfl)
@[simp] theorem State.answer_wts (s : State) (st : Status) : (s.answer st).wts = s.wts := (rfl)
@[simp] theorem State.answer_record (s : State) (st : Status) : (s.answer st).record = s.record := (rfl)
@[simp] theorem State.answer_ckp (s : State) (st : Status) : (s.answer st).ckp = s.ckp := (rfl)
@[simp] theorem State.answer_sec (s : State) (st : Status) : (s.answer st).sec = s.sec := (rfl)
@[simp] theorem State.answer_ktl (s : State) (st : Status) : (s.answer st).ktl = s.ktl := (rfl)
@[simp] theorem State.answer_mgt (s : State) (st : Status) : (s.answer st).mgt = s.mgt := (rfl)
@[simp] theorem State.answer_tim (s : State) (st : Status) : (s.answer st).tim = s.tim := (rfl)

/-! ### `poke` -/

@[simp] theorem State.poke_pending (s : State) (b : RBlk) (i o : Nat) (v : Word) : (s.poke b i o v).pending = s.pending := (rfl)
@[simp] theorem State.poke_freeIx (s : State) (b : RBlk) (i o : Nat) (v : Word) : (s.poke b i o v).freeIx = s.freeIx := (rfl)
@[simp] theorem State.poke_out (s : State) (b : RBlk) (i o : Nat) (v : Word) : (s.poke b i o v).out = s.out := (rfl)
@[simp] theorem State.poke_pendRegs (s : State) (b : RBlk) (i o : Nat) (v : Word) : (s.poke b i o v).pendRegs = s.pendRegs := (rfl)
@[simp] theorem State.poke_snap (s : State) (b : RBlk) (i o : Nat) (v : Word) : (s.poke b i o v).snap = s.snap := (rfl)
@[simp] theorem State.poke_snapHead (s : State) (b : RBlk) (i o : Nat) (v : Word) : (s.poke b i o v).snapHead = s.snapHead := (rfl)
@[simp] theorem State.poke_meshLost (s : State) (b : RBlk) (i o : Nat) (v : Word) : (s.poke b i o v).meshLost = s.meshLost := (rfl)
@[simp] theorem State.poke_trcLost (s : State) (b : RBlk) (i o : Nat) (v : Word) : (s.poke b i o v).trcLost = s.trcLost := (rfl)
@[simp] theorem State.poke_tsRate (s : State) (b : RBlk) (i o : Nat) (v : Word) : (s.poke b i o v).tsRate = s.tsRate := (rfl)
@[simp] theorem State.poke_mem (s : State) (b : RBlk) (i o : Nat) (v : Word) : (s.poke b i o v).mem = s.mem := (rfl)
@[simp] theorem State.poke_memErr (s : State) (b : RBlk) (i o : Nat) (v : Word) : (s.poke b i o v).memErr = s.memErr := (rfl)
@[simp] theorem State.poke_crit (s : State) (b : RBlk) (i o : Nat) (v : Word) : (s.poke b i o v).crit = s.crit := (rfl)
@[simp] theorem State.poke_stackSt (s : State) (b : RBlk) (i o : Nat) (v : Word) : (s.poke b i o v).stackSt = s.stackSt := (rfl)
@[simp] theorem State.poke_cores (s : State) (b : RBlk) (i o : Nat) (v : Word) : (s.poke b i o v).cores = s.cores := (rfl)
@[simp] theorem State.poke_clusters (s : State) (b : RBlk) (i o : Nat) (v : Word) : (s.poke b i o v).clusters = s.clusters := (rfl)
@[simp] theorem State.poke_dies (s : State) (b : RBlk) (i o : Nat) (v : Word) : (s.poke b i o v).dies = s.dies := (rfl)
@[simp] theorem State.poke_regions (s : State) (b : RBlk) (i o : Nat) (v : Word) : (s.poke b i o v).regions = s.regions := (rfl)
@[simp] theorem State.poke_sigs (s : State) (b : RBlk) (i o : Nat) (v : Word) : (s.poke b i o v).sigs = s.sigs := (rfl)
@[simp] theorem State.poke_takeovers (s : State) (b : RBlk) (i o : Nat) (v : Word) : (s.poke b i o v).takeovers = s.takeovers := (rfl)
@[simp] theorem State.poke_host (s : State) (b : RBlk) (i o : Nat) (v : Word) : (s.poke b i o v).host = s.host := (rfl)
@[simp] theorem State.poke_top (s : State) (b : RBlk) (i o : Nat) (v : Word) : (s.poke b i o v).top = s.top := (rfl)
@[simp] theorem State.poke_flash (s : State) (b : RBlk) (i o : Nat) (v : Word) : (s.poke b i o v).flash = s.flash := (rfl)
@[simp] theorem State.poke_fuse (s : State) (b : RBlk) (i o : Nat) (v : Word) : (s.poke b i o v).fuse = s.fuse := (rfl)
@[simp] theorem State.poke_blend (s : State) (b : RBlk) (i o : Nat) (v : Word) : (s.poke b i o v).blend = s.blend := (rfl)
@[simp] theorem State.poke_job (s : State) (b : RBlk) (i o : Nat) (v : Word) : (s.poke b i o v).job = s.job := (rfl)
@[simp] theorem State.poke_ports (s : State) (b : RBlk) (i o : Nat) (v : Word) : (s.poke b i o v).ports = s.ports := (rfl)
@[simp] theorem State.poke_coll (s : State) (b : RBlk) (i o : Nat) (v : Word) : (s.poke b i o v).coll = s.coll := (rfl)
@[simp] theorem State.poke_wts (s : State) (b : RBlk) (i o : Nat) (v : Word) : (s.poke b i o v).wts = s.wts := (rfl)
@[simp] theorem State.poke_record (s : State) (b : RBlk) (i o : Nat) (v : Word) : (s.poke b i o v).record = s.record := (rfl)
@[simp] theorem State.poke_ckp (s : State) (b : RBlk) (i o : Nat) (v : Word) : (s.poke b i o v).ckp = s.ckp := (rfl)
@[simp] theorem State.poke_sec (s : State) (b : RBlk) (i o : Nat) (v : Word) : (s.poke b i o v).sec = s.sec := (rfl)
@[simp] theorem State.poke_ktl (s : State) (b : RBlk) (i o : Nat) (v : Word) : (s.poke b i o v).ktl = s.ktl := (rfl)
@[simp] theorem State.poke_mgt (s : State) (b : RBlk) (i o : Nat) (v : Word) : (s.poke b i o v).mgt = s.mgt := (rfl)
@[simp] theorem State.poke_tim (s : State) (b : RBlk) (i o : Nat) (v : Word) : (s.poke b i o v).tim = s.tim := (rfl)

/-! ### `rset` -/

@[simp] theorem State.rset_pending (s : State) (b : RBlk) (i o hi lo v : Nat) : (s.rset b i o hi lo v).pending = s.pending := (rfl)
@[simp] theorem State.rset_freeIx (s : State) (b : RBlk) (i o hi lo v : Nat) : (s.rset b i o hi lo v).freeIx = s.freeIx := (rfl)
@[simp] theorem State.rset_out (s : State) (b : RBlk) (i o hi lo v : Nat) : (s.rset b i o hi lo v).out = s.out := (rfl)
@[simp] theorem State.rset_pendRegs (s : State) (b : RBlk) (i o hi lo v : Nat) : (s.rset b i o hi lo v).pendRegs = s.pendRegs := (rfl)
@[simp] theorem State.rset_snap (s : State) (b : RBlk) (i o hi lo v : Nat) : (s.rset b i o hi lo v).snap = s.snap := (rfl)
@[simp] theorem State.rset_snapHead (s : State) (b : RBlk) (i o hi lo v : Nat) : (s.rset b i o hi lo v).snapHead = s.snapHead := (rfl)
@[simp] theorem State.rset_meshLost (s : State) (b : RBlk) (i o hi lo v : Nat) : (s.rset b i o hi lo v).meshLost = s.meshLost := (rfl)
@[simp] theorem State.rset_trcLost (s : State) (b : RBlk) (i o hi lo v : Nat) : (s.rset b i o hi lo v).trcLost = s.trcLost := (rfl)
@[simp] theorem State.rset_tsRate (s : State) (b : RBlk) (i o hi lo v : Nat) : (s.rset b i o hi lo v).tsRate = s.tsRate := (rfl)
@[simp] theorem State.rset_mem (s : State) (b : RBlk) (i o hi lo v : Nat) : (s.rset b i o hi lo v).mem = s.mem := (rfl)
@[simp] theorem State.rset_memErr (s : State) (b : RBlk) (i o hi lo v : Nat) : (s.rset b i o hi lo v).memErr = s.memErr := (rfl)
@[simp] theorem State.rset_crit (s : State) (b : RBlk) (i o hi lo v : Nat) : (s.rset b i o hi lo v).crit = s.crit := (rfl)
@[simp] theorem State.rset_stackSt (s : State) (b : RBlk) (i o hi lo v : Nat) : (s.rset b i o hi lo v).stackSt = s.stackSt := (rfl)
@[simp] theorem State.rset_cores (s : State) (b : RBlk) (i o hi lo v : Nat) : (s.rset b i o hi lo v).cores = s.cores := (rfl)
@[simp] theorem State.rset_clusters (s : State) (b : RBlk) (i o hi lo v : Nat) : (s.rset b i o hi lo v).clusters = s.clusters := (rfl)
@[simp] theorem State.rset_dies (s : State) (b : RBlk) (i o hi lo v : Nat) : (s.rset b i o hi lo v).dies = s.dies := (rfl)
@[simp] theorem State.rset_regions (s : State) (b : RBlk) (i o hi lo v : Nat) : (s.rset b i o hi lo v).regions = s.regions := (rfl)
@[simp] theorem State.rset_sigs (s : State) (b : RBlk) (i o hi lo v : Nat) : (s.rset b i o hi lo v).sigs = s.sigs := (rfl)
@[simp] theorem State.rset_takeovers (s : State) (b : RBlk) (i o hi lo v : Nat) : (s.rset b i o hi lo v).takeovers = s.takeovers := (rfl)
@[simp] theorem State.rset_host (s : State) (b : RBlk) (i o hi lo v : Nat) : (s.rset b i o hi lo v).host = s.host := (rfl)
@[simp] theorem State.rset_top (s : State) (b : RBlk) (i o hi lo v : Nat) : (s.rset b i o hi lo v).top = s.top := (rfl)
@[simp] theorem State.rset_flash (s : State) (b : RBlk) (i o hi lo v : Nat) : (s.rset b i o hi lo v).flash = s.flash := (rfl)
@[simp] theorem State.rset_fuse (s : State) (b : RBlk) (i o hi lo v : Nat) : (s.rset b i o hi lo v).fuse = s.fuse := (rfl)
@[simp] theorem State.rset_blend (s : State) (b : RBlk) (i o hi lo v : Nat) : (s.rset b i o hi lo v).blend = s.blend := (rfl)
@[simp] theorem State.rset_job (s : State) (b : RBlk) (i o hi lo v : Nat) : (s.rset b i o hi lo v).job = s.job := (rfl)
@[simp] theorem State.rset_ports (s : State) (b : RBlk) (i o hi lo v : Nat) : (s.rset b i o hi lo v).ports = s.ports := (rfl)
@[simp] theorem State.rset_coll (s : State) (b : RBlk) (i o hi lo v : Nat) : (s.rset b i o hi lo v).coll = s.coll := (rfl)
@[simp] theorem State.rset_wts (s : State) (b : RBlk) (i o hi lo v : Nat) : (s.rset b i o hi lo v).wts = s.wts := (rfl)
@[simp] theorem State.rset_record (s : State) (b : RBlk) (i o hi lo v : Nat) : (s.rset b i o hi lo v).record = s.record := (rfl)
@[simp] theorem State.rset_ckp (s : State) (b : RBlk) (i o hi lo v : Nat) : (s.rset b i o hi lo v).ckp = s.ckp := (rfl)
@[simp] theorem State.rset_sec (s : State) (b : RBlk) (i o hi lo v : Nat) : (s.rset b i o hi lo v).sec = s.sec := (rfl)
@[simp] theorem State.rset_ktl (s : State) (b : RBlk) (i o hi lo v : Nat) : (s.rset b i o hi lo v).ktl = s.ktl := (rfl)
@[simp] theorem State.rset_mgt (s : State) (b : RBlk) (i o hi lo v : Nat) : (s.rset b i o hi lo v).mgt = s.mgt := (rfl)
@[simp] theorem State.rset_tim (s : State) (b : RBlk) (i o hi lo v : Nat) : (s.rset b i o hi lo v).tim = s.tim := (rfl)

/-! ### `rbit` -/

@[simp] theorem State.rbit_pending (s : State) (b : RBlk) (i o n : Nat) (v : Bool) : (s.rbit b i o n v).pending = s.pending := (rfl)
@[simp] theorem State.rbit_freeIx (s : State) (b : RBlk) (i o n : Nat) (v : Bool) : (s.rbit b i o n v).freeIx = s.freeIx := (rfl)
@[simp] theorem State.rbit_out (s : State) (b : RBlk) (i o n : Nat) (v : Bool) : (s.rbit b i o n v).out = s.out := (rfl)
@[simp] theorem State.rbit_pendRegs (s : State) (b : RBlk) (i o n : Nat) (v : Bool) : (s.rbit b i o n v).pendRegs = s.pendRegs := (rfl)
@[simp] theorem State.rbit_snap (s : State) (b : RBlk) (i o n : Nat) (v : Bool) : (s.rbit b i o n v).snap = s.snap := (rfl)
@[simp] theorem State.rbit_snapHead (s : State) (b : RBlk) (i o n : Nat) (v : Bool) : (s.rbit b i o n v).snapHead = s.snapHead := (rfl)
@[simp] theorem State.rbit_meshLost (s : State) (b : RBlk) (i o n : Nat) (v : Bool) : (s.rbit b i o n v).meshLost = s.meshLost := (rfl)
@[simp] theorem State.rbit_trcLost (s : State) (b : RBlk) (i o n : Nat) (v : Bool) : (s.rbit b i o n v).trcLost = s.trcLost := (rfl)
@[simp] theorem State.rbit_tsRate (s : State) (b : RBlk) (i o n : Nat) (v : Bool) : (s.rbit b i o n v).tsRate = s.tsRate := (rfl)
@[simp] theorem State.rbit_mem (s : State) (b : RBlk) (i o n : Nat) (v : Bool) : (s.rbit b i o n v).mem = s.mem := (rfl)
@[simp] theorem State.rbit_memErr (s : State) (b : RBlk) (i o n : Nat) (v : Bool) : (s.rbit b i o n v).memErr = s.memErr := (rfl)
@[simp] theorem State.rbit_crit (s : State) (b : RBlk) (i o n : Nat) (v : Bool) : (s.rbit b i o n v).crit = s.crit := (rfl)
@[simp] theorem State.rbit_stackSt (s : State) (b : RBlk) (i o n : Nat) (v : Bool) : (s.rbit b i o n v).stackSt = s.stackSt := (rfl)
@[simp] theorem State.rbit_cores (s : State) (b : RBlk) (i o n : Nat) (v : Bool) : (s.rbit b i o n v).cores = s.cores := (rfl)
@[simp] theorem State.rbit_clusters (s : State) (b : RBlk) (i o n : Nat) (v : Bool) : (s.rbit b i o n v).clusters = s.clusters := (rfl)
@[simp] theorem State.rbit_dies (s : State) (b : RBlk) (i o n : Nat) (v : Bool) : (s.rbit b i o n v).dies = s.dies := (rfl)
@[simp] theorem State.rbit_regions (s : State) (b : RBlk) (i o n : Nat) (v : Bool) : (s.rbit b i o n v).regions = s.regions := (rfl)
@[simp] theorem State.rbit_sigs (s : State) (b : RBlk) (i o n : Nat) (v : Bool) : (s.rbit b i o n v).sigs = s.sigs := (rfl)
@[simp] theorem State.rbit_takeovers (s : State) (b : RBlk) (i o n : Nat) (v : Bool) : (s.rbit b i o n v).takeovers = s.takeovers := (rfl)
@[simp] theorem State.rbit_host (s : State) (b : RBlk) (i o n : Nat) (v : Bool) : (s.rbit b i o n v).host = s.host := (rfl)
@[simp] theorem State.rbit_top (s : State) (b : RBlk) (i o n : Nat) (v : Bool) : (s.rbit b i o n v).top = s.top := (rfl)
@[simp] theorem State.rbit_flash (s : State) (b : RBlk) (i o n : Nat) (v : Bool) : (s.rbit b i o n v).flash = s.flash := (rfl)
@[simp] theorem State.rbit_fuse (s : State) (b : RBlk) (i o n : Nat) (v : Bool) : (s.rbit b i o n v).fuse = s.fuse := (rfl)
@[simp] theorem State.rbit_blend (s : State) (b : RBlk) (i o n : Nat) (v : Bool) : (s.rbit b i o n v).blend = s.blend := (rfl)
@[simp] theorem State.rbit_job (s : State) (b : RBlk) (i o n : Nat) (v : Bool) : (s.rbit b i o n v).job = s.job := (rfl)
@[simp] theorem State.rbit_ports (s : State) (b : RBlk) (i o n : Nat) (v : Bool) : (s.rbit b i o n v).ports = s.ports := (rfl)
@[simp] theorem State.rbit_coll (s : State) (b : RBlk) (i o n : Nat) (v : Bool) : (s.rbit b i o n v).coll = s.coll := (rfl)
@[simp] theorem State.rbit_wts (s : State) (b : RBlk) (i o n : Nat) (v : Bool) : (s.rbit b i o n v).wts = s.wts := (rfl)
@[simp] theorem State.rbit_record (s : State) (b : RBlk) (i o n : Nat) (v : Bool) : (s.rbit b i o n v).record = s.record := (rfl)
@[simp] theorem State.rbit_ckp (s : State) (b : RBlk) (i o n : Nat) (v : Bool) : (s.rbit b i o n v).ckp = s.ckp := (rfl)
@[simp] theorem State.rbit_sec (s : State) (b : RBlk) (i o n : Nat) (v : Bool) : (s.rbit b i o n v).sec = s.sec := (rfl)
@[simp] theorem State.rbit_ktl (s : State) (b : RBlk) (i o n : Nat) (v : Bool) : (s.rbit b i o n v).ktl = s.ktl := (rfl)
@[simp] theorem State.rbit_mgt (s : State) (b : RBlk) (i o n : Nat) (v : Bool) : (s.rbit b i o n v).mgt = s.mgt := (rfl)
@[simp] theorem State.rbit_tim (s : State) (b : RBlk) (i o n : Nat) (v : Bool) : (s.rbit b i o n v).tim = s.tim := (rfl)

/-! ### `add` -/

@[simp] theorem State.add_pending (s : State) (b : RBlk) (i o n : Nat) : (s.add b i o n).pending = s.pending := (rfl)
@[simp] theorem State.add_freeIx (s : State) (b : RBlk) (i o n : Nat) : (s.add b i o n).freeIx = s.freeIx := (rfl)
@[simp] theorem State.add_out (s : State) (b : RBlk) (i o n : Nat) : (s.add b i o n).out = s.out := (rfl)
@[simp] theorem State.add_pendRegs (s : State) (b : RBlk) (i o n : Nat) : (s.add b i o n).pendRegs = s.pendRegs := (rfl)
@[simp] theorem State.add_snap (s : State) (b : RBlk) (i o n : Nat) : (s.add b i o n).snap = s.snap := (rfl)
@[simp] theorem State.add_snapHead (s : State) (b : RBlk) (i o n : Nat) : (s.add b i o n).snapHead = s.snapHead := (rfl)
@[simp] theorem State.add_meshLost (s : State) (b : RBlk) (i o n : Nat) : (s.add b i o n).meshLost = s.meshLost := (rfl)
@[simp] theorem State.add_trcLost (s : State) (b : RBlk) (i o n : Nat) : (s.add b i o n).trcLost = s.trcLost := (rfl)
@[simp] theorem State.add_tsRate (s : State) (b : RBlk) (i o n : Nat) : (s.add b i o n).tsRate = s.tsRate := (rfl)
@[simp] theorem State.add_mem (s : State) (b : RBlk) (i o n : Nat) : (s.add b i o n).mem = s.mem := (rfl)
@[simp] theorem State.add_memErr (s : State) (b : RBlk) (i o n : Nat) : (s.add b i o n).memErr = s.memErr := (rfl)
@[simp] theorem State.add_crit (s : State) (b : RBlk) (i o n : Nat) : (s.add b i o n).crit = s.crit := (rfl)
@[simp] theorem State.add_stackSt (s : State) (b : RBlk) (i o n : Nat) : (s.add b i o n).stackSt = s.stackSt := (rfl)
@[simp] theorem State.add_cores (s : State) (b : RBlk) (i o n : Nat) : (s.add b i o n).cores = s.cores := (rfl)
@[simp] theorem State.add_clusters (s : State) (b : RBlk) (i o n : Nat) : (s.add b i o n).clusters = s.clusters := (rfl)
@[simp] theorem State.add_dies (s : State) (b : RBlk) (i o n : Nat) : (s.add b i o n).dies = s.dies := (rfl)
@[simp] theorem State.add_regions (s : State) (b : RBlk) (i o n : Nat) : (s.add b i o n).regions = s.regions := (rfl)
@[simp] theorem State.add_sigs (s : State) (b : RBlk) (i o n : Nat) : (s.add b i o n).sigs = s.sigs := (rfl)
@[simp] theorem State.add_takeovers (s : State) (b : RBlk) (i o n : Nat) : (s.add b i o n).takeovers = s.takeovers := (rfl)
@[simp] theorem State.add_host (s : State) (b : RBlk) (i o n : Nat) : (s.add b i o n).host = s.host := (rfl)
@[simp] theorem State.add_top (s : State) (b : RBlk) (i o n : Nat) : (s.add b i o n).top = s.top := (rfl)
@[simp] theorem State.add_flash (s : State) (b : RBlk) (i o n : Nat) : (s.add b i o n).flash = s.flash := (rfl)
@[simp] theorem State.add_fuse (s : State) (b : RBlk) (i o n : Nat) : (s.add b i o n).fuse = s.fuse := (rfl)
@[simp] theorem State.add_blend (s : State) (b : RBlk) (i o n : Nat) : (s.add b i o n).blend = s.blend := (rfl)
@[simp] theorem State.add_job (s : State) (b : RBlk) (i o n : Nat) : (s.add b i o n).job = s.job := (rfl)
@[simp] theorem State.add_ports (s : State) (b : RBlk) (i o n : Nat) : (s.add b i o n).ports = s.ports := (rfl)
@[simp] theorem State.add_coll (s : State) (b : RBlk) (i o n : Nat) : (s.add b i o n).coll = s.coll := (rfl)
@[simp] theorem State.add_wts (s : State) (b : RBlk) (i o n : Nat) : (s.add b i o n).wts = s.wts := (rfl)
@[simp] theorem State.add_record (s : State) (b : RBlk) (i o n : Nat) : (s.add b i o n).record = s.record := (rfl)
@[simp] theorem State.add_ckp (s : State) (b : RBlk) (i o n : Nat) : (s.add b i o n).ckp = s.ckp := (rfl)
@[simp] theorem State.add_sec (s : State) (b : RBlk) (i o n : Nat) : (s.add b i o n).sec = s.sec := (rfl)
@[simp] theorem State.add_ktl (s : State) (b : RBlk) (i o n : Nat) : (s.add b i o n).ktl = s.ktl := (rfl)
@[simp] theorem State.add_mgt (s : State) (b : RBlk) (i o n : Nat) : (s.add b i o n).mgt = s.mgt := (rfl)
@[simp] theorem State.add_tim (s : State) (b : RBlk) (i o n : Nat) : (s.add b i o n).tim = s.tim := (rfl)

/-! ### `bump` -/

@[simp] theorem State.bump_pending (s : State) (b : RBlk) (i o n : Nat) : (s.bump b i o n).pending = s.pending := by unfold State.bump; split <;> rfl
@[simp] theorem State.bump_freeIx (s : State) (b : RBlk) (i o n : Nat) : (s.bump b i o n).freeIx = s.freeIx := by unfold State.bump; split <;> rfl
@[simp] theorem State.bump_out (s : State) (b : RBlk) (i o n : Nat) : (s.bump b i o n).out = s.out := by unfold State.bump; split <;> rfl
@[simp] theorem State.bump_pendRegs (s : State) (b : RBlk) (i o n : Nat) : (s.bump b i o n).pendRegs = s.pendRegs := by unfold State.bump; split <;> rfl
@[simp] theorem State.bump_snap (s : State) (b : RBlk) (i o n : Nat) : (s.bump b i o n).snap = s.snap := by unfold State.bump; split <;> rfl
@[simp] theorem State.bump_snapHead (s : State) (b : RBlk) (i o n : Nat) : (s.bump b i o n).snapHead = s.snapHead := by unfold State.bump; split <;> rfl
@[simp] theorem State.bump_meshLost (s : State) (b : RBlk) (i o n : Nat) : (s.bump b i o n).meshLost = s.meshLost := by unfold State.bump; split <;> rfl
@[simp] theorem State.bump_trcLost (s : State) (b : RBlk) (i o n : Nat) : (s.bump b i o n).trcLost = s.trcLost := by unfold State.bump; split <;> rfl
@[simp] theorem State.bump_tsRate (s : State) (b : RBlk) (i o n : Nat) : (s.bump b i o n).tsRate = s.tsRate := by unfold State.bump; split <;> rfl
@[simp] theorem State.bump_mem (s : State) (b : RBlk) (i o n : Nat) : (s.bump b i o n).mem = s.mem := by unfold State.bump; split <;> rfl
@[simp] theorem State.bump_memErr (s : State) (b : RBlk) (i o n : Nat) : (s.bump b i o n).memErr = s.memErr := by unfold State.bump; split <;> rfl
@[simp] theorem State.bump_crit (s : State) (b : RBlk) (i o n : Nat) : (s.bump b i o n).crit = s.crit := by unfold State.bump; split <;> rfl
@[simp] theorem State.bump_stackSt (s : State) (b : RBlk) (i o n : Nat) : (s.bump b i o n).stackSt = s.stackSt := by unfold State.bump; split <;> rfl
@[simp] theorem State.bump_cores (s : State) (b : RBlk) (i o n : Nat) : (s.bump b i o n).cores = s.cores := by unfold State.bump; split <;> rfl
@[simp] theorem State.bump_clusters (s : State) (b : RBlk) (i o n : Nat) : (s.bump b i o n).clusters = s.clusters := by unfold State.bump; split <;> rfl
@[simp] theorem State.bump_dies (s : State) (b : RBlk) (i o n : Nat) : (s.bump b i o n).dies = s.dies := by unfold State.bump; split <;> rfl
@[simp] theorem State.bump_regions (s : State) (b : RBlk) (i o n : Nat) : (s.bump b i o n).regions = s.regions := by unfold State.bump; split <;> rfl
@[simp] theorem State.bump_sigs (s : State) (b : RBlk) (i o n : Nat) : (s.bump b i o n).sigs = s.sigs := by unfold State.bump; split <;> rfl
@[simp] theorem State.bump_takeovers (s : State) (b : RBlk) (i o n : Nat) : (s.bump b i o n).takeovers = s.takeovers := by unfold State.bump; split <;> rfl
@[simp] theorem State.bump_host (s : State) (b : RBlk) (i o n : Nat) : (s.bump b i o n).host = s.host := by unfold State.bump; split <;> rfl
@[simp] theorem State.bump_top (s : State) (b : RBlk) (i o n : Nat) : (s.bump b i o n).top = s.top := by unfold State.bump; split <;> rfl
@[simp] theorem State.bump_flash (s : State) (b : RBlk) (i o n : Nat) : (s.bump b i o n).flash = s.flash := by unfold State.bump; split <;> rfl
@[simp] theorem State.bump_fuse (s : State) (b : RBlk) (i o n : Nat) : (s.bump b i o n).fuse = s.fuse := by unfold State.bump; split <;> rfl
@[simp] theorem State.bump_blend (s : State) (b : RBlk) (i o n : Nat) : (s.bump b i o n).blend = s.blend := by unfold State.bump; split <;> rfl
@[simp] theorem State.bump_job (s : State) (b : RBlk) (i o n : Nat) : (s.bump b i o n).job = s.job := by unfold State.bump; split <;> rfl
@[simp] theorem State.bump_ports (s : State) (b : RBlk) (i o n : Nat) : (s.bump b i o n).ports = s.ports := by unfold State.bump; split <;> rfl
@[simp] theorem State.bump_coll (s : State) (b : RBlk) (i o n : Nat) : (s.bump b i o n).coll = s.coll := by unfold State.bump; split <;> rfl
@[simp] theorem State.bump_wts (s : State) (b : RBlk) (i o n : Nat) : (s.bump b i o n).wts = s.wts := by unfold State.bump; split <;> rfl
@[simp] theorem State.bump_record (s : State) (b : RBlk) (i o n : Nat) : (s.bump b i o n).record = s.record := by unfold State.bump; split <;> rfl
@[simp] theorem State.bump_ckp (s : State) (b : RBlk) (i o n : Nat) : (s.bump b i o n).ckp = s.ckp := by unfold State.bump; split <;> rfl
@[simp] theorem State.bump_sec (s : State) (b : RBlk) (i o n : Nat) : (s.bump b i o n).sec = s.sec := by unfold State.bump; split <;> rfl
@[simp] theorem State.bump_ktl (s : State) (b : RBlk) (i o n : Nat) : (s.bump b i o n).ktl = s.ktl := by unfold State.bump; split <;> rfl
@[simp] theorem State.bump_mgt (s : State) (b : RBlk) (i o n : Nat) : (s.bump b i o n).mgt = s.mgt := by unfold State.bump; split <;> rfl
@[simp] theorem State.bump_tim (s : State) (b : RBlk) (i o n : Nat) : (s.bump b i o n).tim = s.tim := by unfold State.bump; split <;> rfl

/-! ## What is written is what is read, and nothing else changes -/

@[simp] theorem State.core_setCore_self (s : State) (i : Nat) (c : Core) : (s.setCore i c).core i = c := Smap.get_set_self _ _ _ _
theorem State.core_setCore_ne (s : State) {i j : Nat} (h : j ≠ i) (c : Core) : (s.setCore i c).core j = s.core j := Smap.get_set_ne _ _ _ _ _ _ h
@[simp] theorem State.core_setCluster (s : State) (i j : Nat) (c : Cluster) : (s.setCluster i c).core j = s.core j := (rfl)
@[simp] theorem State.core_setDie (s : State) (i j : Nat) (c : Die) : (s.setDie i c).core j = s.core j := (rfl)
@[simp] theorem State.core_setStack (s : State) (i j : Nat) (c : Stack) : (s.setStack i c).core j = s.core j := (rfl)
@[simp] theorem State.core_setRegion (s : State) (i j : Nat) (c : Region) : (s.setRegion i c).core j = s.core j := (rfl)
@[simp] theorem State.core_setPort (s : State) (i j : Nat) (c : Port) : (s.setPort i c).core j = s.core j := (rfl)
@[simp] theorem State.core_send (s : State) (o : Out) (j : Nat) : (s.send o).core j = s.core j := (rfl)
@[simp] theorem State.core_useFree (s : State) (n : Nat) (j : Nat) : (s.useFree n).core j = s.core j := (rfl)
@[simp] theorem State.core_answer (s : State) (st : Status) (j : Nat) : (s.answer st).core j = s.core j := (rfl)
@[simp] theorem State.core_check (s : State) (k p f r e : Nat) (j : Nat) : (s.check k p f r e).core j = s.core j := (rfl)
@[simp] theorem State.core_enqueueEvt (s : State) (k : Nat) (p : List Byte) (j : Nat) : (s.enqueueEvt k p).core j = s.core j := (rfl)
@[simp] theorem State.core_poke (s : State) (b : RBlk) (i o : Nat) (v : Word) (j : Nat) : (s.poke b i o v).core j = s.core j := (rfl)
@[simp] theorem State.core_rset (s : State) (b : RBlk) (i o hi lo v : Nat) (j : Nat) : (s.rset b i o hi lo v).core j = s.core j := (rfl)
@[simp] theorem State.core_rbit (s : State) (b : RBlk) (i o n : Nat) (v : Bool) (j : Nat) : (s.rbit b i o n v).core j = s.core j := (rfl)
@[simp] theorem State.core_add (s : State) (b : RBlk) (i o n : Nat) (j : Nat) : (s.add b i o n).core j = s.core j := (rfl)
@[simp] theorem State.core_bump (s : State) (b : RBlk) (i o n : Nat) (j : Nat) : (s.bump b i o n).core j = s.core j := by unfold State.core; rw [State.bump_cores]

@[simp] theorem State.cluster_setCluster_self (s : State) (i : Nat) (c : Cluster) : (s.setCluster i c).cluster i = c := Smap.get_set_self _ _ _ _
theorem State.cluster_setCluster_ne (s : State) {i j : Nat} (h : j ≠ i) (c : Cluster) : (s.setCluster i c).cluster j = s.cluster j := Smap.get_set_ne _ _ _ _ _ _ h
@[simp] theorem State.cluster_setCore (s : State) (i j : Nat) (c : Core) : (s.setCore i c).cluster j = s.cluster j := (rfl)
@[simp] theorem State.cluster_setDie (s : State) (i j : Nat) (c : Die) : (s.setDie i c).cluster j = s.cluster j := (rfl)
@[simp] theorem State.cluster_setStack (s : State) (i j : Nat) (c : Stack) : (s.setStack i c).cluster j = s.cluster j := (rfl)
@[simp] theorem State.cluster_setRegion (s : State) (i j : Nat) (c : Region) : (s.setRegion i c).cluster j = s.cluster j := (rfl)
@[simp] theorem State.cluster_setPort (s : State) (i j : Nat) (c : Port) : (s.setPort i c).cluster j = s.cluster j := (rfl)
@[simp] theorem State.cluster_send (s : State) (o : Out) (j : Nat) : (s.send o).cluster j = s.cluster j := (rfl)
@[simp] theorem State.cluster_useFree (s : State) (n : Nat) (j : Nat) : (s.useFree n).cluster j = s.cluster j := (rfl)
@[simp] theorem State.cluster_answer (s : State) (st : Status) (j : Nat) : (s.answer st).cluster j = s.cluster j := (rfl)
@[simp] theorem State.cluster_check (s : State) (k p f r e : Nat) (j : Nat) : (s.check k p f r e).cluster j = s.cluster j := (rfl)
@[simp] theorem State.cluster_enqueueEvt (s : State) (k : Nat) (p : List Byte) (j : Nat) : (s.enqueueEvt k p).cluster j = s.cluster j := (rfl)
@[simp] theorem State.cluster_poke (s : State) (b : RBlk) (i o : Nat) (v : Word) (j : Nat) : (s.poke b i o v).cluster j = s.cluster j := (rfl)
@[simp] theorem State.cluster_rset (s : State) (b : RBlk) (i o hi lo v : Nat) (j : Nat) : (s.rset b i o hi lo v).cluster j = s.cluster j := (rfl)
@[simp] theorem State.cluster_rbit (s : State) (b : RBlk) (i o n : Nat) (v : Bool) (j : Nat) : (s.rbit b i o n v).cluster j = s.cluster j := (rfl)
@[simp] theorem State.cluster_add (s : State) (b : RBlk) (i o n : Nat) (j : Nat) : (s.add b i o n).cluster j = s.cluster j := (rfl)
@[simp] theorem State.cluster_bump (s : State) (b : RBlk) (i o n : Nat) (j : Nat) : (s.bump b i o n).cluster j = s.cluster j := by unfold State.cluster; rw [State.bump_clusters]

@[simp] theorem State.die_setDie_self (s : State) (i : Nat) (c : Die) : (s.setDie i c).die i = c := Smap.get_set_self _ _ _ _
theorem State.die_setDie_ne (s : State) {i j : Nat} (h : j ≠ i) (c : Die) : (s.setDie i c).die j = s.die j := Smap.get_set_ne _ _ _ _ _ _ h
@[simp] theorem State.die_setCore (s : State) (i j : Nat) (c : Core) : (s.setCore i c).die j = s.die j := (rfl)
@[simp] theorem State.die_setCluster (s : State) (i j : Nat) (c : Cluster) : (s.setCluster i c).die j = s.die j := (rfl)
@[simp] theorem State.die_setStack (s : State) (i j : Nat) (c : Stack) : (s.setStack i c).die j = s.die j := (rfl)
@[simp] theorem State.die_setRegion (s : State) (i j : Nat) (c : Region) : (s.setRegion i c).die j = s.die j := (rfl)
@[simp] theorem State.die_setPort (s : State) (i j : Nat) (c : Port) : (s.setPort i c).die j = s.die j := (rfl)
@[simp] theorem State.die_send (s : State) (o : Out) (j : Nat) : (s.send o).die j = s.die j := (rfl)
@[simp] theorem State.die_useFree (s : State) (n : Nat) (j : Nat) : (s.useFree n).die j = s.die j := (rfl)
@[simp] theorem State.die_answer (s : State) (st : Status) (j : Nat) : (s.answer st).die j = s.die j := (rfl)
@[simp] theorem State.die_check (s : State) (k p f r e : Nat) (j : Nat) : (s.check k p f r e).die j = s.die j := (rfl)
@[simp] theorem State.die_enqueueEvt (s : State) (k : Nat) (p : List Byte) (j : Nat) : (s.enqueueEvt k p).die j = s.die j := (rfl)
@[simp] theorem State.die_poke (s : State) (b : RBlk) (i o : Nat) (v : Word) (j : Nat) : (s.poke b i o v).die j = s.die j := (rfl)
@[simp] theorem State.die_rset (s : State) (b : RBlk) (i o hi lo v : Nat) (j : Nat) : (s.rset b i o hi lo v).die j = s.die j := (rfl)
@[simp] theorem State.die_rbit (s : State) (b : RBlk) (i o n : Nat) (v : Bool) (j : Nat) : (s.rbit b i o n v).die j = s.die j := (rfl)
@[simp] theorem State.die_add (s : State) (b : RBlk) (i o n : Nat) (j : Nat) : (s.add b i o n).die j = s.die j := (rfl)
@[simp] theorem State.die_bump (s : State) (b : RBlk) (i o n : Nat) (j : Nat) : (s.bump b i o n).die j = s.die j := by unfold State.die; rw [State.bump_dies]

@[simp] theorem State.stack_setStack_self (s : State) (i : Nat) (c : Stack) : (s.setStack i c).stack i = c := Smap.get_set_self _ _ _ _
theorem State.stack_setStack_ne (s : State) {i j : Nat} (h : j ≠ i) (c : Stack) : (s.setStack i c).stack j = s.stack j := Smap.get_set_ne _ _ _ _ _ _ h
@[simp] theorem State.stack_setCore (s : State) (i j : Nat) (c : Core) : (s.setCore i c).stack j = s.stack j := (rfl)
@[simp] theorem State.stack_setCluster (s : State) (i j : Nat) (c : Cluster) : (s.setCluster i c).stack j = s.stack j := (rfl)
@[simp] theorem State.stack_setDie (s : State) (i j : Nat) (c : Die) : (s.setDie i c).stack j = s.stack j := (rfl)
@[simp] theorem State.stack_setRegion (s : State) (i j : Nat) (c : Region) : (s.setRegion i c).stack j = s.stack j := (rfl)
@[simp] theorem State.stack_setPort (s : State) (i j : Nat) (c : Port) : (s.setPort i c).stack j = s.stack j := (rfl)
@[simp] theorem State.stack_send (s : State) (o : Out) (j : Nat) : (s.send o).stack j = s.stack j := (rfl)
@[simp] theorem State.stack_useFree (s : State) (n : Nat) (j : Nat) : (s.useFree n).stack j = s.stack j := (rfl)
@[simp] theorem State.stack_answer (s : State) (st : Status) (j : Nat) : (s.answer st).stack j = s.stack j := (rfl)
@[simp] theorem State.stack_check (s : State) (k p f r e : Nat) (j : Nat) : (s.check k p f r e).stack j = s.stack j := (rfl)
@[simp] theorem State.stack_enqueueEvt (s : State) (k : Nat) (p : List Byte) (j : Nat) : (s.enqueueEvt k p).stack j = s.stack j := (rfl)
@[simp] theorem State.stack_poke (s : State) (b : RBlk) (i o : Nat) (v : Word) (j : Nat) : (s.poke b i o v).stack j = s.stack j := (rfl)
@[simp] theorem State.stack_rset (s : State) (b : RBlk) (i o hi lo v : Nat) (j : Nat) : (s.rset b i o hi lo v).stack j = s.stack j := (rfl)
@[simp] theorem State.stack_rbit (s : State) (b : RBlk) (i o n : Nat) (v : Bool) (j : Nat) : (s.rbit b i o n v).stack j = s.stack j := (rfl)
@[simp] theorem State.stack_add (s : State) (b : RBlk) (i o n : Nat) (j : Nat) : (s.add b i o n).stack j = s.stack j := (rfl)
@[simp] theorem State.stack_bump (s : State) (b : RBlk) (i o n : Nat) (j : Nat) : (s.bump b i o n).stack j = s.stack j := by unfold State.stack; rw [State.bump_stackSt]

@[simp] theorem State.region_setRegion_self (s : State) (i : Nat) (c : Region) : (s.setRegion i c).region i = c := Smap.get_set_self _ _ _ _
theorem State.region_setRegion_ne (s : State) {i j : Nat} (h : j ≠ i) (c : Region) : (s.setRegion i c).region j = s.region j := Smap.get_set_ne _ _ _ _ _ _ h
@[simp] theorem State.region_setCore (s : State) (i j : Nat) (c : Core) : (s.setCore i c).region j = s.region j := (rfl)
@[simp] theorem State.region_setCluster (s : State) (i j : Nat) (c : Cluster) : (s.setCluster i c).region j = s.region j := (rfl)
@[simp] theorem State.region_setDie (s : State) (i j : Nat) (c : Die) : (s.setDie i c).region j = s.region j := (rfl)
@[simp] theorem State.region_setStack (s : State) (i j : Nat) (c : Stack) : (s.setStack i c).region j = s.region j := (rfl)
@[simp] theorem State.region_setPort (s : State) (i j : Nat) (c : Port) : (s.setPort i c).region j = s.region j := (rfl)
@[simp] theorem State.region_send (s : State) (o : Out) (j : Nat) : (s.send o).region j = s.region j := (rfl)
@[simp] theorem State.region_useFree (s : State) (n : Nat) (j : Nat) : (s.useFree n).region j = s.region j := (rfl)
@[simp] theorem State.region_answer (s : State) (st : Status) (j : Nat) : (s.answer st).region j = s.region j := (rfl)
@[simp] theorem State.region_check (s : State) (k p f r e : Nat) (j : Nat) : (s.check k p f r e).region j = s.region j := (rfl)
@[simp] theorem State.region_enqueueEvt (s : State) (k : Nat) (p : List Byte) (j : Nat) : (s.enqueueEvt k p).region j = s.region j := (rfl)
@[simp] theorem State.region_poke (s : State) (b : RBlk) (i o : Nat) (v : Word) (j : Nat) : (s.poke b i o v).region j = s.region j := (rfl)
@[simp] theorem State.region_rset (s : State) (b : RBlk) (i o hi lo v : Nat) (j : Nat) : (s.rset b i o hi lo v).region j = s.region j := (rfl)
@[simp] theorem State.region_rbit (s : State) (b : RBlk) (i o n : Nat) (v : Bool) (j : Nat) : (s.rbit b i o n v).region j = s.region j := (rfl)
@[simp] theorem State.region_add (s : State) (b : RBlk) (i o n : Nat) (j : Nat) : (s.add b i o n).region j = s.region j := (rfl)
@[simp] theorem State.region_bump (s : State) (b : RBlk) (i o n : Nat) (j : Nat) : (s.bump b i o n).region j = s.region j := by unfold State.region; rw [State.bump_regions]

@[simp] theorem State.port_setPort_self (s : State) (i : Nat) (c : Port) : (s.setPort i c).port i = c := Smap.get_set_self _ _ _ _
theorem State.port_setPort_ne (s : State) {i j : Nat} (h : j ≠ i) (c : Port) : (s.setPort i c).port j = s.port j := Smap.get_set_ne _ _ _ _ _ _ h
@[simp] theorem State.port_setCore (s : State) (i j : Nat) (c : Core) : (s.setCore i c).port j = s.port j := (rfl)
@[simp] theorem State.port_setCluster (s : State) (i j : Nat) (c : Cluster) : (s.setCluster i c).port j = s.port j := (rfl)
@[simp] theorem State.port_setDie (s : State) (i j : Nat) (c : Die) : (s.setDie i c).port j = s.port j := (rfl)
@[simp] theorem State.port_setStack (s : State) (i j : Nat) (c : Stack) : (s.setStack i c).port j = s.port j := (rfl)
@[simp] theorem State.port_setRegion (s : State) (i j : Nat) (c : Region) : (s.setRegion i c).port j = s.port j := (rfl)
@[simp] theorem State.port_send (s : State) (o : Out) (j : Nat) : (s.send o).port j = s.port j := (rfl)
@[simp] theorem State.port_useFree (s : State) (n : Nat) (j : Nat) : (s.useFree n).port j = s.port j := (rfl)
@[simp] theorem State.port_answer (s : State) (st : Status) (j : Nat) : (s.answer st).port j = s.port j := (rfl)
@[simp] theorem State.port_check (s : State) (k p f r e : Nat) (j : Nat) : (s.check k p f r e).port j = s.port j := (rfl)
@[simp] theorem State.port_enqueueEvt (s : State) (k : Nat) (p : List Byte) (j : Nat) : (s.enqueueEvt k p).port j = s.port j := (rfl)
@[simp] theorem State.port_poke (s : State) (b : RBlk) (i o : Nat) (v : Word) (j : Nat) : (s.poke b i o v).port j = s.port j := (rfl)
@[simp] theorem State.port_rset (s : State) (b : RBlk) (i o hi lo v : Nat) (j : Nat) : (s.rset b i o hi lo v).port j = s.port j := (rfl)
@[simp] theorem State.port_rbit (s : State) (b : RBlk) (i o n : Nat) (v : Bool) (j : Nat) : (s.rbit b i o n v).port j = s.port j := (rfl)
@[simp] theorem State.port_add (s : State) (b : RBlk) (i o n : Nat) (j : Nat) : (s.add b i o n).port j = s.port j := (rfl)
@[simp] theorem State.port_bump (s : State) (b : RBlk) (i o n : Nat) (j : Nat) : (s.bump b i o n).port j = s.port j := by unfold State.port; rw [State.bump_ports]

/-! ## Registers -/

@[simp] theorem State.peekAddr_pokeAddr_self (s : State) (a : Nat) (v : Word) : (s.pokeAddr a v).peekAddr a = v :=
  Smap.get_set_self _ _ _ _

theorem State.peekAddr_pokeAddr_ne (s : State) {a c : Nat} (h : c ≠ a) (v : Word) : (s.pokeAddr a v).peekAddr c = s.peekAddr c := Smap.get_set_ne _ _ _ _ _ _ h

@[simp] theorem State.peek_poke_self (s : State) (b : RBlk) (i o : Nat) (v : Word) : (s.poke b i o v).peek b i o = v :=
  State.peekAddr_pokeAddr_self _ _ _

theorem State.peek_poke_ne (s : State) {b b' : RBlk} {i i' o o' : Nat} (h : blockBase b' i' + o' ≠ blockBase b i + o) (v : Word) :
    (s.poke b i o v).peek b' i' o' = s.peek b' i' o' := State.peekAddr_pokeAddr_ne _ h _

@[simp] theorem State.peek_send (s : State) (o : Out) (b' : RBlk) (i' o' : Nat) : (s.send o).peek b' i' o' = s.peek b' i' o' := (rfl)
@[simp] theorem State.peek_useFree (s : State) (n : Nat) (b' : RBlk) (i' o' : Nat) : (s.useFree n).peek b' i' o' = s.peek b' i' o' := (rfl)
@[simp] theorem State.peek_answer (s : State) (st : Status) (b' : RBlk) (i' o' : Nat) : (s.answer st).peek b' i' o' = s.peek b' i' o' := (rfl)
@[simp] theorem State.peek_check (s : State) (k p f r e : Nat) (b' : RBlk) (i' o' : Nat) : (s.check k p f r e).peek b' i' o' = s.peek b' i' o' := (rfl)
@[simp] theorem State.peek_enqueueEvt (s : State) (k : Nat) (p : List Byte) (b' : RBlk) (i' o' : Nat) : (s.enqueueEvt k p).peek b' i' o' = s.peek b' i' o' := (rfl)
@[simp] theorem State.peek_setCore (s : State) (i : Nat) (c : Core) (b' : RBlk) (i' o' : Nat) : (s.setCore i c).peek b' i' o' = s.peek b' i' o' := (rfl)
@[simp] theorem State.peek_setCluster (s : State) (i : Nat) (c : Cluster) (b' : RBlk) (i' o' : Nat) : (s.setCluster i c).peek b' i' o' = s.peek b' i' o' := (rfl)
@[simp] theorem State.peek_setDie (s : State) (i : Nat) (c : Die) (b' : RBlk) (i' o' : Nat) : (s.setDie i c).peek b' i' o' = s.peek b' i' o' := (rfl)
@[simp] theorem State.peek_setStack (s : State) (i : Nat) (c : Stack) (b' : RBlk) (i' o' : Nat) : (s.setStack i c).peek b' i' o' = s.peek b' i' o' := (rfl)
@[simp] theorem State.peek_setRegion (s : State) (i : Nat) (c : Region) (b' : RBlk) (i' o' : Nat) : (s.setRegion i c).peek b' i' o' = s.peek b' i' o' := (rfl)
@[simp] theorem State.peek_setPort (s : State) (i : Nat) (c : Port) (b' : RBlk) (i' o' : Nat) : (s.setPort i c).peek b' i' o' = s.peek b' i' o' := (rfl)

end Sys2Proof.Machine
end

