-- ==== Sys2Proof/Laws/Issue.lean ====
section
/-! SUPPORT. What an issue does (R127 to R130): the counting of its reads leaves every core as it was, and an instruction that
nothing holds completes in the sequencer or enters its queue. -/

namespace Sys2Proof.Machine

/-! ## Cores, through reports -/

theorem State.core_of_calm {s t : State} (h : t.calm = s.calm) (j : Nat) : t.core j = s.core j := by
  simp only [State.calm, Prod.mk.injEq] at h
  unfold State.core
  rw [h.2.2.2.2.2.2.2.1]

@[simp] theorem State.core_raise (s : State) (b : RBlk) (i o n j : Nat) : (s.raise b i o n).core j = s.core j :=
  State.core_of_calm (State.raise_calm ..) j
@[simp] theorem State.core_countVotes (s : State) (i n : Nat) (v : Vote) (j : Nat) : (s.countVotes i n v).core j = s.core j :=
  State.core_of_calm (State.countVotes_calm ..) j

/-! ## Issue -/

/-- Where nothing holds it, an issue runs after its reads are counted. -/
theorem State.Issues.run {s : State} {op : Op} {i : Nat} {o : IssueObs} (h : s.Issues op i o) (f : State → State) :
    s.issueWith op i o f = f (s.countVotes i (votedReads op (s.core i).word) o.vote) := by
  unfold State.issueWith
  simp [h.can, h.is, h.voted, h.clean, h.met]

theorem State.advance_ok (s : State) (i next : Nat) (h : next < (s.core i).prog.length) : (s.advance i next).1 = true := by
  simp [State.advance, h]
theorem State.core_advance (s : State) (i next : Nat) : (s.advance i next).2.core i =
    { s.core i with tok := takeTokens (s.core i).tok (s.core i).word, pc := next % 16384, st := .running, waits := .none } := by
  simp [State.advance]
theorem State.core_advance_ne (s : State) {i j : Nat} (h : j ≠ i) (next : Nat) : (s.advance i next).2.core j = s.core j := by
  simp [State.advance, State.core_setCore_ne _ h]

/-- An instruction that the sequencer completes with OK. -/
theorem State.core_seqDone (s : State) (i next : Nat) (h : next < (s.core i).prog.length) (hr : (s.core i).signalRoom) :
    (s.seqDone i .ok next).core i = (s.core i).completed next := by
  unfold State.seqDone
  simp only [State.advance_ok s i next h, if_true]
  split
  · rename_i hs
    have hr := hr hs
    unfold State.addToken
    simp only [State.core_advance]
    have h1 : nth 0 (takeTokens (s.core i).tok (s.core i).word) (iSignal (s.core i).word) + 1 ≤ 65535 := hr
    simp [h1, Core.completed, Core.tokensAfter, hs]
  · rename_i hs
    simp [State.core_advance, Core.completed, Core.tokensAfter, hs]

theorem State.core_seqDone_ne (s : State) {i j : Nat} (hj : j ≠ i) (next : Nat) (h : next < (s.core i).prog.length)
    (hr : (s.core i).signalRoom) : (s.seqDone i .ok next).core j = s.core j := by
  unfold State.seqDone
  simp only [State.advance_ok s i next h, if_true]
  split
  · rename_i hs
    have hr := hr hs
    unfold State.addToken
    simp only [State.core_advance]
    have h1 : nth 0 (takeTokens (s.core i).tok (s.core i).word) (iSignal (s.core i).word) + 1 ≤ 65535 := hr
    simp [h1, State.core_setCore_ne _ hj, State.core_advance_ne _ hj]
  · simp [State.core_advance_ne _ hj]

/-- An instruction that goes to its queue. -/
theorem State.core_enqueue (s : State) (op : Op) (check : State → Nat → BitVec 128 → List (BitVec 256) → Status) (i : Nat)
    (h : (s.core i).pc + 1 < (s.core i).prog.length) :
    (s.enqueue op check i).core i = (s.core i).queued (op.queue.getD 0) (s.issuedEntry op check i) := by
  unfold State.enqueue
  simp only [State.advance_ok s i _ h, if_true]
  split <;> simp [State.core_advance, Core.queued, State.issuedEntry]

theorem State.core_enqueue_ne (s : State) (op : Op) (check : State → Nat → BitVec 128 → List (BitVec 256) → Status) {i j : Nat}
    (hj : j ≠ i) (h : (s.core i).pc + 1 < (s.core i).prog.length) : (s.enqueue op check i).core j = s.core j := by
  unfold State.enqueue
  simp only [State.advance_ok s i _ h, if_true]
  split <;> simp [State.core_setCore_ne _ hj, State.core_advance_ne _ hj]

end Sys2Proof.Machine
end

