-- ==== Sys2Proof/Laws/Registers.lean ====
section
/-! SUPPORT. Registers through the operations that write them: what a register reads after a count, a trace record or an event bit
elsewhere. -/

namespace Sys2Proof.Machine

theorem State.peek_add_ne (s : State) {b b' : RBlk} {i i' o o' : Nat} (h : blockBase b' i' + o' ≠ blockBase b i + o) (n : Nat) :
    (s.add b i o n).peek b' i' o' = s.peek b' i' o' := State.peek_poke_ne _ h _

theorem State.peek_rset_ne (s : State) {b b' : RBlk} {i i' o o' : Nat} (h : blockBase b' i' + o' ≠ blockBase b i + o)
    (hi lo v : Nat) : (s.rset b i o hi lo v).peek b' i' o' = s.peek b' i' o' := State.peek_poke_ne _ h _

theorem State.peek_rbit_ne (s : State) {b b' : RBlk} {i i' o o' : Nat} (h : blockBase b' i' + o' ≠ blockBase b i + o)
    (n : Nat) (v : Bool) : (s.rbit b i o n v).peek b' i' o' = s.peek b' i' o' := State.peek_rset_ne _ h ..

theorem State.peek_bump_ne (s : State) {b b' : RBlk} {i i' o o' : Nat} (h : blockBase b' i' + o' ≠ blockBase b i + o)
    (hm : blockBase b' i' + o' ≠ blockBase b.mod 0 + o) (n : Nat) : (s.bump b i o n).peek b' i' o' = s.peek b' i' o' := by
  unfold State.bump
  split
  · exact State.peek_add_ne _ h _
  · rw [State.peek_add_ne _ hm, State.peek_add_ne _ h]

theorem State.peek_of_regs {s t : State} (h : t.regs = s.regs) (b : RBlk) (i o : Nat) : t.peek b i o = s.peek b i o := by
  unfold State.peek State.peekAddr; rw [h]

theorem State.peek_trace_ne (s : State) {b : RBlk} {i o : Nat} (h1 : blockBase b i + o ≠ blockBase .trcMod 0 + Reg.TRC_RECORDS)
    (h2 : blockBase b i + o ≠ blockBase .trcMod 0 + Reg.TRC_DROPPED) (k bl d c : Nat) (p : List Byte) :
    (s.trace k bl d c p).peek b i o = s.peek b i o := by
  have room : ∀ (w : Word) (x : Out), (if s.trcLost = 0 ∨ ¬ flag w 7 then s else
      { (s.send x).add .trcMod 0 Reg.TRC_RECORDS 1 with trcLost := 0 }).peek b i o = s.peek b i o := by
    intro w x
    split
    · rfl
    · exact State.peek_add_ne _ h1 _
  unfold State.trace
  generalize leBytes 4 s.trcLost = x, traceBytes = tb
  dsimp only
  split
  · rfl
  · split
    · exact State.peek_add_ne _ h2 _
    · rw [State.peek_add_ne _ h1, State.peek_send, room]

theorem State.peek_raise_ne (s : State) {b b' : RBlk} {i i' o o' : Nat} (h : blockBase b' i' + o' ≠ blockBase b i + o)
    (h1 : blockBase b' i' + o' ≠ blockBase .trcMod 0 + Reg.TRC_RECORDS)
    (h2 : blockBase b' i' + o' ≠ blockBase .trcMod 0 + Reg.TRC_DROPPED) (n : Nat) :
    (s.raise b i o n).peek b' i' o' = s.peek b' i' o' := by
  unfold State.raise
  split
  · rfl
  · rw [State.peek_trace_ne _ h1 h2, State.peek_rbit_ne _ h]

end Sys2Proof.Machine
end

