-- ==== Sys2Proof/WellFormed.lean ====
section
/-! DEFINITION. Which commands are well formed: ports, dies, cores and stacks that exist, and messages whose length fields
agree with what they carry. The meanings do not rest on it. -/

namespace Sys2Proof

/-- A core index of R23 that names a physical core. -/
def isCoreNo (i : Nat) : Bool := decide (i < 4096) && decide (i % 16 < 12)

/-- A host message carries at most 256 bytes for a memory command, and its numbers fit their fields (R405). -/
def hostMsgWf (m : HostMsg) : Bool :=
  decide (m.type < 256) && decide (m.queue < 256) && decide (m.tag < 65536) && decide (m.length < 2 ^ 32)

/-- A management message's length is that of its body (R574). -/
def mgtMsgWf (m : MgtMsg) : Bool := decide (m.length = m.body.length)

/-- A stream message's length is that of its body (R345). -/
def msgWf (m : Msg) : Bool := decide (m.length.toNat = m.body.length)

/-- A command is well formed. -/
def Instr.wf : Instr → Bool
  | .pwrEnAssert _ => true
  | .pwrEnDeassert => true
  | .inputOutOfRange => true
  | .ringStart => true
  | .routerTestDone die _ => decide (die < 64)
  | .stackReady die _ => decide (die < 64)
  | .waveStart => true
  | .coreTestDone _ _ => true
  | .failureRecordWrite core => isCoreNo core
  | .bringupComplete => true
  | .mrd m => hostMsgWf m.msg
  | .mwr m => hostMsgWf m.msg
  | .eack m => hostMsgWf m
  | .evtSend => true
  | .hostLinkDown => true
  | .hostLinkUp => true
  | .jobOpen m => hostMsgWf m
  | .stepData m => hostMsgWf m
  | .blendLoadFull m => hostMsgWf m
  | .blendLoadPartial m => hostMsgWf m
  | .regionDrain m => hostMsgWf m
  | .regionDrainComplete region => decide (region < 65536)
  | .regionReset m => hostMsgWf m
  | .selfTest m => hostMsgWf m
  | .checkpoint m => hostMsgWf m
  | .restore m => hostMsgWf m
  | .restoreDryRun m => hostMsgWf m
  | .jobClose m => hostMsgWf m
  | .attest m => hostMsgWf m
  | .stepStart => true
  | .stepBoundary => true
  | .signatureComplete _ => true
  | .batchBoundary => true
  | .nop core _ => isCoreNo core
  | .end_ core _ => isCoreNo core
  | .jump core _ => isCoreNo core
  | .loop core _ => isCoreNo core
  | .setlc core _ => isCoreNo core
  | .dload core _ => isCoreNo core
  | .dset core _ => isCoreNo core
  | .wait core _ => isCoreNo core
  | .signal core _ => isCoreNo core
  | .tokenSignalArrive src target => isCoreNo src && isCoreNo target
  | .barrier core _ => isCoreNo core
  | .drainu core _ => isCoreNo core
  | .batch core _ => isCoreNo core
  | .copy core _ => isCoreNo core
  | .copyh core _ => isCoreNo core
  | .wreq core _ => isCoreNo core
  | .wdone core _ => isCoreNo core
  | .publish core _ => isCoreNo core
  | .mm core _ => isCoreNo core
  | .mmw core _ => isCoreNo core
  | .mmrs core _ => isCoreNo core
  | .wgbrs core _ => isCoreNo core
  | .wgbclr core _ => isCoreNo core
  | .smm core _ => isCoreNo core
  | .smmt core _ => isCoreNo core
  | .sdwrs core _ => isCoreNo core
  | .urnmerge core _ => isCoreNo core
  | .pred core _ => isCoreNo core
  | .smmp core _ => isCoreNo core
  | .vop core _ => isCoreNo core
  | .vcvt core _ => isCoreNo core
  | .vfn core _ => isCoreNo core
  | .vred core _ => isCoreNo core
  | .softmax core _ => isCoreNo core
  | .norm core _ => isCoreNo core
  | .dfo core _ => isCoreNo core
  | .dsoftmax core _ => isCoreNo core
  | .adamw core _ => isCoreNo core
  | .sgdm core _ => isCoreNo core
  | .vrs core _ => isCoreNo core
  | .rxwait core _ => isCoreNo core
  | .sipred core _ => isCoreNo core
  | .chkrd core _ => isCoreNo core
  | .instructionComplete core q => isCoreNo core && decide (q.queue < 4)
  | .waitTimeout core _ => isCoreNo core
  | .tilePassVerdict core _ => isCoreNo core
  | .vectorBeatCheck core _ => isCoreNo core
  | .tileStoreWriteback core word => isCoreNo core && decide (word < 2097152)
  | .meshFlitReceive die port f => decide (die < 64) && decide (port < 13) && decide (f.length = 80)
  | .dmaTransferAck core _ => isCoreNo core
  | .dmaTimeout core => isCoreNo core
  | .topHotLevelReport die _ port core _ => decide (die < 64) && decide (port < 16) && isCoreNo core
  | .spareTakeover core _ => isCoreNo core
  | .migrationComplete core _ => isCoreNo core
  | .thermalTrip die => decide (die < 64)
  | .dieRelease die => decide (die < 64)
  | .topRegionRelease _ _ => true
  | .wreqAccept port => decide (port < 16)
  | .wget port => decide (port < 16)
  | .wdata port m => decide (port < 16) && msgWf m
  | .wpush port m => decide (port < 16) && msgWf m
  | .attemptTimeout port tag => decide (port < 16) && decide (tag < 16384)
  | .followTimeout port => decide (port < 16)
  | .pushHoldExpiry port => decide (port < 16)
  | .chunkDeliver x => decide (x.port < 16)
  | .wack port m => decide (port < 16) && msgWf m
  | .wpubTimeout port tag => decide (port < 16) && decide (tag < 16384)
  | .stageVersion _ _ => true
  | .stageCancel _ _ => true
  | .manifestRetry => true
  | .stageLimitExpiry => true
  | .rchunk port m => decide (port < 16) && msgWf m
  | .samovarAccept x => isCoreNo x.core
  | .rresend port m => decide (port < 16) && msgWf m
  | .rdone port m => decide (port < 16) && msgWf m
  | .ctxTimeout port _ => decide (port < 16)
  | .gs1RdoneTimeout port => decide (port < 16)
  | .gform port m => decide (port < 16) && msgWf m
  | .formLimitExpiry _ group => decide (group < 256)
  | .groupReform _ _ => true
  | .sipGroupReform _ _ => true
  | .sipFlitReceive port slot f _ => decide (port < 16) && decide (slot < 256) && decide (f.length = 64)
  | .sipCombineTimeout port => decide (port < 16)
  | .sipNak port f => decide (port < 16) && decide (f.slot < 256) && decide (f.bytes.length = 64)
  | .siphello port slot f => decide (port < 16) && decide (slot < 256) && decide (f.length = 64)
  | .sipTrainComplete port => decide (port < 16)
  | .sipLaneLoss port => decide (port < 16)
  | .govExchangeResult _ => true
  | .partnerDetect port => decide (port < 16)
  | .portTrainComplete port _ _ _ => decide (port < 16)
  | .hello port m => decide (port < 16) && msgWf m
  | .helloRepeat port => decide (port < 16)
  | .pairReceive port _ => decide (port < 16)
  | .ackTimeout port => decide (port < 16)
  | .laneSymThreshold port lane => decide (port < 16) && decide (lane < 34)
  | .sparePrbsExclude port lane => decide (port < 16) && decide (lane < 34)
  | .fastRetrainComplete port _ => decide (port < 16)
  | .fastRetrainTimeout port => decide (port < 16)
  | .cplReceive port m => decide (port < 16) && msgWf m
  | .jfence port m => decide (port < 16) && msgWf m
  | .jfenceDone port m => decide (port < 16) && msgWf m
  | .jfenceTimeout port => decide (port < 16)
  | .bcopy port m => decide (port < 16) && msgWf m
  | .bcopyHandover port m => decide (port < 16) && msgWf m
  | .back port m => decide (port < 16) && msgWf m
  | .bcopyTimeout port => decide (port < 16)
  | .fullRetrain port _ => decide (port < 16)
  | .fastRetrain port _ => decide (port < 16)
  | .portDisable port _ => decide (port < 16)
  | .portEnable port _ => decide (port < 16)
  | .sipRetrain port _ => decide (port < 16)
  | .lnkTest port _ => decide (port < 16)
  | .memoryRead addr _ => decide (addr % 64 = 0)
  | .memoryWrite _ _ _ => true
  | .criticalRead _ _ => true
  | .criticalWrite _ _ _ => true
  | .dieErrThreshold stack die => decide (stack < 64) && decide (die < 18)
  | .ceRateLimit stack => decide (stack < 64)
  | .scrubRead stack _ => decide (stack < 64)
  | .scrubLapLimit stack => decide (stack < 64)
  | .rowCandidateWrite stack k => decide (stack < 64) && decide (k < 64)
  | .memFlipArm stack _ => decide (stack < 64)
  | .memFlipCancel stack _ => decide (stack < 64)
  | .caddyLinkUp _ _ => true
  | .caddyLinkDown => true
  | .nvmeCompletion _ _ => true
  | .nvmeCmdTimeout => true
  | .caddyDeviceAccess _ _ _ => true
  | .preemptPin => true
  | .preemptMarginExpiry => true
  | .ckpHandover _ _ => true
  | .secSeal _ _ _ => true
  | .fwUpdate _ _ _ => true
  | .fwEpochRaise _ _ => true
  | .engTauWrite _ _ => true
  | .engSrSeedWrite _ k _ => decide (k < 4)
  | .engSrCounterWrite _ core _ => isCoreNo core
  | .timCtrlWrite _ _ => true
  | .eventRegisterClear _ _ _ => true
  | .registerWrite _ _ width _ => decide (width = 4 ∨ width = 8)
  | .powerSample _ => true
  | .powerTrip => true
  | .powerTripRelease => true
  | .tempSample _ => true
  | .coolantSample _ => true
  | .sensorTimeout which => decide (which < 3)
  | .warmIdleEnter => true
  | .statusRead m => mgtMsgWf m
  | .alertAck m => mgtMsgWf m
  | .bind m => mgtMsgWf m
  | .power m => mgtMsgWf m
  | .keepWarm m => mgtMsgWf m
  | .preempt m => mgtMsgWf m
  | .jobFence m => mgtMsgWf m
  | .rollback m => mgtMsgWf m
  | .reform m => mgtMsgWf m
  | .handover m => mgtMsgWf m
  | .counterRead m => mgtMsgWf m
  | .recoverWrite m => mgtMsgWf m
  | .recoverCommit m => mgtMsgWf m
  | .statusReport => true
  | .alertResend _ => true
  | .i3cPoll _ => true
  | .sync _ => true
  | .syncTimeout => true
  | .traceSample => true
  | .refclkLoss => true
  | .refclkReturn => true
  | .tagHoldExpiry port tag => decide (port < 16) && decide (tag < 16384)
  | .inputEntersRange _ => true
  | .preemptDeadline => true
  | .announce _ => true
  | .reservedOpcode core _ => isCoreNo core
  | .reservedHostMessage m => hostMsgWf m
  | .reservedMgtMessage m => mgtMsgWf m
  | .mgtLinkUp => true

end Sys2Proof
end

