-- ==== Sys2Proof/Tests/Slice0.lean ====
section
/-! SUPPORT. Tests: an ill-formed command for each check of WellFormed; a state that meets the hypotheses of each statement; a few
single steps against the words of the spec. -/

namespace Sys2Proof.Tests

open Sys2Proof Sys2Proof.Machine

/-! ## Ill-formed commands are refused by WellFormed -/

def hostMsg : HostMsg := { type := 1, queue := 0, tag := 0, length := 8, arg := 0, rsvd := false, truncated := false, payload := [] }
def mgtMsg : MgtMsg :=
  { src := { addr := 0, port := 0 }, magic := 0x4D474D54, version := 1, type := 1, seq := 1, length := 0, serial := 0, job := 0
    rsvd := false, body := [] }
def msg : Msg :=
  { type := 0, status := 0, req := false, resp := false, tag := 0, job := 0, group := 0, epoch := 0, src := 0, dst := 0, length := 0
    chunk := 0, rsvd := false, body := [] }
def obs : IssueObs := { vote := .agree, corrected := [], double := false }

theorem test_wf_sound : (Instr.mrd ⟨hostMsg, StoreObs.clean, 0⟩).wf = true ∧ (Instr.statusRead mgtMsg).wf = true ∧ (Instr.hello 3 msg).wf = true ∧
    (Instr.nop 4075 obs).wf = true := by decide
theorem test_wf_die : (Instr.thermalTrip 64).wf = false := by decide
theorem test_wf_core_number : (Instr.nop 4096 obs).wf = false := by decide
theorem test_wf_core_value : (Instr.nop 12 obs).wf = false := by decide
theorem test_wf_queue : (Instr.instructionComplete 0 ⟨4, ItemObs.clean⟩).wf = false := by decide
theorem test_wf_port : (Instr.hello 16 msg).wf = false := by decide
theorem test_wf_lane : (Instr.laneSymThreshold 0 34).wf = false := by decide
theorem test_wf_tag : (Instr.attemptTimeout 0 16384).wf = false := by decide
theorem test_wf_stack : (Instr.ceRateLimit 64).wf = false := by decide
theorem test_wf_stack_die : (Instr.dieErrThreshold 0 18).wf = false := by decide
theorem test_wf_region : (Instr.regionDrainComplete 65536).wf = false := by decide
theorem test_wf_group : (Instr.formLimitExpiry false 256).wf = false := by decide
theorem test_wf_granule : (Instr.memoryRead 8 default).wf = false := by decide
theorem test_wf_host_type : (Instr.mrd ⟨{ hostMsg with type := 256 }, StoreObs.clean, 0⟩).wf = false := by decide
theorem test_wf_host_queue : (Instr.mrd ⟨{ hostMsg with queue := 256 }, StoreObs.clean, 0⟩).wf = false := by decide
theorem test_wf_host_tag : (Instr.mrd ⟨{ hostMsg with tag := 65536 }, StoreObs.clean, 0⟩).wf = false := by decide
theorem test_wf_host_length : (Instr.mrd ⟨{ hostMsg with length := 4294967296 }, StoreObs.clean, 0⟩).wf = false := by decide
theorem test_wf_mgt_length : (Instr.statusRead { mgtMsg with length := 1 }).wf = false := by decide
theorem test_wf_msg_length : (Instr.hello 0 { msg with length := 1 }).wf = false := by decide
theorem test_wf_mesh_port : (Instr.meshFlitReceive 0 13 (List.replicate 80 0)).wf = false := by decide
theorem test_wf_mesh_flit : (Instr.meshFlitReceive 0 12 []).wf = false := by decide
theorem test_wf_store_word : (Instr.tileStoreWriteback 0 2097152).wf = false := by decide
theorem test_wf_row_candidate : (Instr.rowCandidateWrite 0 64).wf = false := by decide
theorem test_wf_sip_slot : (Instr.sipNak 0 ⟨256, List.replicate 64 0⟩).wf = false := by decide
theorem test_wf_sip_flit : (Instr.sipNak 0 ⟨255, []⟩).wf = false ∧ (Instr.siphello 0 255 []).wf = false ∧
    (Instr.sipFlitReceive 0 255 [] 0).wf = false := by decide

/-! ## States that meet the hypotheses of the statements -/

/-- StepRunsFrontCommand; StepKeepsStoresCanonical and StepKeepsSealAndTakesOneCommand from a canonical, sealed state. -/
theorem test_witness_front : ∃ s t : State, s.pending = [.evtSend] ∧ s.storesWf = true ∧ s.fuse.owner = some 5 ∧ step s = .next t :=
  ⟨{ State.reset with pending := [.evtSend], fuse := { Fuse.shipped with owner := some 5 } }, _, rfl, by decide, rfl, rfl⟩
/-- IdleStepIsOneClockCycle: with the timebase stopped and running. -/
theorem test_witness_idle : (∃ s : State, s.pending = [] ∧ s.tim.started = false) ∧ ∃ s : State, s.pending = [] ∧ s.tim.started = true :=
  ⟨⟨State.reset, rfl, rfl⟩, { State.reset with tim := { Tim.off with started := true } }, rfl, rfl⟩
/-- ExecKeepsQueueSealAndFuses, CommandsThatStoreNothingLeaveMemory, CommandsThatLeaveTheModuleAlone, CommandsThatLeaveMostAlone. -/
theorem test_witness_frame : ∃ (c : Instr) (s t : State), leavesStores c = true ∧ leavesCritical c = true ∧ leavesModule c = true ∧
    leavesMost c = true ∧ exec c s = .next t := ⟨.evtSend, State.reset, _, rfl, rfl, rfl, rfl, rfl⟩
/-- PowerLossKeepsOnlyFlashAndFuses: two states that differ in their memory. -/
theorem test_witness_power_loss : ∃ s u : State, s.flash = u.flash ∧ s.fuse = u.fuse ∧ s.pending = u.pending ∧ s.freeIx = u.freeIx ∧
    s.out = u.out ∧ s.tim.refclk = u.tim.refclk ∧ s.top.pwrEn = u.top.pwrEn ∧ s.mem ≠ u.mem :=
  ⟨State.reset, { State.reset with mem := [(0, 1)] }, rfl, rfl, rfl, rfl, rfl, rfl, rfl, by decide⟩

/-- State.reset with stack n ready. -/
def readyStack (n : Nat) (x : Stack) : State := State.reset.setStack n { x with ready := true }

/-- CorrectableRateDegrades: a ready stack, and one that is not. -/
theorem test_witness_rate : ((readyStack 63 Stack.blank).stack 63).ready = true ∧ (State.reset.stack 0).ready = false := by decide

/-! ### At issue -/

/-- A core that runs a program of two words, `w` first. -/
def running (w : BitVec 128) : Core := { Core.blank with hasProg := true, prog := [w, 0], powered := true, st := .running }
/-- The module with core 0 at `w`. -/
def atWord (w : BitVec 128) : State := State.reset.setCore 0 (running w)
/-- The hypotheses of an instruction's statement at core 0: issue, and a next word. -/
def issues (s : State) (op : Op) : Bool :=
  s.canIssue 0 && decide (Op.ofCode (iOpcode (s.core 0).word) = some op) && wordClean (usesOf op (s.core 0).word) (s.core 0).word &&
    tokensMet (s.core 0).tok (s.core 0).word && decide ((s.core 0).pc + 1 < (s.core 0).prog.length)

theorem issues_sound {s : State} {op : Op} (h : issues s op = true) :
    s.Issues op 0 obs ∧ (s.core 0).pc + 1 < (s.core 0).prog.length := by
  simp only [issues, Bool.and_eq_true, decide_eq_true_eq] at h
  exact ⟨⟨h.1.1.1.1, h.1.1.1.2, by decide, h.1.1.2, h.1.2⟩, h.2⟩
theorem noSignal {s : State} (h : iSignalEn (s.core 0).word = false) : (s.core 0).signalRoom := fun e => by rw [h] at e; cases e

/-- SequencerInstructionsComplete: each of its rows, a loop counter at 0 and 2, a wait of a token at its last place, and a signal
that fills its token. -/
theorem test_witness_sequencer :
    issues (atWord 0x00) .nop = true ∧ issues (atWord 0x02) .jump = true ∧ issues (atWord 0x03) .loop = true ∧
    issues (State.reset.setCore 0 { running 0x03 with lc := [2, 0, 0, 0] }) .loop = true ∧
    issues (atWord 0x10000000000000004) .setlc = true ∧ issues (atWord 0x0300000000000006) .dset = true ∧
    issues (State.reset.setCore 0 { running 0x10F00100000000008 with tok := List.replicate 16 1 }) .wait = true ∧
    issues (atWord 0x0F0000000000000B) .drainu = true ∧ dsetEntry 3 0 0 ≠ none ∧
    (∃ s : State, issues s .nop = true ∧ iSignalEn (s.core 0).word = true ∧ (s.core 0).signalRoom) ∧
    (atWord 0x00 |>.core 0).signalRoom :=
  ⟨by decide, by decide, by decide, by decide, by decide, by decide, by decide, by decide, by decide,
   ⟨State.reset.setCore 0 { running 0x2000000000000 with tok := [65534] }, by decide, by decide, fun _ => by decide⟩,
   noSignal (by decide)⟩

/-- QueueInstructionsIssue: each of its rows, its queue with room. -/
theorem test_witness_queue : (∀ x ∈ [(0x20, Op.mm), (0x21, .mmw), (0x22, .mmrs), (0x23, .wgbrs), (0x24, .wgbclr), (0x2A, .sdwrs),
      (0x2C, .pred), (0x2D, .smmp)], issues (atWord x.1) x.2 = true ∧ (atWord x.1).queueFull 0 0 = false) ∧
    ∀ x ∈ [(0x30, Op.vop), (0x31, .vcvt), (0x32, .vfn), (0x33, .vred), (0x34, .softmax), (0x35, .norm), (0x38, .dfo),
      (0x39, .dsoftmax), (0x3C, .adamw), (0x3D, .sgdm), (0x40, .vrs)],
      issues (atWord x.1) x.2 = true ∧ (atWord x.1).queueFull 0 1 = false := by decide
/-- CopyInstructionsIssue; SparseAndStreamInstructionsIssue. -/
theorem test_witness_copy : ∀ x ∈ [(0x10, Op.copy), (0x11, .copyh)],
    issues (atWord x.1) x.2 = true ∧ (atWord x.1).queueFull 0 2 = false ∧ (atWord x.1).copyWaits 0 = false := by decide
theorem test_witness_stream : (∀ x ∈ [(0x28, Op.smm), (0x29, .smmt), (0x2B, .urnmerge)],
      issues (atWord x.1) x.2 = true ∧ (atWord x.1).queueFull 0 0 = false) ∧
    ∀ x ∈ [(0x14, Op.wreq), (0x15, .wdone), (0x16, .publish), (0x41, .rxwait), (0x48, .sipred)],
      issues (atWord x.1) x.2 = true ∧ (atWord x.1).queueFull 0 3 = false := by decide
/-- EndStopsIssue; BatchIsMarked. -/
theorem test_witness_end_batch : issues (atWord 0x01) .end_ = true ∧ issues (atWord 0x1000000000000000C) .batch = true ∧
    (atWord 0x1000000000000000C |>.core 0).signalRoom := ⟨by decide, by decide, noSignal (by decide)⟩
/-- SignalLeavesForItsTarget: the first and the last core of the wafer. -/
def signals (w : BitVec 128) : Bool := issues (atWord w) .signal && decide (iImm w % 256 ≠ 0) && isCore (iCore w)
theorem test_witness_signal : signals 0x10000000000000009 = true ∧ signals 0xFEB000000010000000000000009 = true :=
  ⟨by decide, by decide⟩
/-- BarrierHoldsAndReleases: a cluster barrier with a core still to come and with the last one; the same over the region. -/
def barrierIn (s : State) (with_ : List Nat) : Bool :=
  issues s .barrier && decide ((s.core 0).waits ≠ .barrier) && !(s.cluster 0).barOpen && !(s.region 256).barOpen &&
    decide (s.clusterProg (s.homeCluster 0) = with_)
set_option maxRecDepth 20000 in
theorem test_witness_barrier_last : barrierIn (atWord 0x0A) [0] = true ∧ barrierIn (atWord 0x010000000000000A) [0] = true ∧
    (atWord 0x010000000000000A).regionProg 0 = [0] := ⟨by decide, by decide, by decide⟩
set_option maxRecDepth 20000 in
theorem test_witness_barrier_first : barrierIn ((atWord 0x0A).setCore 1 (running 0)) [0, 1] = true ∧
    ((atWord 0x0A).setCore 1 (running 0)).maskBit 1 = 1 ∧
    barrierIn ((atWord 0x010000000000000A).setCore 1 (running 0)) [0, 1] = true ∧
    ((atWord 0x010000000000000A).setCore 1 (running 0)).regionProg 0 = [0, 1] := ⟨by decide, by decide, by decide, by decide⟩
/-- A descriptor of a tensor of 1 by 8 in BF16 at the start of core 0's tile store. -/
def rowD : BitVec 256 := BitVec.ofNat 256 (tileBase 0 + 2 ^ 128 + 2 ^ 163 + 2 ^ 193)
/-- The module with core 0 at `w` and rowD as entry 0. -/
def withRow (w : BitVec 128) : State := State.reset.setCore 0 { running w with work := [(0, rowD)] }
/-- The tensor of entry 0 as the statements of DLOAD and CHKRD read it holds n bytes in the core's own store. -/
def rowHolds (w : BitVec 128) (op : Op) (n : Nat) : Bool :=
  (parseTensor ((withRow w).voted op 0 obs).govFormat (((withRow w).core 0).entryOf 0)).any fun x => ownRange 0 x.base n
set_option maxRecDepth 20000 in
/-- DloadFillsTheWorkingCopy: one entry, and 256. -/
theorem test_witness_dload : issues (withRow 0x10000000000000005) .dload = true ∧ rowHolds 0x10000000000000005 .dload 32 = true ∧
    issues (withRow 0x1000000000000000005) .dload = true ∧ rowHolds 0x1000000000000000005 .dload 8192 = true ∧
    iImm 0x1000000000000000005 % 512 = 256 := ⟨by decide, by decide, by decide, by decide, by decide⟩
set_option maxRecDepth 20000 in
/-- ChkrdWritesItsBytes: the first and the last func. -/
theorem test_witness_chkrd : issues (withRow 0x50) .chkrd = true ∧ rowHolds 0x50 .chkrd 64 = true ∧
    issues (withRow 0x0200000000000050) .chkrd = true ∧ rowHolds 0x0200000000000050 .chkrd 64 = true :=
  ⟨by decide, by decide, by decide, by decide⟩
/-- ReservedOpcodeIsMalformed. -/
theorem test_witness_reserved : (atWord 0xFF).canIssue 0 = true ∧ Op.ofCode (iOpcode ((atWord 0xFF).core 0).word) = none ∧
    obs.vote ≠ .noMajority := by decide

/-! ### Power, bring-up and the host link -/

/-- State.reset in module state `st`, past the first phase of bring-up. -/
def inState (st : Nat) : State := State.reset.poke .topMod 0 Reg.TOP_STATE (BitVec.ofNat 64 (2 ^ 33 + st))
/-- The same with the host link up. -/
def hostState (st : Nat) : State := { inState st with host := { HostIf.blank with linkUp := true } }

/-- PowerOnStartsBringup: each of the two conditions the second, and each the first; PowerEnableLowIsCold. -/
theorem test_witness_power_on : ∃ a b c d : State, (a.top.pwrEn = false ∧ a.top.inRange = true) ∧ (b.top.inRange = false ∧ b.top.pwrEn = true) ∧
    (c.top.pwrEn = false ∧ c.top.inRange = false) ∧ d.top.pwrEn = true :=
  ⟨State.reset, { State.reset with top := { Top.cold with pwrEn := true, inRange := false } },
   { State.reset with top := { Top.cold with inRange := false } }, { State.reset with top := { Top.cold with pwrEn := true } },
   ⟨rfl, rfl⟩, ⟨rfl, rfl⟩, ⟨rfl, rfl⟩, rfl⟩
/-- RingStartRaisesItsDies: the first and the last ring. -/
theorem test_witness_ring : (inState stBringup).topState = stBringup ∧ (inState stBringup).top.ringsStarted < 4 ∧
    State.topState { inState stBringup with top := { Top.cold with ringsStarted := 3 } } = stBringup := by decide
/-- BringupReportsTakeEffect, clause by clause. -/
def dieAt (d phase : Nat) : State := (inState stBringup).setDie d { Die.off with phase := phase }
theorem test_witness_router_test : (∀ d ∈ [0, 63], (dieAt d 1).raising d = true ∧ ((dieAt d 1).die d).phase = 1 ∧
    (dieAt d 1).top.routerReports.contains d = false) ∧ ∀ d ∈ [0, 63], ((dieAt d 2).die d).fenced = false ∧
    (dieAt d 2).raising d = true ∧ ((dieAt d 2).die d).phase = 2 ∧ (dieAt d 2).top.stackReports.contains d = false := by decide
/-- The first ring with die 0 past its stack's training. -/
def wavesWait : State := { dieAt 0 3 with top := { Top.cold with ringsStarted := 2 } }
set_option maxRecDepth 20000 in
theorem test_witness_wave : wavesWait.nextWave.head? = some 0 := by decide
theorem test_witness_core_test : ∃ s : State, s.top.waves = [[255]] ∧ s.top.failCounts.contains 4075 = true ∧
    s.flash.failures.length < 256 ∧ s.flash.failures.contains 4075 = false :=
  ⟨{ State.reset with top := { Top.cold with waves := [[255]], failCounts := [4075] } }, by decide⟩
theorem test_witness_mgt_link_up : (inState stReady).powered = true ∧ (inState stReady).mgtUp = false ∧ (inState stReady).tim.refclk = true := by
  decide
/-- BRINGUP with every ring started and every die fenced. -/
def allFenced : State :=
  { inState stBringup with
    top := { Top.cold with ringsStarted := 4 }, dies := (List.range 64).map fun d => (d, { Die.off with fenced := true }) }
theorem test_witness_bringup_complete : allFenced.topState = stBringup ∧ allFenced.allReported = true := by
  refine ⟨by decide, ?_⟩
  decide +kernel

def memMsg (type len : Nat) (arg : Word) : HostMsg :=
  { hostMsg with type := type, length := len, arg := arg, payload := if type = 2 then zeros len else [] }
/-- HostMessagesTakeEffect: a read and a write inside a 256-byte block and across one, an EACK, reserved types, the link down and up. -/
theorem test_witness_host : (∀ x ∈ [(1, 256, 0), (1, 2, 255), (2, 1, 0), (2, 2, 0xFF), (4, 0, 1)],
      (hostState stReady).HostHears (memMsg x.1 x.2.1 x.2.2) x.1) ∧
    (hostState stReady).host.linkUp = true ∧ (hostMsg.type ≠ 0) ∧
    (inState stReady).host.linkUp = false ∧ (inState stReady).hostCanTrain = true ∧ (inState stReady).host.trained = false ∧
    State.hostCanTrain { inState stReady with host := { HostIf.blank with trained := true } } = true := by
  refine ⟨?_, by decide⟩
  intro x hx
  simp only [List.mem_cons, List.not_mem_nil, or_false] at hx
  rcases hx with rfl | rfl | rfl | rfl | rfl <;> exact ⟨by decide, by decide, by decide, by decide⟩
/-- EventsAreNumberedAndAcknowledged: an event not yet sent, in the window; an EACK of the last number given out. -/
theorem test_witness_events : ∃ (s : State) (e : Evt), s.host.linkUp = true ∧ e.seq = 0 ∧ s.host.buf[0]? = some e ∧
    (s.host.buf.filter fun e => !decide (e.seq = 0)).length < s.rfield .hifMod 0 Reg.HIF_CTRL 39 32 ∧
    (∀ j x, j < 0 → s.host.buf[j]? = some x → x.seq ≠ 0) ∧ s.HostHears (memMsg 4 0 1) 4 ∧ 1 < s.host.nextSeq ∧ s.host.acked ≤ 1 :=
  ⟨{ hostState stReady with host := { HostIf.blank with linkUp := true, nextSeq := 2, buf := [{ seq := 0, code := 1, payload := [] }] } }, _, rfl, rfl, rfl,
   by decide, fun _ _ h => absurd h (Nat.not_lt_zero _), ⟨by decide, by decide, by decide, by decide⟩, by decide, by decide⟩

/-! ### Commands of the host -/

/-- A CMD of the code with a body. -/
def cmd (code : Nat) (body : List Byte) : HostMsg :=
  { hostMsg with type := 3, length := body.length, arg := BitVec.ofNat 64 code, payload := body }
/-- What a statement about CMD `code` asks of state and message, but for its own conditions. -/
def takes (s : State) (m : HostMsg) (code : Nat) : Bool :=
  s.host.linkUp && !msgBad m && decide (m.type = 3) && !s.host.tags.contains m.tag && decide (cmdCode m = code) &&
    decide (s.host.queues.length = 16) && s.host.queues.all (fun x => x.waiting.isEmpty) && (s.cmdq m.queue).running.isNone &&
    (hostCmd m).bodyOk && (decide (code = cAttest) || (hostCmd m).accepted (s.taken m).workState)

theorem takes_sound {s : State} {m : HostMsg} {code : Nat} (h : takes s m code = true) :
    s.Takes m code ∧ (code ≠ cAttest → s.accepts m) := by
  simp only [takes, Bool.and_eq_true, decide_eq_true_eq, Bool.not_eq_true', Option.isNone_iff_eq_none, List.all_eq_true,
    List.isEmpty_iff, Bool.or_eq_true] at h
  obtain ⟨⟨⟨⟨⟨⟨⟨⟨⟨h1, h2⟩, h3⟩, h4⟩, h5⟩, h6⟩, h7⟩, h8⟩, h9⟩, h10⟩ := h
  exact ⟨⟨⟨h1, h2, h3, h4⟩, h5, h6, h7, h8, h9⟩, fun n => h10.resolve_left n⟩

/-- An open job of identifier 1 at step 5, in state `st`. -/
def openJob (s : State) (st : StepSt) : State := { s with job := { Job.closed with isOpen := true, id := 1, step := 5, st := st } }
/-- A verified Blend of job 1, and a manager. -/
def blended : State :=
  { (hostState stReady).rbit .cfgMod 0 Reg.CFG_STATUS 4 true with
    blend := { Blend.none with topoHead := leBytes 2 1 }, mgt := { Mgt.idle with manager := some default } }
def jobBody : List Byte := leBytes 8 1 ++ leBytes 8 1 ++ zeros 32
/-- HostCommandsTakeEffect: JOB_OPEN. -/
theorem test_witness_job_open : takes blended (cmd cJobOpen jobBody) cJobOpen = true ∧
    (let u := blended.begun (cmd cJobOpen jobBody)
     leAt jobBody 8 8 ≠ 0 ∧ u.mgt.manager ≠ none ∧ u.job.isOpen = false ∧ leAt jobBody 0 2 ≠ 0 ∧
       u.rflag .cfgMod 0 Reg.CFG_STATUS 4 = true ∧ leAt jobBody 0 2 = u.blend.job ∧ u.loadBusy = false) := ⟨by decide, by decide⟩
/-- STEP_DATA for the first step not started and the one after it, at a boundary and in a running step. -/
def stepData (s : State) (n : Nat) : Bool :=
  let m := cmd cStepData (leBytes 8 n ++ zeros 8)
  let j := (s.begun m).job
  let first := if j.st = .running ∨ j.st = .stopped then j.step + 1 else j.step
  takes s m cStepData && j.isOpen && decide (first ≤ n ∧ n ≤ first + 1)
theorem test_witness_step_data : stepData (openJob (hostState stRunning) .boundary) 5 = true ∧
    stepData (openJob (hostState stRunning) .boundary) 6 = true ∧ stepData (openJob (hostState stRunning) .running) 7 = true :=
  ⟨by decide, by decide, by decide⟩
def loads (s : State) (part : Nat) : Bool :=
  let m := cmd cBlendLoad (zeros 12 ++ leBytes 4 part)
  let u := s.begun m
  takes s m cBlendLoad && !u.loadBusy &&
    !u.othersRun m.queue fun x => decide (x.code = cRegionDrain ∨ x.code = cRegionReset ∨ x.code = cSelfTest)
/-- BLEND_LOAD: whole in READY and in BRINGUP, with no job; a part. -/
theorem test_witness_load : loads (hostState stReady) 0 = true ∧ ((hostState stReady).begun (cmd cBlendLoad (zeros 16))).job.isOpen = false ∧
    ((hostState stReady).begun (cmd cBlendLoad (zeros 16))).topState ≠ stBringup ∧ loads (hostState stBringup) 0 = true ∧
    ((hostState stBringup).begun (cmd cBlendLoad (zeros 16))).topState = stBringup ∧ loads (hostState stReady) 1 = true :=
  ⟨by decide, by decide, by decide, by decide, by decide, by decide⟩
/-- CHECKPOINT, RESTORE and its dry run, JOB_CLOSE, ATTEST. -/
theorem test_witness_checkpoint : takes (openJob (hostState stRunning) .boundary) (cmd cCheckpoint (leBytes 8 1)) cCheckpoint = true ∧
    takes blended (cmd cRestore (leBytes 8 3 ++ leBytes 8 2)) cRestore = true ∧
    takes blended (cmd cRestore (leBytes 8 3 ++ leBytes 8 3)) cRestore = true ∧
    (blended.begun (cmd cRestore (leBytes 8 3 ++ leBytes 8 3))).blend.job ≠ 0 ∧
    (blended.begun (cmd cRestore (leBytes 8 3 ++ leBytes 8 3))).ckp.write = none ∧
    (blended.begun (cmd cRestore (leBytes 8 3 ++ leBytes 8 3))).loadBusy = false ∧
    takes (openJob (hostState stRunning) .boundary) (cmd cJobClose (leBytes 8 1)) cJobClose = true :=
  ⟨by decide, by decide, by decide, by decide, by decide, by decide, by decide⟩
def attesting : State := { hostState stReady with top := { Top.cold with identityOk := true } }
theorem test_witness_attest : takes attesting (cmd cAttest (zeros 40)) cAttest = true ∧
    (attesting.taken (cmd cAttest (zeros 40))).top.identityOk = true ∧ populated 0 4096 = true ∧
    takes { hostState stSafe with top := { Top.cold with identityOk := true } } (cmd cAttest (zeros 40)) cAttest = true :=
  ⟨by decide, by decide, by decide, by decide⟩
/-- RegionCommandsTakeEffect: a region that is there, drained and not. -/
def regioned (x : Region) : State := { State.setRegion (hostState stRunning) 7 x with blend := { Blend.none with regions := [(7, 1)] } }
def onRegion (x : Region) (code : Nat) (body : List Byte) : Bool :=
  let m := cmd code body
  let u := (regioned x).begun m
  takes (regioned x) m code && u.knownRegion 7 && !u.regionTaken m.queue 7 && decide (u.region 7 = x)
theorem test_witness_region : onRegion { Region.blank with drained := true } cRegionDrain (leBytes 8 7) = true ∧
    onRegion Region.blank cRegionDrain (leBytes 8 7) = true ∧ onRegion Region.blank cRegionReset (leBytes 8 7) = true ∧
    onRegion { Region.blank with drained := true } cSelfTest (leBytes 2 7 ++ leBytes 6 1) = true ∧
    onRegion { Region.blank with drained := true } cSelfTest (leBytes 2 7 ++ leBytes 6 3) = true ∧
    ((regioned { Region.blank with draining := true }).region 7).draining = true ∧
    (regioned { Region.blank with draining := true }).regionIdle 7 = true :=
  ⟨by decide, by decide, by decide, by decide, by decide, by decide, by decide⟩
theorem test_witness_self_test : ∃ (s : State) (c : Cmd), s.top.waves = [] ∧
    (s.queuesRunning fun c => decide (c.code = cSelfTest)) = [15] ∧ (s.cmdq 15).running = some c :=
  ⟨State.setCmdq State.reset 15 { CmdQ.blank with running := some { code := cSelfTest, tag := 0, body := [], prog := 0, data := [] } }, _,
   by decide, by decide, rfl⟩

/-! ### Steps and queues -/

def stepState (st : StepSt) : State := openJob (inState stRunning) st
/-- StepsStartAndClose: a step that may start; one that is over, with the exchange before it in and not, its tail held and not. -/
def tailed : State :=
  { stepState .running with
    job := { (stepState .running).job with entered := 4 }
    blend := { Blend.none with areas := [{ kind := aGen0 + 1, inst := 0, base := 0, size := tailBytes }] }
    ckp := { Ckp.idle with send := some { port := 0, step := 3, block := 0, tries := 0, tag := 0, rank := 0 } } }
set_option maxRecDepth 20000 in
theorem test_witness_steps :
    State.canStart { stepState .boundary with job := { (stepState .boundary).job with data := [(5, 1)] } } = true ∧
    tailed.stepOver = true ∧ tailed.exchangeIn = true ∧ tailed.tailHeld 5 = true ∧
    State.tailHeld { tailed with ckp := Ckp.idle } 5 = false ∧ State.stepOver { tailed with ckp := Ckp.idle } = true ∧
    (stepState .running).stepOver = true ∧ (stepState .running).exchangeIn = false :=
  ⟨by decide, by decide, by decide, by decide, by decide, by decide, by decide, by decide⟩
/-- A batch that the one cluster with a program has reported. -/
def batched : State := { State.setCluster (atWord 0) 0 { Cluster.blank with batchReps := [7] } with job := (stepState .running).job }
theorem test_witness_batch : batched.job.st = .running ∧ (batched.programCores.map batched.homeCluster).eraseDups = [0] ∧
    (([0].flatMap fun c => (batched.cluster c).openBatches).find? fun n => [0].all (batched.batchReported n)) = some 7 :=
  ⟨by decide, by decide, by decide⟩
/-- Signatures: of a record, of a checkpoint header, of a report; a migration. -/
def slot : RingSlot := { recordSeq := 0, slot := 0, body := [], signed := false, tries := 0, evt := 0, acked := false, stored := false }
theorem test_witness_signature : ∃ s t u : State, (s.nextRecord = some slot ∧ slot.dead = false) ∧
    ((∀ r, t.nextRecord = some r → r.dead = true) ∧ t.nextRecord ≠ none ∧ t.sec.ckpDue = true) ∧
    (u.nextRecord = none ∧ u.sec.ckpDue = false ∧ u.sec.attests = [(15, [], 0)]) :=
  ⟨{ State.reset with record := { Rec.empty with slots := [slot] } },
   { State.reset with record := { Rec.empty with slots := [{ slot with tries := 2 }] }, sec := { Sec.idle with ckpDue := true } },
   { State.reset with sec := { Sec.idle with attests := [(15, [], 0)] } }, ⟨by decide, by decide⟩,
   ⟨fun r h => Option.some.inj h ▸ by decide, by decide, rfl⟩, by decide, rfl, rfl⟩
theorem test_witness_migration : (({ State.reset with takeovers := [{ core := 4075, spare := 0 }] } : State).takeovers.find?
    fun t => decide (t.core = 4075)).isSome = true := by decide

/-- An entry of a queue. -/
def entry (w : BitVec 128) : QEntry :=
  { word := w, pc := 0, seq := 0, d := [], item := 0, acc := [], status := .ok, replaying := false, fr := 0, aux := 0, data := []
    ahead := .none }
/-- The module with core 4075, the last, working and e at the head of queue q. -/
def headed (q : Nat) (e : QEntry) : State :=
  State.reset.setCore 4075 { running 0 with queues := setNth Core.blank.queues q [e] }
def heads (q : Nat) (e : QEntry) : Bool := (headed q e).coreWorks 4075 && decide ((headed q e).headOf 4075 q = some e)
def mm : QEntry := entry 0x20
def vop : QEntry := entry 0x30
def copyE : QEntry := entry 0x10
/-- QueueHeadsAdvance: each queue, with status OK and with an error. -/
theorem test_witness_heads : (∀ x ∈ [(0, mm), (1, vop), (2, copyE), (3, entry 0x41)],
    heads x.1 x.2 = true ∧ heads x.1 { x.2 with status := .checkFail } = true ∧ x.2.status = .ok) ∧ iOpcode (entry 0x48).word = 0x48 := by
  decide
/-- A pass: begun and not, its start a fault or not; in the bank and in the other one. -/
theorem test_witness_pass : passOp mm.word = true ∧ mm.offered = false ∧ mm.fresh = true ∧
    ((headed 0 mm).beginPasses 4075 mm).1 = some .ok ∧ heads 0 (entry 0x28) = true ∧ (entry 0x28).fresh = true ∧
    passOp (entry 0x28).word = true ∧ ((headed 0 (entry 0x28)).beginPasses 4075 (entry 0x28)).1 = some .malformed ∧
    heads 0 { mm with replaying := true, ahead := .due } = true ∧ heads 0 { mm with replaying := true } = true ∧
    QEntry.fresh { mm with replaying := true } = false :=
  ⟨by decide, by decide, by decide, by decide, by decide, by decide, by decide, by decide, by decide, by decide, by decide⟩
/-- A group: no bad record; observations that fail and do not. VectorGroupIsWritten: a head that has begun, replaying and not. -/
theorem test_witness_group : (headed 1 vop).badRecord vop = false ∧ firstFailing BeatObs.clean = none ∧ BeatObs.clean.double = false ∧
    (firstFailing { BeatObs.clean with lanes := [{ (default : LaneObs) with lane := 255, ma := 1, mb := 1, p := 2 }] }).isSome = true ∧ iOpcode vop.word ≠ 0x40 ∧
    heads 1 { vop with acc := [fzero] } = true ∧ heads 1 { vop with acc := [fzero], replaying := true } = true :=
  ⟨by decide, by decide, by decide, by decide, by decide, by decide, by decide⟩
/-- A wait that times out; an offer without a group. -/
theorem test_witness_timeout : ∃ s : State, s.coreWorks 0 = true ∧ (s.core 0).st = .waiting ∧ (s.core 0).waits ≠ .none ∧ (s.core 0).waits ≠ .genArea :=
  ⟨State.reset.setCore 0 { running 0 with st := .waiting, waits := .token 15 }, by decide⟩
/-- A tensor of 32 by 32 in BF16 and one in FP32 at the start of the store of core 4075. -/
def squareD (fmt : Nat) : BitVec 256 := BitVec.ofNat 256 (tileBase 4075 + 32 * 2 ^ 128 + 32 * 2 ^ 160 + fmt * 2 ^ 192)
/-- A sparse chunk of one block in BF16 at the same place, row form: its head, its segment and its index entry (R218 to R220). -/
def chunkD : BitVec 256 :=
  BitVec.ofNat 256 (tileBase 4075 + 128 + tileBase 4075 * 2 ^ 64 + 32 * 2 ^ 128 + 32 * 2 ^ 160 + 0x22 * 2 ^ 192 + 2 ^ 224)
def chunkBytes : List Byte :=
  leBytes 8 0x00020001_4B504C46 ++ leBytes 8 0x0080_0001_0001_0000 ++ leBytes 8 0x1_00000001 ++ leBytes 8 1 ++ zeros 32 ++
    leBytes 8 (2 ^ 48)
/-- An SMM into the Urn that is to make an addition again. -/
def smmUrn : QEntry := { entry 0x0100000000000028 with d := [squareD 1, squareD 2, chunkD], aux := 3, acc := [fzero] }
set_option maxRecDepth 20000 in
theorem test_witness_urn_again : heads 0 smmUrn = true ∧ urnBound smmUrn.word = true ∧
    (State.passOf { headed 0 smmUrn with mem := putBytes [] (tileBase 4075) chunkBytes } 4075 { smmUrn with aux := 0 }).isSome = true :=
  ⟨by decide, by decide, by decide⟩
/-- A read-out that is offered to group 0: no group, one still forming. -/
def shardD : BitVec 256 := BitVec.ofNat 256 (2 ^ 32 + 0x19 * 2 ^ 192)
def readOut : QEntry := { entry 0x23 with d := [shardD] }
def grouped (st : GrpSt) : State :=
  { headed 0 readOut with coll := { Coll.idle with groups := [(0, {
    cfg := { group := 0, epoch := 1, formats := 1, uplinks := [0], gatherer := 0, job := 1, members := [{ rank := 0, board := 0, position := 0 }] }
    st := st, epoch := 1, asked := [], confirmed := [] })] } }
/-- The chunk is retained already. -/
def retained : State := (grouped .formed).setSam 0 { Sam.idle with retained := [{ (default : Retained) with
  key := { job := 1, group := 0, epoch := 1, chunk := 0 } }] }
def offers (s : State) (o : Offer) : Bool := match s.offered 4075 with
  | some (_, _, x, t, vals) => decide ((s.contribute x (x.chunkBase + t) vals).1 = o)
  | none => false
set_option maxRecDepth 20000 in
theorem test_witness_offer : (headed 0 readOut).coreWorks 4075 = true ∧ offers (headed 0 readOut) (.ends .unavailable false) = true ∧
    offers (grouped .forming) .waits = true ∧ offers retained .accepted = true :=
  ⟨by decide, by decide, by decide, by decide⟩
/-- DmaTransferIsTriedThreeTimes: the first of 128 transfers, the last of one, a try after none, two and three failed ones. -/
def bigD : BitVec 256 := BitVec.ofNat 256 (2 ^ 128 + 0x4000 * 2 ^ 160 + 2 ^ 193)
def copyFull : QEntry := { copyE with d := [bigD] }
set_option maxRecDepth 20000 in
theorem test_witness_dma : heads 2 copyFull = true ∧ 1 < (headed 2 copyFull).transfersLeft copyFull ∧
    heads 2 copyE = true ∧ (headed 2 copyE).transfersLeft copyE ≤ 1 ∧ (headed 2 copyE).copyHeld copyE = false ∧
    copyE.aux % 16 ≠ 2 ∧ heads 2 { copyE with aux := 18 } = true ∧ (18 : Nat) % 16 = 2 :=
  ⟨by decide, by decide, by decide, by decide, by decide, by decide, by decide, by decide⟩
/-- SignalsArriveAndWordsAreWrittenBack: a signal of a whole token, with no instruction behind it, to a core that takes it, to one
without a program, and to one whose takeover is due; a word to be written back. -/
def sig : Sig := { src := 4075, target := 0, tok := 15, count := 255, instr := none }
def signalled (c : Core) : State := { State.reset.setCore 0 c with sigs := [sig] }
def arrives (s : State) (st : Status) : Bool :=
  decide (s.sigs.findIdx? (fun g => decide (g.src = 4075 ∧ g.target = 0)) = some 0) && decide (s.sigs[0]? = some sig) &&
    decide (s.seat 0 = 0) && !s.takeoverDue 0 && decide ((if s.ctlReaches (coreDie 4075) 0 then s.signalStatus 0 else .unavailable) = st)
theorem test_witness_signal_arrives : arrives (signalled (running 0)) .ok = true ∧
    nth 0 ((signalled (running 0)).core 0).tok 15 + 255 ≤ 65535 ∧ arrives (signalled Core.blank) .denied = true := by decide
/-- Core 0 fenced, with a program, in cluster 0, whose spare is `k`. -/
def fencedWith (k : Nat) (c : Core) : State :=
  let s : State := State.reset.setCore 0 { c with fenced := true }
  (s.rset .topCluster 0 Reg.TOP_XBAR_CFG 3 0 k).setCore 11 { Core.blank with powered := true }
def takeover (s : State) : Bool := (s.core 0).fenced && (s.core 0).hasProg && !s.takeoverRuns 0
theorem test_witness_signal_held : (fencedWith 11 (running 0)).seat 0 = 0 ∧ (fencedWith 11 (running 0)).takeoverDue 0 = true ∧
    (((fencedWith 11 (running 0)).cluster 0).held.filter fun y => decide (y.target = 0)).length < 64 := by decide
theorem test_witness_writeback : ∃ s : State, (s.core 4075).writeback.contains 2097151 = true ∧ (s.core 4075).fenced = false ∧ (s.core 4075).powered = true :=
  ⟨State.reset.setCore 4075 { running 0 with writeback := [2097151] }, by decide⟩
/-- SparesTakeOver: with no spare; with one, a core that cannot move, one with no work left, and a busy one. -/
theorem test_witness_takeover : isCore 0 = true ∧ takeover (fencedWith 15 (running 0)) = true ∧
    (fencedWith 15 (running 0)).spareFor ((fencedWith 15 (running 0)).homeCluster 0) = none ∧ (fencedWith 15 (running 0)).health ≠ 2 ∧
    takeover (fencedWith 11 { running 0 with noMigrate := true }) = true ∧
    (fencedWith 11 (running 0)).spareFor ((fencedWith 11 (running 0)).homeCluster 0) = some (11, false) ∧
    (fencedWith 11 (running 0)).coreBusy 0 = false ∧
    State.coreBusy { fencedWith 11 (running 0) with job := (stepState .running).job } 0 = true ∧
    ((fencedWith 11 (running 0)).core 0).noMigrate = false :=
  ⟨by decide, by decide, by decide, by decide, by decide, by decide, by decide, by decide, by decide⟩
/-- MeshFlitsAreChecked: at the last port of the last die, a flit that holds for here, one by a tree whose entry is valid and not,
one that fails, of each class, and a ninth in a row; reports of the first and last level and of a reserved one. -/
def routed (fails tree : Nat) : State :=
  (State.reset.setDie 63 { Die.off with routerOk := true, linkFails := [(12, fails)] }).poke .topDie 63 Reg.TOP_RTR_MCAST (BitVec.ofNat 64 tree)
/-- A flit to die 63 of class c with byte 1 as given and a CRC-16 that is n too high: it holds for 0 and fails for 1. -/
def flit (c b n : Nat) : MeshFlit :=
  let h := leBytes 1 (64 * c + 63) ++ leBytes 1 b ++ zeros 12
  h ++ leBytes 2 ((crc16 (h ++ zeros 64)).toNat + n) ++ zeros 64
theorem flit_ok (c b n : Nat) : flitOk (flit c b n) =
    decide (let x := crc16 ((leBytes 1 (64 * c + 63) ++ leBytes 1 b ++ zeros 12) ++ zeros 64); x.toNat = (x.toNat + n) % 65536) := by
  simp [flitOk, flit, flitHead, leAt, leBytes, zeros, ofLe]
  have e : ∀ x, x % 256 + 256 * (x / 256 % 256) = x % 65536 := by omega
  rw [e]; rfl
theorem flit_fails (c b : Nat) : flitOk (flit c b 1) = false := by
  rw [flit_ok]; simp; omega
theorem flit_holds (c b : Nat) : flitOk (flit c b 0) = true := by
  rw [flit_ok]; simp; omega
set_option maxRecDepth 20000 in
theorem test_witness_mesh : (routed 0 0).linkFenced 63 12 = false ∧ ((routed 0 0).die 63).routerOk = true ∧
    flitOk (flit 0 0 0) = true ∧ flitOk (flit 2 0x10 0) = true ∧ flitOk (flit 1 0 1) = false ∧ flitOk (flit 0 0 1) = false ∧
    (flitHead (flit 0 0 0)).dest = 63 ∧ (flitHead (flit 2 0x10 0)).mcast = true ∧ (flitHead (flit 2 0x10 0)).cls = 2 ∧
    flag ((routed 0 0).peek .topDie 63 Reg.TOP_RTR_MCAST) 63 = false ∧
    flag ((routed 0 (2 ^ 63)).peek .topDie 63 Reg.TOP_RTR_MCAST) 63 = true ∧ Smap.get 0 ((routed 8 0).die 63).linkFails 12 = 8 :=
  ⟨by decide, by decide, flit_holds 0 0, flit_holds 2 0x10, flit_fails 1 0, flit_fails 0 0, rfl, rfl, rfl, by decide, by decide, by decide⟩

/-! ### Trips, samples, arrivals -/

/-- TripsTakeCoreRailsOff: one die with its core rail on, the last; the module tripped and not; a tripped die. -/
def railed : State := (inState stRunning).setDie 63 { Die.off with phase := 3, rails := 15 }
set_option maxRecDepth 20000 in
theorem test_witness_trip : (railed.die 63).coreOn = true ∧ railed.powerTripped = false ∧
    ((List.range 64).filter fun d => (railed.die d).coreOn) ≠ [] ∧
    ((railed.setDie 63 { Die.off with tripped := true }).die 63).tripped = true ∧
    (railed.rbit .ktlMod 0 Reg.KTL_STATUS 12 true).powerTripped = true := ⟨by decide, by decide, by decide, by decide, by decide⟩
/-- KettleSamplesTakeEffect: a powered module; a started die; readings of two sensors and of one; WARM_IDLE from READY and from RUNNING. -/
def warmable (st : Nat) : State := { inState st with mgt := { Mgt.idle with warmOrder := some 400 } }
theorem test_witness_samples : (inState stReady).powered = true ∧ (railed.die 63).phase ≠ 0 ∧ ([-40, 130] : List Int).max? = some 130 ∧
    (warmable stReady).topState = stReady ∧ (warmable stReady).warmTarget ≠ 0 ∧ (∀ e ∈ (warmable stReady).regions, e.2.tripped = false) ∧
    (warmable stRunning).topState = stRunning ∧ (warmable stRunning).job.st ≠ .running ∧
    (∀ e ∈ (warmable stRunning).cores, e.2.st ≠ .running ∧ e.2.st ≠ .waiting) ∧ (warmable stRunning).warmTarget ≠ 0 := by decide

/-- Port 15 in state `st`, of role `r` in job 1, its topology matching, rank 0. -/
def portAt (st r : Nat) : State :=
  ((State.reset.poke .lnkPort 15 Reg.LNK_STATUS (BitVec.ofNat 64 st)).poke .lnkPort 15 Reg.LNK_ROLE (BitVec.ofNat 64 (2 ^ 48 + r))).rbit
    .lnkPort 15 Reg.LNK_PARTNER 0 true
def sent (t job : Nat) (body : List Byte) : Msg :=
  { msg with type := BitVec.ofNat 8 t, job := BitVec.ofNat 16 job, length := BitVec.ofNat 32 body.length, body := body }
def hears (s : State) (m : Msg) (t : Nat) : Bool :=
  decide (m.type.toNat = t) && decide (s.portState 15 = psActive) && msgOk m &&
    (if m.job = 0 then baseType t else decide (m.job.toNat = s.portJob 15)) && roleAllows (s.portRole 15) t &&
    (s.topoMatch 15 || baseType t || decide (t = mCpl)) && (decide (m.dst.toNat = s.rfield .lnkPort 15 Reg.LNK_ROLE 47 32) || rankFree t)
theorem hears_sound {s : State} {m : Msg} {t : Nat} (h : hears s m t = true) : s.PortHears 15 m t := by
  simp only [hears, Bool.and_eq_true, Bool.or_eq_true, decide_eq_true_eq, or_assoc] at h
  obtain ⟨⟨⟨⟨⟨⟨h1, h2⟩, h3⟩, h4⟩, h5⟩, h6⟩, h7⟩ := h
  exact ⟨by decide, h1, h2, h3, by split at h4 <;> simp_all, h5, h6, h7⟩
/-- StreamMessagesAreHandled: each type of message, heard by a port of a role that allows it. -/
theorem test_witness_messages : ∀ x ∈ [(mWdata, 1, zeros 64, 2), (mWpush, 1, zeros 64, 1), (mWack, 1, zeros 64, 2),
      (mRresend, 1, leBytes 4 2, 1), (mRdone, 1, leBytes 4 1 ++ zeros 5, 1), (mGform, 1, zeros 16, 1), (mHello, 0, zeros 48, 1),
      (mJfence, 0, zeros 4, 1), (mJfenceDone, 0, [], 1), (mBcopy, 1, zeros 16, 3), (mCpl, 1, [], 1), (mBack, 1, [], 3)],
    hears (portAt psActive x.2.2.2) (sent x.1 x.2.1 x.2.2.1) x.1 = true := by decide
def timedOut : Msg := { sent mRchunk 1 (leBytes 1 0x19 ++ zeros 15) with status := 7 }
def handover : Msg := sent mBcopy 1 (zeros 7 ++ leBytes 9 0x80)
theorem test_witness_message_forms : hears (portAt psActive 1) timedOut mRchunk = true ∧
    showsHandover (sent mBcopy 1 (zeros 16)) = false ∧ showsHandover handover = true := by decide
/-- MessagesStoppedByR349: each case of a WDATA: a state in which it is dropped, and, on an ACTIVE port, malformed, foreign, denied by
role and by topology, and misrouted. -/
def stops (st r job : Nat) (rank : BitVec 16) (body : List Byte) (topo : Bool) : Bool × Bool × Bool × Bool :=
  let s := (portAt st r).rbit .lnkPort 15 Reg.LNK_PARTNER 0 topo
  let m := { sent mWdata job body with dst := rank }
  (msgOk m, decide (m.job ≠ 0 ∧ m.job.toNat = s.portJob 15), decide (roleAllows (s.portRole 15) mWdata = true ∧ s.topoMatch 15 = true),
    decide (m.dst.toNat = s.rfield .lnkPort 15 Reg.LNK_ROLE 47 32))
theorem test_witness_stopped : (∀ st ∈ [psLinkUp, psNoVersion, psRoleMismatch, psActive, psTest], (portAt st 2).rxState 15 = st) ∧
    (stops psActive 2 1 0 [] true).1 = false ∧ stops psActive 2 0 0 (zeros 64) true = (true, false, true, true) ∧
    stops psActive 2 2 0 (zeros 64) true = (true, false, true, true) ∧ stops psActive 1 1 0 (zeros 64) true = (true, true, false, true) ∧
    stops psActive 2 1 0 (zeros 64) false = (true, true, false, true) ∧ stops psActive 2 1 1 (zeros 64) true = (true, true, true, false) := by
  decide

/-! ### Weights and reductions -/

/-- A request of 16 chunks, `asked` of them asked for, and the Infuser at port 15 with it and a version that is active. -/
def request (asked done : Nat) : InfReq :=
  { (default : InfReq) with
    strm := { (default : InfReq).strm with chunkCount := 16, lead := 1, ringSlots := 1 }, asked := asked, done := done, released := [] }
def layerRec (count : Nat) : LayerRec := { (default : LayerRec) with count := count }
def weights (x : Inf) (count : Nat) : State :=
  { State.reset with wts := { Wts.idle with
    infs := [(15, x)], active := some 3, open_ := false, waitFrom := some 0
    manifests := [{ version := 3, slot := 0, root := zeros 32, recs := [layerRec count] }] } }
/-- WeightServiceTakesEffect: a waiting request whose chunks the manifest holds, just not, and not at all. -/
def waits15 (count : Nat) : State := weights { Inf.idle with waiting := [request 0 0] } count
theorem test_witness_wreq : ((waits15 16).inf 15).waiting = [request 0 0] ∧ (waits15 16).wts.active = some 3 ∧
    (waits15 16).decisionDue = false ∧ ((waits15 16).inf 15).reqs.length < 16 ∧
    (((waits15 16).manifestOf 3).bind fun m => m.entryFor 0 false) = some (layerRec 16) ∧
    (((waits15 15).manifestOf 3).bind fun m => m.entryFor 0 false) = some (layerRec 15) ∧
    (((waits15 16).manifestOf 3).bind fun m => m.entryFor 1 false) = none := by decide
/-- A chunk to ask for, one to deliver, one that follows a push, a push held, and none of them. -/
def chunk : InfChunk := { (default : InfChunk) with what := .chunk 0, follow := true, content := some [] }
def fetching : State := weights { Inf.idle with reqs := [request 0 0], pushes := [default], index := [{ (default : IndexPage) with page := 1 }] } 16
def arrived : State := weights { Inf.idle with reqs := [request 1 0], chunks := [chunk] } 16
set_option maxRecDepth 20000 in
theorem test_witness_fetch : (fetching.inf 15).chunks.filter (·.tagless) = [] ∧ (fetching.inf 15).indexWanted = [] ∧
    (fetching.inf 15).asking = some (request 0 0) ∧ (fetching.inf 15).places < 256 ∧ (fetching.nextDelivery 15) = none ∧
    (fetching.inf 15).pushes = [default] ∧ (arrived.nextDelivery 15).isSome = true ∧ (arrived.inf 15).chunks.find? (·.follow) = some chunk :=
  ⟨by decide, by decide, by decide, by decide, by decide, by decide, by decide, by decide⟩
/-- A tag of a fetch and one of a publication; a stage written and cleared, of the active version and not; limits. -/
def tagged : State :=
  { (State.reset.setPort 15 { Port.down with tags := [(16383, .infuser)] }) with
    wts := { Wts.idle with waitFrom := some 0, active := some 3, pubs := [{ (default : Wpub) with tag := some (0, 0) }] } }
theorem test_witness_stage : tagged.tagUse 15 16383 = some .infuser ∧ tagged.pubOfTag 15 16383 = none ∧ (tagged.pubOfTag 0 0).isSome = true ∧
    tagged.wts.active = some (fld (3 : Word) 31 0) ∧ tagged.wts.active ≠ some (fld (4 : Word) 31 0) ∧ flag (4 : Word) 32 = false ∧
    flag (0x100000000 : Word) 32 = true ∧ (tagged.wts.waitFrom ≠ none ∧ tagged.stageState = 0) ∧
    (tagged.rset .infMod 0 Reg.INF_STAGE 63 62 1).stageState = 1 ∧
    State.stageState { tagged with wts := Wts.idle } = 0 ∧ Wts.idle.active = none := by decide

/-- ReductionsEnd: a context that is open; a GS1 chunk retained; a group and a Sip group that form; one that has formed, and a Sip
group that has, of a job, with an epoch that their kept set does not hold; an exchange with a result and with a reduction to come. -/
def group (st : GrpSt) : Grp :=
  { cfg := { group := 255, epoch := 1, formats := 1, uplinks := [0], gatherer := 0, job := 1, members := [{ rank := 7, board := 0, position := 0 }] }
    st := st, epoch := 1, asked := [], confirmed := [] }
def sipGroup (st : GrpSt) : SipGrp :=
  { cfg := { group := 255, epoch := 1, upPort := 0, root := true, downMask := 0, modules := 4 }
    job := 1, st := st, epoch := 1, asked := [], confirmed := [], base := none, moved := false, done := [] }
def exchange : Exchange := { step := 5, summaries := [], next := 0, open_ := [0], results := [(0, .ok, [])], got := [] }
def collective (st : GrpSt) : State :=
  { stepState .running with coll := { Coll.idle with
    groups := [(255, group st)], sips := [(255, sipGroup st)], exch := some exchange } }
def grpCmd (sip : Bool) : Word := BitVec.ofNat 64 (2 ^ 63 + (if sip then 2 ^ 62 + 3 * 2 ^ 16 else 0) + 2 * 2 ^ 48 + 255 * 2 ^ 40 + 9)
set_option maxRecDepth 20000 in
theorem test_witness_groups : (collective .forming).grp 255 = some (group .forming) ∧
    (collective .forming).sipg 255 = some (sipGroup .forming) ∧ (collective .formed).grp (fld (grpCmd false) 47 40) = some (group .formed) ∧
    flag (grpCmd false) 63 = true ∧ flag (grpCmd false) 62 = false ∧ (group .formed).cfg.members[fld (grpCmd false) 31 16]? ≠ none ∧
    ((collective .formed).epochKept (fld (grpCmd false) 47 40) (fld (grpCmd false) 55 48)).1 = false ∧
    flag (grpCmd true) 63 = true ∧ flag (grpCmd true) 62 = true ∧ (collective .formed).sipg (fld (grpCmd true) 47 40) = some (sipGroup .formed) ∧
    fld (grpCmd true) 31 16 < (sipGroup .formed).cfg.modules ∧
    ((collective .formed).epochKept (256 + fld (grpCmd true) 47 40) (fld (grpCmd true) 55 48)).1 = false :=
  ⟨by decide, by decide, by decide, by decide, by decide, by decide, by decide, by decide, by decide, by decide, by decide, by decide⟩
theorem test_witness_contexts : ∃ (s : State) (c : Ctx), (s.sam 15).ctxs[0]? = some c ∧ c.held = false ∧
    (s.sam 15).retained.any (fun r => decide (r.format = 0xB) && !r.final) = true ∧ s.job.st = .running ∧
    s.coll.exch = some exchange ∧ exchange.open_ ≠ [] :=
  ⟨(collective .formed).setSam 15 { Sam.idle with
    ctxs := [Ctx.blank default 0 false], retained := [{ (default : Retained) with format := 0xB, final := false }] }, _, rfl, by decide⟩

/-! ### Sip ports, stream ports -/

/-- The Sip port 15, named by a group, its rail ready, up or not, with a flit kept in slot 0 that has met n NAKs. -/
def sipAt (up : Bool) (n : Nat) : State :=
  let s : State := { State.reset with coll := { Coll.idle with
    sips := [(255, { sipGroup .formed with cfg := { (sipGroup .formed).cfg with upPort := 15, root := false } })]
    combines := [{ (default : Combine) with group := 255 }] } }
  (((s.setDie (portDie 15) { Die.off with edgeReady := true }).rbit .lnkPort 15 Reg.LNK_STATUS 11 up).setPort 15
    { Port.down with sipSent := [(0, default)], sipNaks := [(0, n)] })
/-- SipPathTakesEffect: a port that comes up; flits that fail, hold, and are IDLE; SIPHELLO and NAK, clean and not; a kept slot, the
third and the fourth NAK; a combine at the unit. -/
theorem test_witness_sip_port : (sipAt false 0).sipNamed 15 = true ∧ (sipAt false 0).sipUp 15 = false ∧ (sipAt false 0).tim.refclk = true ∧
    ((sipAt false 0).die (portDie 15)).edgeReady = true ∧ (sipAt true 0).sipUp 15 = true ∧
    ((sipAt true 0).coll.combines.find? fun c => match (sipAt true 0).sipg c.group with
      | some g => decide (g.cfg.unit = 15)
      | none => false).isSome = true := ⟨by decide, by decide, by decide, by decide, by decide, by decide⟩
def badHello : FlitBytes := sipClose (zeros 2 ++ leBytes 8 2 ++ leBytes 1 1)
def badNak : FlitBytes := sipClose (zeros 2 ++ leBytes 8 1 ++ leBytes 1 1)
theorem test_witness_sip_flits : sipOk (List.replicate 64 0xFF) = false ∧ sipOk (sipClose (leBytes 2 1)) = true ∧
    leAt (sipClose (leBytes 2 1)) 0 2 ≠ 0 := ⟨by decide +kernel, by decide +kernel, by decide⟩
theorem test_witness_sip_control : sipIs 2 (sipHelloFlit 65535 15) = true ∧ sipControlClean (sipHelloFlit 65535 15) = true ∧
    sipIs 2 badHello = true ∧ sipControlClean badHello = false ∧ sipIs 1 badNak = true ∧ sipControlClean badNak = false ∧
    sipIs 1 (sipNakFlit 0) = true ∧ sipControlClean (sipNakFlit 0) = true ∧ leAt (sipNakFlit 0) 3 1 = 0 :=
  ⟨by decide +kernel, by decide +kernel, by decide +kernel, by decide +kernel, by decide +kernel, by decide +kernel, by decide +kernel,
   by decide +kernel, by decide⟩
set_option maxRecDepth 20000 in
theorem test_witness_sip_nak : ∀ n ∈ [2, 3], let v := (sipAt true n).check cSip 1 0 0 0
    (v.port 15).sipSent.find? (fun e => decide (e.1 % 256 = 0 ∧ v.sipNext 15 ≤ e.1 + 64)) = some (0, default) ∧
      Smap.get 0 (v.port 15).sipNaks 0 = n := by decide

/-- PortsTrainAndRecover: each state of a port its clauses name; lanes that make too few and that do not; a lane in use and a spare that
is no more; a JFENCE outstanding. -/
theorem test_witness_ports : (∀ st ∈ [psDetect, psTrain, psLinkUp, psActive, psFast], (portAt st 1).portState 15 = st ∧ (portAt st 1).tim.refclk = true) ∧
    linkedStates.contains psActive = true := by decide
set_option maxRecDepth 20000 in
theorem test_witness_lanes : tooFew 3 = false ∧ tooFew 7 = true ∧ (portAt psTrain 1).fusedLanes 15 true = 0 ∧
    (portAt psTrain 1).fusedLanes 15 false = 0 ∧
    (lanesInUse ((portAt psActive 1).peek .lnkPort 15 Reg.LNK_LANES_RX)).contains 31 = true ∧
    ((portAt psActive 1).port 15).fastFail.testBit 31 = false ∧
    flag ((portAt psActive 1).peek .lnkPort 15 Reg.LNK_LANES_RX) 33 = false ∧
    (lanesInUse ((portAt psActive 1).peek .lnkPort 15 Reg.LNK_LANES_RX)).contains 33 = false ∧
    (portAt psFast 1).rfield .lnkPort 15 Reg.LNK_LANES_TX 33 0 = 0 :=
  ⟨by decide, by decide, by decide, by decide, by decide, by decide, by decide, by decide, by decide⟩
theorem test_witness_jfence : ((State.reset.setPort 15 { Port.down with jfence := some 16383 }).port 15).jfence = some 16383 := by decide
/-- PortCommandsTakeEffect: each command with its go bit; states that are busy, shut and open; tests of each mode and pattern. -/
theorem test_witness_port_commands : (∀ c ∈ [1, 2, 3, 4, 5], flag (BitVec.ofNat 64 (2 ^ 63 + c)) 63 = true ∧ fld (BitVec.ofNat 64 (2 ^ 63 + c)) 3 0 = c) ∧
    (∀ st ∈ [psTrain, psDisabled, psFenced, psActive], (portAt st 1).portState 15 = st) ∧ (portAt psDisabled 1).portRole 15 ≠ 0 := by decide
def test (mode pattern lanes : Nat) : Word := BitVec.ofNat 64 (2 ^ 38 * pattern + 2 ^ 36 * mode + lanes)
set_option maxRecDepth 20000 in
theorem test_witness_lnk_test : fld (test 3 0 0) 37 36 = 3 ∧ fld (test 0 3 0) 39 38 = 3 ∧ fld (test 2 2 0) 37 36 = 2 ∧ fld (test 2 2 0) 39 38 = 2 ∧
    fld (test 1 0 1) 37 36 = 1 ∧ 0 ∈ (portAt psActive 1).usedLanes 15 ∧ (fld (test 1 0 1) 33 0).testBit 0 = true ∧
    fld (test 1 0 (2 ^ 34 - 1)) 33 0 = 2 ^ 34 - 1 :=
  ⟨by decide, by decide, by decide, by decide, by decide, by decide, by decide, by decide⟩

/-! ### Memory -/

/-- WholeGranuleIsStoredAndDelivered, MemoryIsRefused: the last granule of the last stack, ready and not, one past it. -/
theorem test_witness_granule : (0x7FFFFFFFFC0 % 64 = 0 ∧ stackOf (0x2000000000 * 63) = 63) ∧
    populated (0x2000000000 * 63 + stackBytes - 64) 64 = true ∧ populated (0x2000000000 * 63 + stackBytes - 63) 64 = false ∧
    ((readyStack 63 Stack.blank).stack 63).ready = true ∧ (zeros 64).length = 64 ∧
    flag ((readyStack 63 Stack.blank).peek .memDie 63 Reg.MEM_FLIP_MASK) 63 = false ∧
    (∀ j, j < 4 → ∀ x ∈ (readyStack 63 Stack.blank).cwErrs (0x2000000000 * 63) j, x = 0) ∧ (State.reset.stack 63).ready = false := by decide
/-- CriticalWordsAreVotedOn: the first critical word; a copy with two flipped bits. -/
def crit2 : State := { readyStack 0 Stack.blank with crit := [(0, { val := 5, errs := [0, 3, 0] })] }
theorem test_witness_critical : spaceOf critBase = .critical ∧ critBase % 8 = 0 ∧ critStack critBase = 0 ∧ (crit2.stack 0).ready = true ∧
    flag (crit2.peek .memDie 0 Reg.MEM_FLIP_MASK) 63 = false ∧ (crit2.critWord critBase).errs = [0, 3, 0] ∧
    popcount 72 (3 : BitVec 72).toNat ≤ 2 ∧ Writer.firmware ≠ .host ∧ (State.reset.stack (critStack critBase)).ready = false := by decide
/-- MemoryReportsTakeEffect: a stack with no die erased, that die, and another; scrub positions at each end; a row candidate stored and
not; MEM_FLIP_MASK armed, cancelled. -/
def scrubbing (pos : Nat) (crit : Bool) : State :=
  (readyStack 63 { Stack.blank with scrubPos := pos, scrubCrit := crit }).rbit .scrMod 0 Reg.SCR_CTRL 32 true
def cand : RowCand := { (default : RowCand) with marked := true, stored := false }
theorem test_witness_reports : (∀ e ∈ [none, some 17, some 0], ((readyStack 63 { Stack.blank with erased := e }).stack 63).erased = e) ∧
    (scrubbing 0 false).rflag .scrMod 0 Reg.SCR_CTRL 32 = true ∧ ((scrubbing 0 false).stack 63).ready = true ∧
    ((scrubbing (stackBytes - 128) false).stack 63).scrubPos + 64 < stackBytes ∧
    stackBytes ≤ ((scrubbing (stackBytes - 64) false).stack 63).scrubPos + 64 ∧
    ((scrubbing 2097150 true).stack 63).scrubPos + 1 < 2097152 ∧ 2097152 ≤ ((scrubbing 2097151 true).stack 63).scrubPos + 1 ∧
    ((scrubbing 0 false).stack 63).lapSlow = false ∧
    ((readyStack 63 { Stack.blank with cands := [cand] }).stack 63).cands[0]? = some cand ∧
    (readyStack 63 Stack.blank).flash.soft = [] := by decide
theorem test_witness_flip : (State.reset.setDie 63 { Die.off with phase := 3 } |>.die 63).phase ≠ 0 ∧ State.reset.topState ≠ stRunning ∧
    (let v : Word := 0x8000000101000001
     fld v 61 60 ≠ 3 ∧ flag v 63 = true ∧ flag v 62 = false ∧ fld v 39 32 ≠ 0 ∧ fld v 27 24 ≠ 0 ∧ fld v 17 0 ≠ 0) ∧
    flag (0 : Word) 63 = false ∧ flag (0xC000000100000000 : Word) 62 = true := by decide

/-! ### Store, fuses, registers -/

/-- CaddyStoreTakesEffect: a store that comes up and one that is there, a command new and retried, an access to a record's slot and to
none, each case of a notice, a checkpoint held and one written for it, a handover. -/
def edge63 (ckp : Ckp) : State := State.setDie { State.reset with ckp := ckp } 63 { Die.off with edgeReady := true }
theorem test_witness_caddy_up : ((edge63 Ckp.idle).die 63).edgeReady = true ∧ (edge63 Ckp.idle).tim.refclk = true ∧
    (edge63 Ckp.idle).ckp.caddyReady = false ∧ (edge63 Ckp.idle).ckp.nv = [] ∧ (edge63 { Ckp.idle with caddyReady := true }).ckp.caddyReady = true ∧
    (edge63 { Ckp.idle with nv := [{ (default : NvCmd) with retried := true }] }).ckp.nv = [{ (default : NvCmd) with retried := true }] := by
  decide
def slotWrite : State :=
  { edge63 { Ckp.idle with nv := [{ (default : NvCmd) with why := .recordSlot 0, retried := false }] } with record := { Rec.empty with slots := [slot] } }
theorem test_witness_caddy_access : slotWrite.nvBuffer = [(slotWrite.slotAddr 0, 4096)] ∧ populated (slotWrite.slotAddr 0) 4096 = true ∧
    populated 0x80000000000 1 = false ∧ (State.reset.nvBuffer = [] ∧ State.reset.ckp.nv = []) := by decide
def ckpReq : CkpReq := { queues := [], preempt := true, stop := false, at_ := 0 }
theorem test_witness_preempt : (inState stRunning).topState = stRunning ∧ (inState stReady).topState ≠ stRunning ∧ (inState stReady).topState ≠ stWarm ∧
    (stepState .running).job.st = .running ∧
    (∃ s : State, s.ckp.held = some ckpReq ∧ ckpReq.preempt = true ∧ s.job.st = .running) ∧
    ∃ (s : State) (w : CkpWrite), s.ckp.write = some w ∧ w.req.preempt = true :=
  ⟨by decide, by decide, by decide, by decide,
   ⟨{ stepState .running with ckp := { Ckp.idle with held := some ckpReq } }, by decide⟩,
   { State.reset with ckp := { Ckp.idle with write := some { (default : CkpWrite) with req := ckpReq } } }, _, rfl, rfl⟩
/-- The buddy port 15, whose partner takes BCOPY and has held step 5 whole. -/
def buddy : State :=
  (((portAt psActive 3).setPort 15 { Port.down with msgset := 2 ^ mBcopy }).poke .ckpMod 0 Reg.CKP_BUDDY_HOLD (BitVec.ofNat 64 (5 * 2 ^ 32 + 2 ^ 31))).poke
    .ckpMod 0 Reg.CKP_HANDOVER_STEP 5
theorem test_witness_handover : let v : Word := 0x8000000F00000000
    flag v 63 = true ∧ fld v 35 32 = 15 ∧ buddy.canSend 15 mBcopy ≠ .version ∧ buddy.portRole 15 = 3 ∧ buddy.expectRank 15 = fld v 15 0 ∧
    fld (buddy.peek .ckpMod 0 Reg.CKP_BUDDY_HOLD) 31 30 = 2 ∧
    fld (buddy.peek .ckpMod 0 Reg.CKP_BUDDY_HOLD) 63 32 = (buddy.peek .ckpMod 0 Reg.CKP_HANDOVER_STEP).toNat % 2 ^ 32 ∧
    buddy.ckp.hand = none ∧ buddy.ckp.recv = none := by decide
/-- FusesAreWrittenOnce: an unsealed module in READY with an owner key, one without, a sealed one; a running firmware of a higher epoch. -/
def owned : State := (inState stReady).poke .secMod 0 Reg.SEC_OWNER 1
theorem test_witness_seal : flag (0x800000005345414C : Word) 63 = true ∧ fld (0x800000005345414C : Word) 31 0 = 0x5345414C ∧
    owned.fuse.owner = none ∧ owned.topState = stReady ∧ owned.job.isOpen = false ∧ owned.ownerHash ≠ 0 ∧ State.reset.ownerHash = 0 ∧
    fld (0x8000000000000000 : Word) 31 0 ≠ 0x5345414C := by decide
theorem test_witness_firmware : fld (0x9000000000000000 : Word) 62 60 = 1 ∧ fld (0xA000000000000000 : Word) 62 60 = 2 ∧
    fld (0xA000000000000000 : Word) 48 0 = 0 ∧ State.reset.fwRunning.epoch ≤ State.reset.fuse.epoch ∧
    (let s : State := { State.reset with flash := { Flash.shipped with fw := [{ valid := true, version := 0, epoch := 1, digest := 0 }] } }
     s.fuse.epoch < s.fwRunning.epoch) := by decide
/-- RegisterWritesTakeEffect: tau 0 and not; a seed in RUNNING, in READY with a job and without; a counter in a region drained and not;
TIM_CTRL; a release; an event register; addresses that are no register's. -/
def drainedHome (d : Bool) : State :=
  let s : State := State.reset.setRegion 7 { Region.blank with drained := d }
  { s.setCore 0 { Core.blank with powered := true } with blend := { Blend.none with regions := [(7, 1)] } }
set_option maxRecDepth 20000 in
theorem test_witness_registers : fld (0x3FF : Word) 9 0 ≠ 0 ∧ fld (0 : Word) 9 0 = 0 ∧ (inState stRunning).topState = stRunning ∧
    (openJob (inState stReady) .boundary).topState ≠ stRunning ∧ (openJob (inState stReady) .boundary).job.isOpen = true ∧
    isCore 0 = true ∧ (drainedHome true).blockGate .engCore 0 = .ok ∧ (drainedHome true).coreRegion 0 = some 7 ∧
    (drainedHome false).blockGate .engCore 0 = .ok ∧ (drainedHome false).coreRegion 0 = some 7 ∧
    (findReg .timMod Reg.TIM_CTRL).isSome = true ∧ flag (0x8000000000000007 : Word) 63 = true ∧
    (drainedHome true).knownRegion (fld (0x8000000000000007 : Word) 15 0) = true ∧ ((drainedHome true).region 7).drained = true ∧
    ((drainedHome false).region 7).drained = false :=
  ⟨by decide, by decide, by decide, by decide, by decide, by decide, by decide, by decide, by decide, by decide, by decide, by decide,
   by decide, by decide, by decide⟩
set_option maxRecDepth 20000 in
theorem test_witness_event : regSite (blockBase .mgtMod 0 + Reg.MGT_EVENT) = some (.mgtMod, 0, Reg.MGT_EVENT) ∧ Reg.MGT_EVENT % 8 = 0 ∧
    ((findReg .mgtMod Reg.MGT_EVENT).any (·.latches)) = true ∧ State.reset.blockGate .mgtMod 0 = .ok ∧
    regSite 0x300000000000 = none ∧ spaceOf 0x300000000000 = .counter ∧ regSite 0 = none ∧ spaceOf 0 ≠ .counter :=
  ⟨by decide, by decide, by decide, by decide, by decide, by decide, by decide, by decide⟩

/-! ### Management and time -/

/-- A module in state `st` with its management link up, and a request of the module's own serial from its manager. -/
def managed (st : Nat) : State :=
  { (inState st).rbit .mgtMod 0 Reg.MGT_STATUS 0 true with mgt := { Mgt.idle with manager := some default } }
def order (t : Nat) (body : List Byte) : MgtMsg :=
  { mgtMsg with src := default, serial := Config.serial, type := BitVec.ofNat 8 t, length := body.length, body := body }
theorem mgtHears {s : State} {t : Nat} {body : List Byte} (h : (s.powered && s.mgtUp && decide ((order t body).type.toNat = t) &&
    s.mgt.replies.isEmpty && s.mgt.fence.isNone && !s.gForeign (order t body) && decide (body.length ≤ 1200) && gBodyOk t body &&
    s.gAccepts t) = true) : s.MgtHears (order t body) t := by
  simp only [Bool.and_eq_true, decide_eq_true_eq, Bool.not_eq_true', List.isEmpty_iff, Option.isNone_iff_eq_none] at h
  obtain ⟨⟨⟨⟨⟨⟨⟨⟨h1, h2⟩, h3⟩, h4⟩, h5⟩, h6⟩, h7⟩, h8⟩, h9⟩ := h
  exact ⟨h1, h2, by simp [gAddressed, order, mgtMsg], h3, by simp [State.keptReply, h4], by simp [h5], h6,
    ⟨rfl, rfl, h7, h8⟩, rfl, h9⟩
/-- ManagementRequestsTakeEffect: each request, a cap of 0 and the highest, targets of 0, 400, 850, 0xFFFF and beyond, one word and 128. -/
theorem test_witness_requests : (managed stReady).MgtHears (order gStatusRead []) gStatusRead ∧
    (managed stReady).MgtHears (order gAlertAck (leBytes 8 1)) gAlertAck ∧ (managed stReady).MgtHears (order gBind []) gBind ∧
    (managed stReady).MgtHears (order gPower (zeros 8)) gPower ∧ (managed stReady).MgtHears (order gPower (leBytes 4 0xFFFFFFFF ++ zeros 4)) gPower ∧
    (managed stReady).MgtHears (order gKeepWarm (leBytes 8 400)) gKeepWarm ∧ (managed stReady).MgtHears (order gKeepWarm (leBytes 8 851)) gKeepWarm ∧
    (managed stReady).MgtHears (order gCounterRead (leBytes 8 0x300000000000 ++ leBytes 8 128)) gCounterRead :=
  ⟨mgtHears (by decide), mgtHears (by decide), mgtHears (by decide), mgtHears (by decide), mgtHears (by decide), mgtHears (by decide),
   mgtHears (by decide), mgtHears (by decide)⟩
/-- ManagementOrdersTakeEffect: each order; a job open and on a port, and neither; a step held and not. -/
theorem test_witness_orders : (managed stRunning).MgtHears (order gPreempt (leBytes 8 0)) gPreempt ∧
    (managed stRunning).MgtHears (order gJobFence (leBytes 8 1)) gJobFence ∧
    (openJob (managed stRunning) .boundary).MgtHears (order gRollback (leBytes 8 1 ++ leBytes 8 5)) gRollback ∧
    (managed stRunning).MgtHears (order gReform (zeros 8)) gReform ∧ (managed stRunning).MgtHears (order gHandover (zeros 16)) gHandover :=
  ⟨mgtHears (by decide), mgtHears (by decide), mgtHears (by decide), mgtHears (by decide), mgtHears (by decide)⟩
theorem test_witness_last_kib : (0xFFFC00 : Nat) % 1024 = 0 ∧ 0xFFFC00 + 1024 ≤ 16777216 ∧ gBodyOk gRecoverWrite (leBytes 8 0xFFFC00 ++ zeros 1024) = true := by
  decide +kernel
def romState : State := (managed stSafe).rset .topMod 0 Reg.TOP_STATE 27 24 1
theorem test_witness_recovery : romState.MgtHears (order gRecoverCommit (leBytes 8 4096)) gRecoverCommit ∧ romState.recovered 4096 = none ∧
    romState.topState = stSafe ∧ romState.safeCause = 1 :=
  ⟨mgtHears (by decide), by decide +kernel, by decide, by decide⟩
theorem test_witness_fence_job : (openJob (managed stRunning) .boundary).job.isOpen = true ∧ (openJob (managed stRunning) .boundary).job.id = 1 ∧
    (managed stRunning).mgt.fence = none ∧ ((portAt psActive 1).portJob 15 = 1 ∧ (portAt psActive 1).portJob 0 = 0) ∧
    (∃ s : State, s.mgt.fence ≠ none) := ⟨by decide, by decide, by decide, by decide, ⟨{ State.reset with mgt := { Mgt.idle with fence := some default } }, by decide⟩⟩
theorem test_witness_step_held : ((openJob (managed stRunning) .boundary).holdsStep 4).1 = false ∧
    (State.holdsStep { managed stRunning with ckp := { Ckp.idle with area := [some 4, none] } } 4).1 = true := by decide
/-- ManagementMessagesAreChecked: a reserved type; an alert held. -/
def wild (t : Nat) : MgtMsg := { mgtMsg with src := default, serial := Config.serial, type := BitVec.ofNat 8 t }
theorem test_witness_reserved_mgt : (managed stReady).powered = true ∧ (managed stReady).mgtUp = true ∧ gAddressed (wild 0xFF) = true ∧
    (wild 0xFF).type.toNat ∉ gRequests ∧ (managed stReady).keptReply (wild 0xFF) = none ∧ (managed stReady).mgt.fence = none ∧
    (managed stReady).job.isOpen = false ∧ ([default] : List Alert).find? (fun a => decide (a.num = 0)) = some default := by
  refine ⟨by decide, by decide, by simp [gAddressed, wild, mgtMsg], by decide, by decide, by decide, by decide, by decide⟩
/-- TimeServiceTakesEffect: an announcement and a Sync in the domain in force, the first and a later one, at each side of its limits;
the timebase started; trace sampling; the clock lost and there, with power and without. RefclkLossTakesLinksDown. -/
def timed (stepped : Bool) (good : Nat) : State :=
  { managed stReady with tim := { Tim.off with started := true, stepped := stepped, good := good, best := some default } }
theorem test_witness_time : (timed true 15).mgtUp = true ∧ (0 = (timed true 15).tim.domain ∧
      (timed true 15).rfield .timMod 0 Reg.TIM_CTRL 7 0 = (timed true 15).tim.domain) ∧
    (timed true 15).tim.best = some default ∧ (timed true 15).tim.stepped = true ∧ (timed false 0).tim.stepped = false ∧
    (timed true 15).job.isOpen = false ∧ (timed true 15).tim.started = true ∧
    (∀ x ∈ [(1000000, true), (1000001, false), (-1000000, true)], decide (Int.natAbs x.1 ≤ 1000000) = x.2) ∧
    (∀ x ∈ [(499, true), (-500, false)], decide (Int.natAbs x.1 < 500) = x.2) ∧ 15 ≤ (timed true 15).tim.good := by decide
theorem test_witness_clock : ((inState stReady).rset .trcMod 0 Reg.TRC_CTRL 63 48 1).rfield .trcMod 0 Reg.TRC_CTRL 63 48 ≠ 0 ∧
    (inState stReady).powered = true ∧ (inState stReady).tim.refclk = true ∧ State.reset.powered = false ∧ State.reset.tim.refclk = true ∧
    (∃ s : State, s.tim.refclk = false) := ⟨by decide, by decide, by decide, by decide, by decide, ⟨{ State.reset with tim := { Tim.off with refclk := false } }, rfl⟩⟩

/-! ## Against the words of the spec -/

/-- The worked example of spec/01_architecture.md (Example after R35): core 5 of cluster 2 on die 27. -/
theorem test_example_core : coreIdx (4 * 27 + 2) 5 = 0x6E5 ∧ dieRing 27 = 3 ∧ tileBase 0x6E5 = 0x1006E5000000 ∧
    tileBase 0x6E5 + tileBytes - 1 = 0x1006E57FFFFF ∧ stackOf 0x036000000000 = 27 ∧ critStack 0x08001B000000 = 27 ∧
    blockBase .engCore 0x6E5 = 0x20011BBA8000 := by decide
/-- Two copies of the ENG block's first register are not one address: the die window carries no link chiplet (the same example). -/
theorem test_example_no_link : diePort 27 = none ∧ regSite 0x20011B200000 = none := by decide
/-- spec/16_checkpoint.md: a BCOPY of 65,536 bytes is 65,584 bytes with its header and head, which is 263 flits. -/
theorem test_bcopy_flits : (32 + 65552 : Nat) = 65584 ∧ (65584 + 249) / 250 = 263 := by decide
/-- R329: 00, 01, 11, 10 in transmission order are -3, -1, +1, +3. -/
theorem test_gray : (grayOf [false, false, false, true, true, true, true, false]).map pam4 = [-3, -1, 1, 3] := by decide
/-- The check values of CRC-32 and CRC-32C over the ASCII digits 1 to 9 (R339, R358). -/
theorem test_crc : crc32 ((List.range 9).map fun k => BitVec.ofNat 8 (0x31 + k)) = 0xCBF43926 ∧
    crc32c ((List.range 9).map fun k => BitVec.ofNat 8 (0x31 + k)) = 0xE3069283 := ⟨by decide +kernel, by decide +kernel⟩
/-- R359: a NAK of slot 0x5A: job_id 0, kind 1, the slot, and zeros up to the CRC. -/
theorem test_nak : (sipNakFlit 0x5A).take 60 = [0, 0, 1, 0x5A] ++ zeros 56 := by decide
/-- R143: LOOP with its counter at 2 jumps to imm and leaves 1; with 1 it goes on and leaves 0. -/
def looped (n : Nat) : Next := exec (.loop 0 obs) (State.reset.setCore 0 { running 0x03 with lc := [n, 0, 0, 0] })
def after (r : Next) (f : State → Bool) : Bool := match r with | .next t => f t | _ => false
set_option maxRecDepth 20000 in
theorem test_loop : after (looped 2) (fun t => decide ((t.core 0).pc = 0 ∧ nth 9 (t.core 0).lc 0 = 1)) = true ∧
    after (looped 1) (fun t => decide ((t.core 0).pc = 1 ∧ nth 9 (t.core 0).lc 0 = 0)) = true := ⟨by decide, by decide⟩

end Sys2Proof.Tests
end

/-! # Reserved opcodes, and writes of one register

O24 and O55: the reserved opcode at issue, and what a write of 8 bytes does to a register, by the kind of the register. -/

namespace Sys2Proof.Machine

/-! ## Reserved opcodes (R142, R170) -/

/-- A reserved opcode whose reads had a majority: it completes with MALFORMED. -/
theorem exec_reservedOpcode {s : State} {i : Nat} {o : IssueObs} (hi : s.canIssue i = true)
    (hop : Op.ofCode (iOpcode (s.core i).word) = none) (hv : o.vote ≠ .noMajority) :
    exec (.reservedOpcode i o) s = .next ((s.countVotes i 1 o.vote).seqDone i .malformed ((s.core i).pc + 1)) := by
  change execReservedOpcode i o s = _
  simp [execReservedOpcode, hi, hop, hv]

/-- Settles O24: where the core can issue, no arm but the last of RESERVED_OPCODE is open. -/
theorem reservedOpcodeIsMalformed : Obligations.ReservedOpcodeIsMalformed :=
  fun _ _ _ hi hop hv => exec_reservedOpcode hi hop hv

/-! ## A write of a whole register (R7, R34) -/

section
variable {s : State} {b : RBlk} {i o : Nat} {r : RegDef}

theorem regTarget_whole (hr : findReg b o = some r) (ho : o % 8 = 0) (v : Word) :
    regTarget b o 8 v = (.ok, r, o, v, BitVec.allOnes 64) := by
  have haligned : o / 8 * 8 = o := by omega
  simp [regTarget, haligned, hr, ho]

theorem State.merged_whole (s : State) (b : RBlk) (i o : Nat) (v : Word) :
    s.merged b i o v (BitVec.allOnes 64) = v := by
  simp [-BitVec.reduceAllOnes, State.merged]

/-- An EVENT register: the bits written as 1 are cleared. -/
theorem State.regWrite_latches (hr : findReg b o = some r) (ho : o % 8 = 0) (hg : s.blockGate b i = .ok)
    (hl : r.latches = true) (v : Word) :
    s.regWrite b i o 8 v = (.ok, s.clearEvents b i o r v (BitVec.allOnes 64)) := by
  simp [-BitVec.reduceAllOnes, State.regWrite, regTarget_whole hr ho, hg, hl]

/-- A control register takes the write through its checks. -/
theorem State.regWrite_ctrl (hr : findReg b o = some r) (ho : o % 8 = 0) (hg : s.blockGate b i = .ok)
    (hl : r.latches = false) (hc : isCtrl b o = true) (hb : b ≠ .topMod) (v : Word) :
    s.regWrite b i o 8 v = s.wrCtrl b r v (BitVec.allOnes 64) := by
  simp [-BitVec.reduceAllOnes, State.regWrite, regTarget_whole hr ho, hg, hl, hc, hb]

/-- An action register does what its action says. -/
theorem State.regWrite_action (hr : findReg b o = some r) (ho : o % 8 = 0) (hg : s.blockGate b i = .ok)
    (hl : r.latches = false) (hc : isCtrl b o = false) {v : Word} {x : Status × State} (hx : s.wrAction b i o v = some x) :
    s.regWrite b i o 8 v = x := by
  simp [-BitVec.reduceAllOnes, State.regWrite, regTarget_whole hr ho, State.merged_whole, hg, hl, hc, hx]

/-- Any other register with no field that sealing locks stores what its access types let through. -/
theorem State.regWrite_stores (hr : findReg b o = some r) (ho : o % 8 = 0) (hg : s.blockGate b i = .ok)
    (hl : r.latches = false) (hc : isCtrl b o = false) {v : Word} (hx : s.wrAction b i o v = none)
    (hlock : (r.maskOf fun a => decide (a = .rwl)) = 0) (hb : b ≠ .trcMod) :
    s.regWrite b i o 8 v = (.ok, s.poke b i o (r.written (s.peek b i o) v (BitVec.allOnes 64))) := by
  simp [-BitVec.reduceAllOnes, State.regWrite, regTarget_whole hr ho, State.merged_whole, hg, hl, hc, hx, hlock, hb]

/-- A row that writes one register answers the status of that write and lets the stream queues go on. -/
theorem State.regRow_of_regWrite {v : Word} {st : Status} {t : State} (h : s.regWrite b i o 8 v = (st, t)) :
    s.regRow b i o v = (t.answer st).settleStreams := by
  simp [State.regRow, h]

end

/-! ## ENG_TAU (R84, R88) -/

/-- The register ENG_TAU as the table gives it. -/
def engTau : RegDef := ⟨"ENG_TAU", 0x10, 1, 8, [⟨41, 32, .ro, 0x40⟩, ⟨9, 0, .rw, 0x40⟩]⟩

theorem findReg_engTau : findReg .engMod Reg.ENG_TAU = some engTau := rfl

/-- What ENG_TAU holds after a write of `v` over `old`: the factor of the one, every other bit of the other. -/
def tauWord (old v : Word) : Word := (old &&& ~~~0x3FF) ||| (v &&& 0x3FF)

theorem engTau_written (old v : Word) : engTau.written old v (BitVec.allOnes 64) = tauWord old v := by
  have hrw : (engTau.maskOf fun a => decide (a = .rw ∨ a = .rws ∨ a = .rwl)) = 0x3FF := by decide
  have hw1c : (engTau.maskOf fun a => decide (a = .rw1c)) = 0 := by decide
  unfold RegDef.written
  rw [hrw, hw1c]
  simp [-BitVec.reduceAllOnes, tauWord]

theorem fld_tauWord (old v : Word) : fld (tauWord old v) 9 0 = fld v 9 0 := by
  have hmod (w : Word) : fld w 9 0 = (w &&& 0x3FF).toNat := by
    simp [fld, bitsOf, Nat.and_two_pow_sub_one_eq_mod (n := 10)]
  have hlow : tauWord old v &&& 0x3FF = v &&& 0x3FF := by
    have hnot : ~~~(0x3FF : Word) &&& 0x3FF = 0 := by decide
    rw [tauWord, BitVec.and_or_distrib_right, BitVec.and_assoc, hnot, BitVec.and_assoc]
    simp
  rw [hmod, hmod, hlow]

theorem ctrlStatus_engTau (role : Nat → Nat) (w : Word) :
    ctrlStatus role .engMod Reg.ENG_TAU w (BitVec.allOnes 64) = if fld w 9 0 = 0 then .malformed else .ok := by
  have hbit : flag (BitVec.allOnes 64) 0 = true := by decide
  simp [-BitVec.reduceAllOnes, ctrlStatus, putsZero, hbit]

theorem State.wrCtrl_engTau_zero (s : State) {v : Word} (h : fld v 9 0 = 0) :
    s.wrCtrl .engMod engTau v (BitVec.allOnes 64) = (.malformed, s) := by
  have hoff : engTau.off = Reg.ENG_TAU := rfl
  simp [-BitVec.reduceAllOnes, State.wrCtrl, hoff, engTau_written, ctrlStatus_engTau, fld_tauWord, h]

/-- ENG_TAU does not wait for the step boundary, and a value that waits for it is gone. -/
theorem State.wrCtrl_engTau (s : State) {v : Word} (h : fld v 9 0 ≠ 0) :
    s.wrCtrl .engMod engTau v (BitVec.allOnes 64) =
      (.ok, State.poke { s with pendRegs := Smap.del s.pendRegs (blockBase .engMod 0 + Reg.ENG_TAU) } .engMod 0 Reg.ENG_TAU
        (tauWord (s.shown .engMod 0 Reg.ENG_TAU) v)) := by
  have hoff : engTau.off = Reg.ENG_TAU := rfl
  simp [-BitVec.reduceAllOnes, State.wrCtrl, hoff, engTau_written, ctrlStatus_engTau, fld_tauWord, h, State.putCtrl, heldToBoundary]

theorem State.regWrite_engTau (s : State) (v : Word) :
    s.regWrite .engMod 0 Reg.ENG_TAU 8 v = s.wrCtrl .engMod engTau v (BitVec.allOnes 64) :=
  State.regWrite_ctrl findReg_engTau rfl rfl rfl rfl (by decide) v

/-! ## The seed, a core's counter, TIM_CTRL, a release -/

theorem State.regWrite_seed (s : State) {k : Nat} (hk : k < 4) (v : Word) :
    s.regWrite .engMod 0 (Reg.ENG_SR_SEED + 8 * k) 8 v = s.wrSeed k v := by
  have hr : findReg .engMod (Reg.ENG_SR_SEED + 8 * k) = some ⟨"ENG_SR_SEED", 0x40, 4, 8, [⟨63, 0, .wo, 0⟩]⟩ := by
    interval_cases k <;> rfl
  have hc : isCtrl .engMod (Reg.ENG_SR_SEED + 8 * k) = false := by
    interval_cases k <;> rfl
  have hx : s.wrAction .engMod 0 (Reg.ENG_SR_SEED + 8 * k) v = some (s.wrSeed k v) := by
    simp [State.wrAction]
    omega
  exact State.regWrite_action hr (Nat.add_mul_mod_self_left _ _ _) rfl rfl hc hx

theorem State.regWrite_counter {s : State} {i : Nat} (hg : s.blockGate .engCore i = .ok) (v : Word) :
    s.regWrite .engCore i Reg.ENG_SR_COUNTER 8 v = s.wrCounter i v :=
  State.regWrite_action (r := ⟨"ENG_SR_COUNTER", 0x30, 1, 8, [⟨49, 0, .rw, 0⟩]⟩) rfl rfl hg rfl rfl rfl

theorem State.regWrite_timCtrl (s : State) {r : RegDef} (hr : findReg .timMod Reg.TIM_CTRL = some r) (v : Word) :
    s.regWrite .timMod 0 Reg.TIM_CTRL 8 v =
      (.ok, s.poke .timMod 0 Reg.TIM_CTRL (r.written (s.peek .timMod 0 Reg.TIM_CTRL) v (BitVec.allOnes 64))) := by
  have hreg : r = ⟨"TIM_CTRL", 0x0, 1, 8, [⟨7, 0, .rw, 0⟩]⟩ := Option.some.inj (hr.symm.trans rfl)
  subst hreg
  exact State.regWrite_stores hr rfl rfl rfl rfl rfl (by decide) (by decide)

theorem State.regWrite_release (s : State) (v : Word) :
    s.regWrite .topMod 0 Reg.TOP_REGION_RELEASE 8 v = s.wrRelease v :=
  State.regWrite_action (r := ⟨"TOP_REGION_RELEASE", 0x4018, 1, 8, [⟨63, 63, .wo, 0⟩, ⟨15, 0, .wo, 0⟩]⟩) rfl rfl rfl rfl rfl rfl

theorem State.wrSeed_running {s : State} (h : s.topState = stRunning) (k : Nat) (v : Word) : s.wrSeed k v = (.denied, s) := by
  simp [State.wrSeed, h]

theorem State.wrSeed_noJob {s : State} (h : s.topState ≠ stRunning) (hj : s.job.isOpen = false) (k : Nat) (v : Word) :
    s.wrSeed k v = (.ok, s.poke .engMod 0 (Reg.ENG_SR_SEED + 8 * k) v) := by
  simp [State.wrSeed, h, hj]

/-- With a job open, the job's seed takes the word too. -/
theorem State.wrSeed_job {s : State} (h : s.topState ≠ stRunning) (hj : s.job.isOpen = true) (k : Nat) (v : Word) :
    let u := s.poke .engMod 0 (Reg.ENG_SR_SEED + 8 * k) v
    let seed := padTo 32 u.job.seed
    s.wrSeed k v = (.ok, { u with job := { u.job with
      seed := seed.take (8 * k) ++ leBytes 8 v.toNat ++ seed.drop (8 * k + 8) } }) := by
  simp [State.wrSeed, h, hj]

theorem State.wrCounter_drained {s : State} {i r : Nat} (hr : s.coreRegion i = some r) (hd : (s.region r).drained = true)
    (v : Word) : s.wrCounter i v = (.ok, s.setCore i { s.core i with srCounter := fld v 49 0 }) := by
  simp [State.wrCounter, hr, hd]

theorem State.wrCounter_running {s : State} {i r : Nat} (hr : s.coreRegion i = some r) (hd : (s.region r).drained = false)
    (v : Word) : s.wrCounter i v = (.busy, s) := by
  simp [State.wrCounter, hr, hd]

theorem State.wrRelease_drained {s : State} {v : Word} (hv : flag v 63 = true) (hk : s.knownRegion (fld v 15 0) = true)
    (hd : (s.region (fld v 15 0)).drained = true) :
    s.wrRelease v = (.ok, s.setRegion (fld v 15 0) { s.region (fld v 15 0) with released := true }) := by
  unfold State.knownRegion at hk
  simp only [State.wrRelease, hv, hk, hd, not_true_eq_false, if_false]

theorem State.wrRelease_running {s : State} {v : Word} (hv : flag v 63 = true) (hk : s.knownRegion (fld v 15 0) = true)
    (hd : (s.region (fld v 15 0)).drained = false) : s.wrRelease v = (.denied, s) := by
  unfold State.knownRegion at hk
  simp [State.wrRelease, hv, hk, hd]

/-! ## The rows that write registers -/

theorem exec_engTauWrite (s : State) (w : Writer) (v : Word) :
    exec (.engTauWrite w v) s = .next (s.regRow .engMod 0 Reg.ENG_TAU v) := rfl

theorem exec_engSrSeedWrite (s : State) (w : Writer) {k : Nat} (hk : k < 4) (v : Word) :
    exec (.engSrSeedWrite w k v) s = .next (s.regRow .engMod 0 (Reg.ENG_SR_SEED + 8 * k) v) := by
  change execEngSrSeedWrite w k v s = _
  simp [execEngSrSeedWrite, hk]

theorem exec_engSrCounterWrite (s : State) (w : Writer) {i : Nat} (hi : isCore i = true) (v : Word) :
    exec (.engSrCounterWrite w i v) s = .next (s.regRow .engCore i Reg.ENG_SR_COUNTER v) := by
  change execEngSrCounterWrite w i v s = _
  simp [execEngSrCounterWrite, hi]

theorem exec_timCtrlWrite (s : State) (w : Writer) (v : Word) :
    exec (.timCtrlWrite w v) s = .next (s.regRow .timMod 0 Reg.TIM_CTRL v) := rfl

theorem exec_topRegionRelease (s : State) (w : Writer) (v : Word) :
    exec (.topRegionRelease w v) s = .next (s.regRow .topMod 0 Reg.TOP_REGION_RELEASE v) := rfl

theorem exec_eventRegisterClear (s : State) (w : Writer) (v : Word) {a : Nat} {b : RBlk} {i o : Nat} {r : RegDef}
    (ha : regSite a = some (b, i, o)) (hr : findReg b o = some r) (hl : r.latches = true) :
    exec (.eventRegisterClear w a v) s = .next (s.regRow b i o v) := by
  change execEventRegisterClear w a v s = _
  simp [execEventRegisterClear, ha, hr, hl]

theorem exec_registerWrite_unmapped (s : State) (w : Writer) {a : Nat} (ha : regSite a = none) (n : Nat) (v : Word) :
    exec (.registerWrite w a n v) s = .next (s.answer (if spaceOf a = .counter then .denied else .malformed)) := by
  change execRegisterWrite w a n v s = _
  simp [execRegisterWrite, ha]

theorem exec_registerWrite_mapped (s : State) (w : Writer) {a : Nat} {b : RBlk} {i o : Nat} (ha : regSite a = some (b, i, o))
    (n : Nat) (v : Word) : exec (.registerWrite w a n v) s = .next (State.wrote (s.regWrite b i o n v)) := by
  change execRegisterWrite w a n v s = _
  simp [execRegisterWrite, ha, State.wrote]

/-- Settles O55: each row writes its one register, and the write does what the register's rule says. -/
theorem registerWritesTakeEffect : Obligations.RegisterWritesTakeEffect := by
  unfold Obligations.RegisterWritesTakeEffect
  refine ⟨fun s w v => ⟨fun h => ?tauZero, fun h => ?tau⟩,
    fun s w v k hk => ⟨fun h => ?seedDenied, fun h hj => ?seed, fun h hj => ?seedJob⟩,
    fun s w v i r hi hg hr => ⟨fun hd => ?counter, fun hd => ?counterBusy⟩,
    fun s w v r hr => ?timCtrl,
    fun s w v hv hk => ⟨fun hd => ?release, fun hd => ?releaseDenied⟩,
    fun s w v a b i o r ha ho hr hl hg => ?event,
    fun s w v a n => ⟨fun ha => exec_registerWrite_unmapped s w ha n v, fun b i o ha => exec_registerWrite_mapped s w ha n v⟩⟩
  case tauZero => rw [exec_engTauWrite, State.regRow_of_regWrite ((s.regWrite_engTau v).trans (s.wrCtrl_engTau_zero h))]
  case tau =>
    rw [exec_engTauWrite, State.regRow_of_regWrite ((s.regWrite_engTau v).trans (s.wrCtrl_engTau h))]
    rfl
  case seedDenied =>
    rw [exec_engSrSeedWrite s w hk, State.regRow_of_regWrite ((s.regWrite_seed hk v).trans (State.wrSeed_running h k v))]
  case seed =>
    rw [exec_engSrSeedWrite s w hk, State.regRow_of_regWrite ((s.regWrite_seed hk v).trans (State.wrSeed_noJob h hj k v))]
  case seedJob =>
    rw [exec_engSrSeedWrite s w hk, State.regRow_of_regWrite ((s.regWrite_seed hk v).trans (State.wrSeed_job h hj k v))]
  case counter =>
    rw [exec_engSrCounterWrite s w hi, State.regRow_of_regWrite ((State.regWrite_counter hg v).trans (State.wrCounter_drained hr hd v))]
  case counterBusy =>
    rw [exec_engSrCounterWrite s w hi, State.regRow_of_regWrite ((State.regWrite_counter hg v).trans (State.wrCounter_running hr hd v))]
  case timCtrl => rw [exec_timCtrlWrite, State.regRow_of_regWrite (s.regWrite_timCtrl hr v)]
  case release =>
    rw [exec_topRegionRelease, State.regRow_of_regWrite ((s.regWrite_release v).trans (State.wrRelease_drained hv hk hd))]
  case releaseDenied =>
    rw [exec_topRegionRelease, State.regRow_of_regWrite ((s.regWrite_release v).trans (State.wrRelease_running hv hk hd))]
  case event =>
    rw [exec_eventRegisterClear s w v ha hr hl, State.regRow_of_regWrite (State.regWrite_latches hr ho hg hl v)]

end Sys2Proof.Machine

/-! # Stream ports

O47: what each row of a stream port does in the port state it needs. -/

namespace Sys2Proof.Machine

/-! ## The state of a port, through the pattern checkers of its lanes -/

/-- The registers of a link chiplet lie past those of every module-level block. -/
theorem lnkPort_ne_trcMod (p o : Nat) {o' : Nat} (h : o' < 0x100000) :
    blockBase .lnkPort p + o ≠ blockBase .trcMod 0 + o' := by
  have hport : 0x200100000000 ≤ blockBase .lnkPort p + o := by
    simp only [blockBase, dieWin]; omega
  have htrace : blockBase .trcMod 0 + o' < 0x200100000000 := by
    have hbase : blockBase .trcMod 0 = 0x200001400000 := by decide
    omega
  omega

theorem State.portState_raise_event (s : State) (p n : Nat) :
    (s.raise .lnkPort p Reg.LNK_EVENT n).portState p = s.portState p := by
  unfold State.portState State.rfield
  rw [State.peek_raise_ne s (by simp) (lnkPort_ne_trcMod _ _ (by decide)) (lnkPort_ne_trcMod _ _ (by decide))]

theorem State.portState_add_prbsErrs (s : State) (p l n : Nat) :
    (s.add .lnkPort p (Reg.LNK_PRBS_ERRS + 8 * l) n).portState p = s.portState p := by
  unfold State.portState State.rfield
  rw [State.peek_add_ne s (by simp only [Reg.LNK_STATUS, Reg.LNK_PRBS_ERRS]; omega)]

@[simp] theorem State.portState_prbsErrors (s : State) (p : Nat) (e : Nat × Nat) :
    (State.prbsErrors p s e).portState p = s.portState p := by
  unfold State.prbsErrors
  split
  · rfl
  · rw [State.portState_raise_event, State.portState_add_prbsErrs]

@[simp] theorem State.portState_foldl_prbsErrors (s : State) (p : Nat) (es : List (Nat × Nat)) :
    (es.foldl (State.prbsErrors p) s).portState p = s.portState p := by
  induction es generalizing s with
  | nil => rfl
  | cons e es ih => rw [List.foldl_cons, ih, State.portState_prbsErrors]

/-! ## The rows of a port -/

section
variable {s : State} {p : Nat} (hp : p < 16)
include hp

theorem exec_partnerDetect (h : s.portState p = psDetect) (hc : s.tim.refclk = true) :
    exec (.partnerDetect p) s = .next (s.setPortState p psTrain) := by
  change execPartnerDetect p s = _
  simp [execPartnerDetect, hp, h, hc]

theorem exec_portTrainComplete_failed (h : s.portState p = psTrain) (hc : s.tim.refclk = true) (rx tx pre : Nat) :
    let x := s.port p
    let u := s.setPort p { x with trainFails := x.trainFails + 1 }
    exec (.portTrainComplete p false rx ⟨tx, pre⟩) s =
      .next (if 3 ≤ x.trainFails + 1 then u.fencePort p else u.retrain p).settleStreams := by
  change execPortTrainComplete p false rx ⟨tx, pre⟩ s = _
  simp [execPortTrainComplete, hp, h, hc]

/-- Training that ends well, by what the lanes it excludes and those that fuses exclude leave. -/
theorem exec_portTrainComplete_ok (h : s.portState p = psTrain) (hc : s.tim.refclk = true) (rx tx pre : Nat) :
    let x := s.port p
    let r := rx % 2 ^ 34 ||| s.fusedLanes p true
    let t := tx % 2 ^ 34 ||| s.fusedLanes p false
    let u := (s.setLanes p Reg.LNK_LANES_RX r).setLanes p Reg.LNK_LANES_TX t
    let v := (u.setPort p { x.fresh with trainFails := 0, precode := pre % 2 ^ 34 }).setPortState p psLinkUp
    exec (.portTrainComplete p true rx ⟨tx, pre⟩) s = .next
      (if tooFew r = true ∨ tooFew t = true then (u.fencePort p).settleStreams
      else (((v.judgeLanes p).sendHello p).compareTopo).settleStreams) := by
  change execPortTrainComplete p true rx ⟨tx, pre⟩ s = _
  simp only [execPortTrainComplete, Nat.not_le.mpr hp, h, hc, ne_eq, not_true_eq_false, or_self, if_false]

theorem exec_helloRepeat (h : s.portState p = psLinkUp) : exec (.helloRepeat p) s = .next (s.sendHello p) := by
  change execHelloRepeat p s = _
  simp [execHelloRepeat, hp, h]

theorem exec_pairReceive (h : linkedStates.contains (s.portState p) = true) (o : PairObs) :
    exec (.pairReceive p o) s = .next ((o.prbs.foldl (State.prbsErrors p) s).pairIn p o).flushErr.settleStreams := by
  change execPairReceive p o s = _
  simp only [execPairReceive, Nat.not_le.mpr hp, State.portState_foldl_prbsErrors, h, not_true_eq_false, if_false]

theorem exec_ackTimeout (h : linkedStates.contains (s.portState p) = true) :
    exec (.ackTimeout p) s = .next (s.replay p).settleStreams := by
  change execAckTimeout p s = _
  simp only [execAckTimeout, Nat.not_le.mpr hp, h, not_true_eq_false, or_self, if_false]

theorem exec_laneSymThreshold {lane : Nat} (h : linkedStates.contains (s.portState p) = true)
    (hl : (lanesInUse (s.peek .lnkPort p Reg.LNK_LANES_RX)).contains lane = true) (hf : (s.port p).fastFail.testBit lane = false) :
    let left := 34 - popcount 34 (fld (s.peek .lnkPort p Reg.LNK_LANES_RX) 33 0 ||| (s.port p).fastFail ||| 2 ^ lane)
    exec (.laneSymThreshold p lane) s =
      .next (if left < 32 then (s.fencePort p).settleStreams else s.fastRetrain p (2 ^ lane)) := by
  change execLaneSymThreshold p lane s = _
  simp only [execLaneSymThreshold, Nat.not_le.mpr hp, h, hl, hf, not_true_eq_false, Bool.false_eq_true, or_self, if_false]

theorem exec_sparePrbsExclude {lane : Nat} (hlane : lane < 34) (h : linkedStates.contains (s.portState p) = true)
    (hx : flag (s.peek .lnkPort p Reg.LNK_LANES_RX) lane = false)
    (hl : (lanesInUse (s.peek .lnkPort p Reg.LNK_LANES_RX)).contains lane = false) :
    let u := (s.useFree 1).add .lnkPort p (Reg.LNK_PRBS_ERRS + 8 * lane) (30721 + Config.freeValue s.freeIx)
    exec (.sparePrbsExclude p lane) s =
      .next (((u.raise .lnkPort p Reg.LNK_EVENT 14).excludeLanes p Reg.LNK_LANES_RX (2 ^ lane)).judgeLanes p) := by
  change execSparePrbsExclude p lane s = _
  simp only [execSparePrbsExclude, Nat.not_le.mpr hp, Nat.not_le.mpr hlane, h, hx, hl, not_true_eq_false, Bool.false_eq_true,
    or_self, if_false]

theorem exec_fastRetrainTimeout (h : s.portState p = psFast) :
    exec (.fastRetrainTimeout p) s = .next (s.retrain p).settleStreams := by
  change execFastRetrainTimeout p s = _
  simp [execFastRetrainTimeout, hp, h]

/-- The end of a fast retrain, by what the transmit lanes leave. -/
theorem exec_fastRetrainComplete (h : s.portState p = psFast) (tx : Nat) :
    let x := s.port p
    let u := (s.setPort p { x with fastFail := 0 }).setPortState p x.fastFrom
    let v := (u.excludeLanes p Reg.LNK_LANES_RX x.fastFail).excludeLanes p Reg.LNK_LANES_TX (tx % 2 ^ 34)
    exec (.fastRetrainComplete p tx) s = .next
      (if tooFew (tx ||| s.rfield .lnkPort p Reg.LNK_LANES_TX 33 0) = true then (v.fencePort p).settleStreams
      else ((((v.judgeLanes p).resend p).pump p).compareTopo).settleStreams) := by
  change execFastRetrainComplete p tx s = _
  simp only [execFastRetrainComplete, Nat.not_le.mpr hp, h, ne_eq, not_true_eq_false, or_self, if_false]

theorem exec_jfenceTimeout {t : Nat} (h : (s.port p).jfence = some t) :
    let u := (s.setPort p { s.port p with
      jfence := none, tagq := (s.port p).tagq.filter fun q => !decide (q.1 = .jfence) }).holdTag p t
    exec (.jfenceTimeout p) s =
      .next ((if linkedStates.contains (u.portState p) then u.retrain p else u).fencePortDone p).settleStreams := by
  change execJfenceTimeout p s = _
  simp only [execJfenceTimeout, Nat.not_le.mpr hp, h, if_false]

theorem exec_bcopyTimeout : exec (.bcopyTimeout p) s = .next (s.bcopyLate p).flushErr.settleStreams := by
  change execBcopyTimeout p s = _
  simp [execBcopyTimeout, hp]

theorem exec_tagHoldExpiry (tag : Nat) :
    exec (.tagHoldExpiry p tag) s = .next ((s.setPort p { s.port p with
      heldTags := (s.port p).heldTags.filter fun t => !decide (t.1 = tag) }).grantTag p).settleStreams := by
  change execTagHoldExpiry p tag s = _
  simp [execTagHoldExpiry, hp]

end

/-- Settles O47: each row's clause is what the row does in the port state it needs; the pattern errors that a pair brings leave
that state as it is, and where too few lanes are left is one condition of the two rows that end a training. -/
theorem portsTrainAndRecover : Obligations.PortsTrainAndRecover := by
  unfold Obligations.PortsTrainAndRecover
  refine ⟨fun s p hp h hc => exec_partnerDetect hp h hc,
    fun s p rx tx pre hp h hc => exec_portTrainComplete_failed hp h hc rx tx pre,
    fun s p rx tx pre hp h hc => ⟨fun hfew => ?trainTooFew, fun hr ht => ?trained⟩,
    fun s p hp h => exec_helloRepeat hp h,
    fun s p o hp h => ⟨exec_pairReceive hp h o, exec_ackTimeout hp h⟩,
    fun s p lane hp h hl hf => exec_laneSymThreshold hp h hl hf,
    fun s p lane hp hlane h hx hl => exec_sparePrbsExclude hp hlane h hx hl,
    fun s p tx hp h => ⟨exec_fastRetrainTimeout hp h, fun hfew => ?fastTooFew, fun hleft => ?fastDone⟩,
    fun s p t hp h => exec_jfenceTimeout hp h,
    fun s p tag hp => ⟨exec_bcopyTimeout hp, exec_tagHoldExpiry hp tag⟩⟩
  case trainTooFew => exact (exec_portTrainComplete_ok hp h hc rx tx pre).trans (congrArg _ (if_pos hfew))
  case trained =>
    have hleft := not_or_intro (Bool.eq_false_iff.mp hr) (Bool.eq_false_iff.mp ht)
    exact (exec_portTrainComplete_ok hp h hc rx tx pre).trans (congrArg _ (if_neg hleft))
  case fastTooFew => exact (exec_fastRetrainComplete hp h tx).trans (congrArg _ (if_pos hfew))
  case fastDone => exact (exec_fastRetrainComplete hp h tx).trans (congrArg _ (if_neg (Bool.eq_false_iff.mp hleft)))

end Sys2Proof.Machine

/-! # Heads of queues

O36 and O34: the transfers of a copy, and what each row that ends or advances the head of a queue does. -/

namespace Sys2Proof.Machine

/-! ## A head of a queue and its core -/

@[simp] theorem State.core_lostEnd (s : State) (f : Nat × Nat → Bool) (ok : Bool) (j : Nat) : (s.lostEnd f ok).core j = s.core j := by
  dsimp only [State.lostEnd]
  split <;> rfl

@[simp] theorem State.core_meshEnd (s : State) (i n : Nat) (ok : Bool) (j : Nat) : (s.meshEnd i n ok).core j = s.core j :=
  s.core_lostEnd _ ok j

@[simp] theorem State.core_setHead_self (s : State) (i q : Nat) (e : QEntry) :
    (s.setHead i q e).core i = { s.core i with queues := modNth (s.core i).queues q fun l => e :: l.tail } :=
  State.core_setCore_self ..

theorem State.core_setHead_ne (s : State) {i j : Nat} (h : j ≠ i) (q : Nat) (e : QEntry) :
    (s.setHead i q e).core j = s.core j := State.core_setCore_ne _ h _

theorem State.core_transferOk_self (s : State) (i : Nat) (e : QEntry) : (s.transferOk i e).core i =
    { s.core i with
      xfer := (s.core i).xfer + 1, queues := modNth (s.core i).queues 2 fun l => { e with item := e.item + 1, aux := 0 } :: l.tail } := by
  simp [State.transferOk]

theorem State.core_transferOk_ne (s : State) {i j : Nat} (h : j ≠ i) (e : QEntry) : (s.transferOk i e).core j = s.core j := by
  simp [State.transferOk, State.core_setHead_ne _ h, State.core_setCore_ne _ h]

/-! ## DMA_TRANSFER_ACK (R37, R110) -/

/-- An OK for a transfer with others behind it. -/
theorem State.copyStep_more {s : State} {e : QEntry} (h : 1 < s.transfersLeft e) (i : Nat) (o : ItemObs) :
    s.copyStep i e o = s.transferOk i e := by
  simp [State.copyStep, Nat.not_le.mpr h]

/-- An OK for the last transfer, its destination held by no generation area. -/
theorem State.copyStep_last {s : State} {e : QEntry} (h : s.transfersLeft e ≤ 1) (hh : s.copyHeld e = false) (i : Nat) (o : ItemObs) :
    s.copyStep i e o = (s.transferOk i e).copyDone i e o := by
  simp [State.copyStep, h, hh]

section
variable {s : State} {i : Nat} {e : QEntry} (hw : s.coreWorks i = true) (hq : s.headOf i 2 = some e) (he : e.status = .ok)
include hw hq he

theorem exec_dmaTransferAck_ok : exec (.dmaTransferAck i .ok) s = .next (s.copyStep i e ItemObs.clean) := by
  change execDmaTransferAck i .ok s = _
  simp [execDmaTransferAck, hw, hq, he]

theorem exec_dmaTransferAck_again {a : LeafAnswer} (ha : a ≠ .ok) (ht : e.aux % 16 ≠ 2) :
    let crc := decide (16 ≤ e.aux) || decide (a = .crcFail)
    exec (.dmaTransferAck i a) s = .next ((s.check cDma 0 (b2n (crc && decide (e.aux < 16))) 0 0).setHead i 2
      { e with aux := e.aux % 16 + 1 + 16 * b2n crc }) := by
  change execDmaTransferAck i a s = _
  simp only [execDmaTransferAck, hw, hq, he, ha, ht, ne_eq, not_true_eq_false, if_false]

theorem exec_dmaTransferAck_third {a : LeafAnswer} (ha : a ≠ .ok) (ht : e.aux % 16 = 2) :
    exec (.dmaTransferAck i a) s = .next ((((s.check cDma 1 (b2n (decide (e.aux < 16))) 0 0).setHead i 2
      { e with aux := 18 }).transferLost i).retire i 2 .checkFail false) := by
  change execDmaTransferAck i a s = _
  simp only [execDmaTransferAck, hw, hq, he, ha, ht, ne_eq, not_true_eq_false, if_false, if_true]

end

/-- Settles O36, by the answer and the tries that have failed: no count of a check reaches a core, so the head's own core alone
differs. -/
theorem dmaTransferIsTriedThreeTimes : Obligations.DmaTransferIsTriedThreeTimes := by
  unfold Obligations.DmaTransferIsTriedThreeTimes
  intro s i e a hw hq he
  refine ⟨fun ha hmore => ?more, fun ha hlast hheld => ?last, fun ha ht => ?again, fun ha ht => ?third⟩
  case more =>
    subst ha
    refine ⟨s.transferOk i e, ?_, s.core_transferOk_self i e, fun j hj => s.core_transferOk_ne hj e⟩
    rw [exec_dmaTransferAck_ok hw hq he, State.copyStep_more hmore]
  case last =>
    subst ha
    rw [exec_dmaTransferAck_ok hw hq he, State.copyStep_last hlast hheld]
  case again =>
    exact ⟨_, exec_dmaTransferAck_again hw hq he ha ht, State.core_setHead_self .., fun j hj => State.core_setHead_ne _ hj ..⟩
  case third => exact exec_dmaTransferAck_third hw hq he ha ht

/-! ## An entry that has not begun -/

theorem QEntry.aux_of_fresh {e : QEntry} (h : e.fresh = true) : e.aux = 0 := by
  simp only [QEntry.fresh, Bool.and_eq_true, decide_eq_true_eq] at h
  obtain ⟨⟨⟨-, haux⟩, -⟩, -⟩ := h
  exact haux

theorem QEntry.replaying_of_fresh {e : QEntry} (h : e.fresh = true) : e.replaying = false := by
  simp only [QEntry.fresh, Bool.and_eq_true, Bool.not_eq_true'] at h
  obtain ⟨-, hreplaying⟩ := h
  exact hreplaying

section
variable {s : State} {i : Nat} {e : QEntry} (hw : s.coreWorks i = true)
include hw

/-! ## INSTRUCTION_COMPLETE (R129) -/

section
variable (o : ItemObs)

theorem exec_instructionComplete_error {q : Nat} (hq : q < 4) (hh : s.headOf i q = some e) (he : e.status ≠ .ok) :
    exec (.instructionComplete i ⟨q, o⟩) s = .next (s.retire i q e.status false).settleStreams := by
  change execInstructionComplete i ⟨q, o⟩ s = _
  simp [execInstructionComplete, hw, hh, he, Nat.not_le.mpr hq]

theorem exec_instructionComplete_engine (hh : s.headOf i 0 = some e) (he : e.status = .ok) :
    exec (.instructionComplete i ⟨0, o⟩) s = .next (s.runItems i 0 e.seq o (2 * s.totalItems i e + 2)).settleStreams := by
  change execInstructionComplete i ⟨0, o⟩ s = _
  simp [execInstructionComplete, hw, hh, he]

theorem exec_instructionComplete_vector (hh : s.headOf i 1 = some e) (he : e.status = .ok) :
    exec (.instructionComplete i ⟨1, o⟩) s = .next (s.runItems i 1 e.seq o (s.vecCount e + s.vrsChunks e + 2)).settleStreams := by
  change execInstructionComplete i ⟨1, o⟩ s = _
  simp [execInstructionComplete, hw, hh, he]

theorem exec_instructionComplete_copy (hh : s.headOf i 2 = some e) (he : e.status = .ok) :
    exec (.instructionComplete i ⟨2, o⟩) s = .next (s.copyRun i e.seq o (s.transfersLeft e)).settleStreams := by
  change execInstructionComplete i ⟨2, o⟩ s = _
  simp [execInstructionComplete, hw, hh, he]

theorem exec_instructionComplete_stream (hh : s.headOf i 3 = some e) (he : e.status = .ok) :
    exec (.instructionComplete i ⟨3, o⟩) s = .next (s.streamItem i e o).settleStreams := by
  change execInstructionComplete i ⟨3, o⟩ s = _
  simp [execInstructionComplete, hw, hh, he]

end

/-! ## TILE_PASS_VERDICT (R77, R78, R84, R238) -/

section
variable (hh : s.headOf i 0 = some e) (hp : passOp e.word = true) (ho : e.offered = false) (o : PassObs)
include hh hp ho

theorem exec_tilePassVerdict_error (he : e.status ≠ .ok) : exec (.tilePassVerdict i o) s = .next (s.retireUrn i e.status) := by
  change execTilePassVerdict i o s = _
  simp [execTilePassVerdict, State.passVerdict, hw, hh, hp, ho, he]

variable (he : e.status = .ok)
include he

theorem exec_tilePassVerdict_urnAgain (ha : urnBound e.word = true ∧ (e.aux = 2 ∨ e.aux = 3)) {p : Pass}
    (hpass : s.passOf i { e with aux := 0 } = some p) :
    exec (.tilePassVerdict i o) s = .next ((s.urnAdd i e p e.acc o).releaseAhead i e.seq) := by
  change execTilePassVerdict i o s = _
  simp only [he] at hpass
  simp [execTilePassVerdict, State.passVerdict, hw, hh, hp, ho, he, ha, hpass]

variable (ha : ¬ (urnBound e.word = true ∧ (e.aux = 2 ∨ e.aux = 3)))
include ha

theorem exec_tilePassVerdict_ahead (hb : e.replaying = true ∧ e.ahead = .due) :
    exec (.tilePassVerdict i o) s = .next (s.judgeAhead i e o) := by
  change execTilePassVerdict i o s = _
  simp only [execTilePassVerdict, State.passVerdict, hw, hh, hp, ho, he, ha, hb, not_true_eq_false, Bool.false_eq_true,
    ne_eq, or_self, and_self, if_false, if_true]

variable (hb : ¬ (e.replaying = true ∧ e.ahead = .due))
include hb

theorem exec_tilePassVerdict_begun (hf : e.fresh = false) : exec (.tilePassVerdict i o) s = .next (s.judgePass i e o) := by
  change execTilePassVerdict i o s = _
  simp only [execTilePassVerdict, State.passVerdict, hw, hh, hp, ho, he, ha, hb, hf, not_true_eq_false, Bool.false_eq_true,
    ne_eq, or_self, if_false]

theorem exec_tilePassVerdict_fresh (hf : e.fresh = true) {st : Status} (hst : (s.beginPasses i e).1 = some st) :
    exec (.tilePassVerdict i o) s = .next
      (if st = .ok then (s.beginPasses i e).2.judgePass i e o else (s.beginPasses i e).2.retireUrn i st) := by
  change execTilePassVerdict i o s = _
  simp only [execTilePassVerdict, State.passVerdict, hw, hh, hp, ho, he, ha, hb, hf, hst, not_true_eq_false,
    Bool.false_eq_true, ne_eq, or_self, if_false, if_true]
  cases st <;> rfl

end

/-! ## VECTOR_BEAT_CHECK (R98, R99) -/

section
variable (hh : s.headOf i 1 = some e) (o : BeatObs)
include hh

theorem exec_vectorBeatCheck_error (he : e.status ≠ .ok) :
    exec (.vectorBeatCheck i o) s = .next (s.retire i 1 e.status false) := by
  change execVectorBeatCheck i o s = _
  simp [execVectorBeatCheck, State.beatVerdict, hw, hh, he]

variable (he : e.status = .ok) (hr : s.badRecord e = false)
include he hr

theorem exec_vectorBeatCheck_double (hd : o.double = true) : exec (.vectorBeatCheck i o) s =
    .next ((s.tsReads i (s.groupWords e (min 256 (s.vecCount e - 256 * e.item))) o.corrected o.double).fenceCore i csStore) := by
  change execVectorBeatCheck i o s = _
  simp [execVectorBeatCheck, State.beatVerdict, hw, hh, he, hr, hd]

variable (hd : o.double = false)
include hd

theorem exec_vectorBeatCheck_fails {lane kind : Nat} (hl : firstFailing o = some (lane, kind)) :
    let u := s.tsReads i (s.groupWords e (min 256 (s.vecCount e - 256 * e.item))) o.corrected o.double
    exec (.vectorBeatCheck i o) s = .next ((u.vecBegin e).2.failBeat i (u.vecBegin e).1 lane kind) := by
  change execVectorBeatCheck i o s = _
  simp [execVectorBeatCheck, State.beatVerdict, hw, hh, he, hr, hd, hl]

theorem exec_vectorBeatCheck_passes (hl : firstFailing o = none) :
    let u := s.tsReads i (s.groupWords e (min 256 (s.vecCount e - 256 * e.item))) o.corrected o.double
    exec (.vectorBeatCheck i o) s = .next ((u.vecBegin e).2.passBeat i (u.vecBegin e).1 o) := by
  change execVectorBeatCheck i o s = _
  simp [execVectorBeatCheck, State.beatVerdict, hw, hh, he, hr, hd, hl]

end

/-! ## DMA_TIMEOUT (R493) -/

theorem exec_dmaTimeout_error (hh : s.headOf i 2 = some e) (he : e.status ≠ .ok) :
    exec (.dmaTimeout i) s = .next (s.retire i 2 e.status false) := by
  change execDmaTimeout i s = _
  simp [execDmaTimeout, hw, hh, he]

theorem exec_dmaTimeout_ok (hh : s.headOf i 2 = some e) (he : e.status = .ok) : exec (.dmaTimeout i) s =
    .next (((s.check cDma (b2n (decide (16 ≤ e.aux))) 0 0 0).transferLost i).retire i 2 .timeout false) := by
  change execDmaTimeout i s = _
  simp [execDmaTimeout, hw, hh, he]

/-! ## WAIT_TIMEOUT (R131) -/

theorem exec_waitTimeout_issue (h : (s.core i).st = .waiting) (hn : (s.core i).waits ≠ .none) (hg : (s.core i).waits ≠ .genArea) :
    exec (.waitTimeout i false) s = .next (s.waitOver i) := by
  change execWaitTimeout i false s = _
  simp [execWaitTimeout, hw, h, hn, hg]

theorem exec_waitTimeout_queue (hh : s.headOf i 3 = some e) (hop : iOpcode e.word = 0x41 ∨ iOpcode e.word = 0x48) :
    exec (.waitTimeout i true) s =
      .next (((s.leaveSip e.seq i).raise .seqCore i Reg.SEQ_EVENT 1).retire i 3 .timeout false).settleStreams := by
  change execWaitTimeout i true s = _
  simp [execWaitTimeout, hw, hh, hop]

/-! ## SAMOVAR_ACCEPT (R154, R302) -/

section
variable {o : StoreObs} {q : Nat} {x : Shard} {t : Nat} {vals : List FVal} (ho : s.offered i = some (q, e, x, t, vals))
  (hr : ¬ (e.readsOut q = true ∧ o.double = true))
include ho hr

theorem exec_samovarAccept_waits (hc : (s.contribute x (x.chunkBase + t) vals).1 = .waits) :
    exec (.samovarAccept ⟨i, o⟩) s = .next (s.contribute x (x.chunkBase + t) vals).2.settleStreams := by
  change execSamovarAccept ⟨i, o⟩ s = _
  simp only [execSamovarAccept, State.samovarAccept, hw, ho, hr, hc, not_true_eq_false, if_false]

theorem exec_samovarAccept_ends {st : Status} {area : Bool} (hc : (s.contribute x (x.chunkBase + t) vals).1 = .ends st area) :
    exec (.samovarAccept ⟨i, o⟩) s = .next ((s.contribute x (x.chunkBase + t) vals).2.retire i q st area).settleStreams := by
  change execSamovarAccept ⟨i, o⟩ s = _
  simp only [execSamovarAccept, State.samovarAccept, hw, ho, hr, hc, not_true_eq_false, if_false]

theorem exec_samovarAccept_accepted (hc : (s.contribute x (x.chunkBase + t) vals).1 = .accepted) :
    exec (.samovarAccept ⟨i, o⟩) s =
      .next (((((s.contribute x (x.chunkBase + t) vals).2.offerReads i q e o).govChunk i x.layer vals).offerDone i q e).settleStreams) := by
  change execSamovarAccept ⟨i, o⟩ s = _
  simp only [execSamovarAccept, State.samovarAccept, hw, ho, hr, hc, not_true_eq_false, if_false]

end

end

/-- Settles O34: each clause is one branch of its row. Before its first pass an entry has no addition to make again and no pass
being replayed, so beginning the passes comes next. -/
theorem queueHeadsAdvance : Obligations.QueueHeadsAdvance := by
  unfold Obligations.QueueHeadsAdvance
  intro s i e hw
  refine ⟨fun q o hq hh he => exec_instructionComplete_error hw o hq hh he,
    fun o hh he => exec_instructionComplete_engine hw o hh he,
    fun o hh he => exec_instructionComplete_vector hw o hh he,
    fun o hh he => exec_instructionComplete_copy hw o hh he,
    fun o hh he => exec_instructionComplete_stream hw o hh he,
    fun o hh hp ho => ⟨fun he => exec_tilePassVerdict_error hw hh hp ho o he,
      fun he ha p hpass => exec_tilePassVerdict_urnAgain hw hh hp ho o he ha hpass,
      fun he ha hb => exec_tilePassVerdict_ahead hw hh hp ho o he ha hb,
      fun he ha hb hf => exec_tilePassVerdict_begun hw hh hp ho o he ha hb hf,
      fun he hf st hst => ?fresh⟩,
    fun o hh => ⟨fun he => exec_vectorBeatCheck_error hw hh o he,
      fun he hr hd => exec_vectorBeatCheck_double hw hh o he hr hd,
      fun he hr hd lane kind hl => exec_vectorBeatCheck_fails hw hh o he hr hd hl,
      fun he hr hd hl => exec_vectorBeatCheck_passes hw hh o he hr hd hl⟩,
    fun hh he => exec_dmaTimeout_error hw hh he, fun hh he => exec_dmaTimeout_ok hw hh he,
    fun h hn hg => exec_waitTimeout_issue hw h hn hg, fun hh hop => exec_waitTimeout_queue hw hh hop,
    fun o q x t vals ho hr => ⟨fun hc => exec_samovarAccept_waits hw ho hr hc,
      fun st area hc => exec_samovarAccept_ends hw ho hr hc, fun hc => exec_samovarAccept_accepted hw ho hr hc⟩⟩
  case fresh =>
    have ha : ¬ (urnBound e.word = true ∧ (e.aux = 2 ∨ e.aux = 3)) := by simp [QEntry.aux_of_fresh hf]
    have hb : ¬ (e.replaying = true ∧ e.ahead = .due) := by simp [QEntry.replaying_of_fresh hf]
    exact exec_tilePassVerdict_fresh hw hh hp ho o he ha hb hf hst

end Sys2Proof.Machine

/-! # Spare cores

O38: what SPARE_TAKEOVER does with a fenced core, by its spare and by what it has to move. -/

namespace Sys2Proof.Machine

/-! ## SPARE_TAKEOVER (R485, R487, R490) -/

section
variable {s : State} {i : Nat} (hi : isCore i = true) (hf : (s.core i).fenced = true) (hp : (s.core i).hasProg = true)
  (hr : s.takeoverRuns i = false)
include hi hf hp hr

theorem exec_spareTakeover_noSpare (o : CopyOutcome) (hs : s.spareFor (s.homeCluster i) = none) (hh : s.health ≠ 2) :
    exec (.spareTakeover i o) s = .next ((s.failHealth 3).stepFail csNoSpare lvOperator .checkFail i) := by
  change execSpareTakeover i o s = _
  simp [execSpareTakeover, hi, hf, hp, hr, hs, hh]

variable {j : Nat} {b : Bool} (hs : s.spareFor (s.homeCluster i) = some (j, b))
include hs

theorem exec_spareTakeover_cannotMove (o : CopyOutcome) (hm : (s.core i).noMigrate = true) :
    exec (.spareTakeover i o) s = .next (s.migrationLost.takeoverOnly i j b) := by
  change execSpareTakeover i o s = _
  simp [execSpareTakeover, hi, hf, hp, hr, hs, hm]

variable (hm : (s.core i).noMigrate = false)
include hm

theorem exec_spareTakeover_idle (o : CopyOutcome) (hb : s.coreBusy i = false) :
    exec (.spareTakeover i o) s = .next (s.takeoverOnly i j b) := by
  change execSpareTakeover i o s = _
  simp [execSpareTakeover, hi, hf, hp, hr, hs, hm, hb]

variable (hb : s.coreBusy i = true)
include hb

theorem exec_spareTakeover_decoded (tile : List Nat) (wgb : Nat) :
    let u := (s.copyStores i j tile wgb).applyTakeover i j b
    exec (.spareTakeover i (.decoded tile wgb)) s = .next { u with takeovers := u.takeovers ++ [{ core := i, spare := j }] } := by
  change execSpareTakeover i (.decoded tile wgb) s = _
  simp [execSpareTakeover, hi, hf, hp, hr, hs, hm, hb]

theorem exec_spareTakeover_undecoded : exec (.spareTakeover i .undecoded) s =
    .next ((((s.tsReads i 2097152 [] true).migrationLost).stepFail csStore lvRollback .dataErr i).takeoverOnly i j b) := by
  change execSpareTakeover i .undecoded s = _
  simp [execSpareTakeover, hi, hf, hp, hr, hs, hm, hb]

theorem exec_spareTakeover_noAnswer : exec (.spareTakeover i .noAnswer) s =
    .next ((s.migrationLost.stepFail csTile lvRollback .checkFail i).takeoverOnly i j b) := by
  change execSpareTakeover i .noAnswer s = _
  simp [execSpareTakeover, hi, hf, hp, hr, hs, hm, hb]

end

/-- Settles O38, by the spare, by what the fenced core has to move, and by how the copy of its stores ends. -/
theorem sparesTakeOver : Obligations.SparesTakeOver := by
  unfold Obligations.SparesTakeOver
  intro s i o hi hf hp hr
  refine ⟨fun hs hh => exec_spareTakeover_noSpare hi hf hp hr o hs hh, fun j b hs =>
    ⟨fun hm => exec_spareTakeover_cannotMove hi hf hp hr hs o hm, fun hm hb => exec_spareTakeover_idle hi hf hp hr hs hm o hb,
      fun hm hb => ⟨fun tile wgb ho => ?decoded, fun ho => ?undecoded, fun ho => ?noAnswer⟩⟩⟩
  case decoded => exact ho ▸ exec_spareTakeover_decoded hi hf hp hr hs hm hb tile wgb
  case undecoded => exact ho ▸ exec_spareTakeover_undecoded hi hf hp hr hs hm hb
  case noAnswer => exact ho ▸ exec_spareTakeover_noAnswer hi hf hp hr hs hm hb

end Sys2Proof.Machine

/-! # Steps, batches, signatures and migrations

O33: how a step starts and closes, and what ends within it. -/

namespace Sys2Proof.Machine

/-! ## A table whose every value is changed -/

theorem Smap.get_map {β : Type} {d : β} {f : β → β} (hd : f d = d) (m : Smap β) (n : Nat) :
    Smap.get d (m.map fun e => (e.1, f e.2)) n = f (Smap.get d m n) := by
  induction m with
  | nil => exact hd.symm
  | cons e m ih =>
    obtain ⟨k, v⟩ := e
    simp only [List.map_cons, Smap.get, ih]
    split <;> rfl

/-! ## STEP_START (R125, R206) -/

theorem State.job_of_calm {s t : State} (h : t.calm = s.calm) : t.job = s.job := by
  simp only [State.calm, Prod.mk.injEq] at h
  simp only [h]

/-- What the start of a step makes of a core (R124, R125): its count of recoveries and its exception go, and where it is powered,
not fenced and holds a program, it begins at the program's start. -/
def Core.stepStarted (c : Core) : Core :=
  let c := { c with excValid := false, recovered := 0 }
  if c.hasProg ∧ ¬ c.fenced ∧ c.powered then c.begin_ else c

theorem Core.stepStarted_of_ready {c : Core} (hp : c.hasProg = true) (hf : c.fenced = false) (hw : c.powered = true) :
    c.stepStarted = { c with excValid := false, recovered := 0 }.begin_ := by
  simp [Core.stepStarted, hp, hf, hw]

theorem Core.stepStarted_blank : Core.blank.stepStarted = Core.blank := by decide

theorem State.core_startStep (s : State) (i : Nat) : s.startStep.core i = (s.core i).stepStarted := by
  unfold State.startStep
  dsimp only
  rw [State.core_of_calm (State.showExchange_calm _), State.core_of_calm (State.restState_calm _)]
  refine (Smap.get_map Core.stepStarted_blank _ i).trans (congrArg Core.stepStarted ?_)
  exact State.core_of_calm (by simp) i

theorem State.job_startStep_st (s : State) : s.startStep.job.st = .running := by
  unfold State.startStep
  dsimp only
  rw [State.job_of_calm (State.showExchange_calm _), State.job_of_calm (State.restState_calm _)]

theorem exec_stepStart {s : State} (h : s.canStart = true) :
    exec .stepStart s = .next s.leaveWarm.startStep.beginRamp.settleStreams := by
  change execStepStart s = _
  simp [execStepStart, h]

/-! ## STEP_BOUNDARY (R205, R206) -/

section
variable {s : State} (ho : s.stepOver = true)
include ho

theorem exec_stepBoundary_waits (hx : s.exchangeIn = false) :
    exec .stepBoundary s = .next (s.raise .govMod 0 Reg.GOV_EVENT 1) := by
  change execStepBoundary s = _
  simp [execStepBoundary, ho, hx]

variable (hx : s.exchangeIn = true)
include hx

theorem exec_stepBoundary_held (ht : s.tailHeld s.job.step = true) : exec .stepBoundary s = .next s := by
  change execStepBoundary s = _
  simp [execStepBoundary, ho, hx, ht]

theorem exec_stepBoundary_closes (ht : s.tailHeld s.job.step = false) :
    let c := s.closeStep
    exec .stepBoundary s = .next (if c.job.step = s.job.step then c.settleStreams.runQueues
      else (((c.boundaryCopy s.job.step).storeRecords.settleCkp).settleClose).settleStreams.runQueues) := by
  change execStepBoundary s = _
  simp [execStepBoundary, ho, hx, ht]

end

/-! ## BATCH_BOUNDARY (R148, R269) -/

/-- The boundary of batch `n` is declared at each cluster of a list. -/
def State.declareBatch (n : Nat) (s : State) (cs : List Nat) : State :=
  cs.foldl (fun s c => s.setCluster c { s.cluster c with batchDecl := (s.cluster c).batchDecl ++ [n] }) s

theorem State.wts_declareBatch (n : Nat) (s : State) (cs : List Nat) : (s.declareBatch n cs).wts = s.wts := by
  induction cs generalizing s with
  | nil => rfl
  | cons c cs ih => exact ih _

/-- In a list without repeats each cluster takes the number once. -/
theorem State.cluster_declareBatch (n : Nat) (s : State) {cs : List Nat} (hcs : cs.Nodup) (c : Nat) :
    (s.declareBatch n cs).cluster c =
      if c ∈ cs then { s.cluster c with batchDecl := (s.cluster c).batchDecl ++ [n] } else s.cluster c := by
  induction cs generalizing s with
  | nil => rfl
  | cons k cs ih =>
    obtain ⟨hk, hcs⟩ := List.nodup_cons.mp hcs
    refine (ih _ hcs).trans ?_
    by_cases hc : c = k
    · simp [hc, hk]
    · simp [hc, State.cluster_setCluster_ne _ hc]

theorem nodup_eraseDups {α : Type} [DecidableEq α] : (l : List α) → l.eraseDups.Nodup
  | [] => by simp
  | a :: l => by
    rw [List.eraseDups_cons]
    refine List.nodup_cons.mpr ⟨?_, nodup_eraseDups _⟩
    simp
  termination_by l => l.length
  decreasing_by exact Nat.lt_succ_of_le (List.length_filter_le ..)

theorem exec_batchBoundary {s : State} (hj : s.job.st = .running) {cs : List Nat} {n : Nat}
    (hcs : (s.programCores.map s.homeCluster).eraseDups = cs)
    (hn : (cs.flatMap fun c => (s.cluster c).openBatches).find? (fun n => cs.all (s.batchReported n)) = some n) :
    exec .batchBoundary s = .next { s.declareBatch n cs with wts := { s.wts with open_ := true, between := true } } := by
  change execBatchBoundary s = _
  rw [← s.wts_declareBatch n cs]
  simp only [execBatchBoundary, hj, hcs, hn, if_true]
  rfl

/-! ## SIGNATURE_COMPLETE (R60, R61, R539) -/

theorem exec_signatureComplete (s : State) (ok : Bool) :
    exec (.signatureComplete ok) s = .next ((s.signed ok).nextSign.settleClose.runQueues) := rfl

theorem State.signed_record_true {s : State} {r : RingSlot} (hr : s.nextRecord = some r) (hd : r.dead = false) :
    s.signed true = s.recordSigned r := by
  simp [State.signed, hr, hd]

theorem State.signed_record_false {s : State} {r : RingSlot} (hr : s.nextRecord = some r) (hd : r.dead = false) :
    s.signed false = s.recordUnsigned r := by
  simp [State.signed, hr, hd]

section
variable {s : State} (hr : ∀ r, s.nextRecord = some r → r.dead = true) (ok : Bool)
include hr

theorem State.signed_header (hc : s.sec.ckpDue = true) : s.signed ok = s.headerSigned ok := by
  cases h : s.nextRecord with
  | none => simp [State.signed, h, hc]
  | some r => simp [State.signed, h, hr r h, hc]

theorem State.signed_report (hc : s.sec.ckpDue = false) {q a : Nat} {body : List Byte} {rest : List (Nat × List Byte × Nat)}
    (ha : s.sec.attests = (q, body, a) :: rest) : s.signed ok = s.attestSigned ok q body a := by
  cases h : s.nextRecord with
  | none => simp [State.signed, h, hc, ha]
  | some r => simp [State.signed, h, hr r h, hc, ha]

end

/-! ## The end of a migration (R488) -/

theorem exec_migrationComplete (s : State) (i : Nat) (ok : Bool) :
    exec (.migrationComplete i ok) s = .next ((s.migrated i ok).settleOrder.settleStreams.runQueues) := rfl

/-- Settles O33. What follows the change of the cores in a step's start reaches neither core nor job; the clusters at which a batch
is declared are listed without repeats; the other clauses are each one branch of their row. -/
theorem stepsStartAndClose : Obligations.StepsStartAndClose := by
  unfold Obligations.StepsStartAndClose
  refine ⟨fun s h => ⟨exec_stepStart h, s.leaveWarm.job_startStep_st, fun i hp hf hw => ?starts⟩,
    fun s ho hx ht => exec_stepBoundary_closes ho hx ht, fun s ho hx ht => exec_stepBoundary_held ho hx ht,
    fun s ho hx => exec_stepBoundary_waits ho hx, fun s n hj hn => ?batch,
    fun s r hr hd => ⟨?signed, ?unsigned⟩, fun s ok hr hc => ?header, fun s ok q body a rest hr hc ha => ?report,
    fun s i ok _ => exec_migrationComplete s i ok⟩
  case starts => rw [State.core_startStep, Core.stepStarted_of_ready hp hf hw]
  case batch => exact ⟨_, exec_batchBoundary hj rfl hn, rfl, fun c => s.cluster_declareBatch n (nodup_eraseDups _) c⟩
  case signed => rw [exec_signatureComplete, State.signed_record_true hr hd]
  case unsigned => rw [exec_signatureComplete, State.signed_record_false hr hd]
  case header => rw [exec_signatureComplete, State.signed_header hr ok hc]
  case report => rw [exec_signatureComplete, State.signed_report hr ok hc ha]

end Sys2Proof.Machine

/-! # Vector groups

O35: a beat check without a fault. -/

namespace Sys2Proof.Machine

theorem QEntry.faulty_clean (e : QEntry) : e.faulty BeatObs.clean = e := rfl

/-- An instruction that has begun has its record's reserved bits behind it. -/
theorem State.badRecord_of_begun (s : State) {e : QEntry} (ha : e.acc ≠ []) : s.badRecord e = false := by
  simp [State.badRecord, ha]

theorem State.vecBegin_of_begun (s : State) {e : QEntry} (ha : e.acc ≠ []) : s.vecBegin e = (e, s) := by
  simp [State.vecBegin, ha]

/-- A group of an instruction that is no VRS passes: it is written, and the head goes on or retires. -/
theorem State.passBeat_clean (s : State) (i : Nat) {e : QEntry} (hop : iOpcode e.word ≠ 0x40) :
    s.passBeat i e BeatObs.clean =
      let w := if e.replaying then (s.bump .vecCore i Reg.VEC_REPLAYS_PASSED (beatsPer e.word)).raise .vecCore i Reg.VEC_EVENT 1 else s
      let d : QEntry := { e with replaying := false }
      let v := w.writeGroup i d
      if 256 * (e.item + 1) < v.vecCount d then v.setHead i 1 { d with item := e.item + 1 }
      else ((v.vecReports i d).vecDone i d).retire i 1 .ok false := by
  simp only [State.passBeat, QEntry.faulty_clean, hop, ite_not, if_false]

/-- Settles O35: a head that has begun meets no bad record and is not begun again, and an observation with no fault changes no
result. -/
theorem vectorGroupIsWritten : Obligations.VectorGroupIsWritten := by
  unfold Obligations.VectorGroupIsWritten
  intro s i e hw hh he hop ha
  have hpass := exec_vectorBeatCheck_passes hw hh BeatObs.clean he (s.badRecord_of_begun ha) rfl rfl
  simp only [State.vecBegin_of_begun _ ha, State.passBeat_clean _ i hop] at hpass
  exact hpass

end Sys2Proof.Machine

/-! # Signals and write-backs

O37: what a signal does where it arrives, and the write-back of a corrected word. -/

namespace Sys2Proof.Machine

/-! ## Tokens and the end of a signal (R130, R146) -/

/-- A count that fits a token changes nothing but the core's tokens and what waited for them. -/
theorem State.addToken_fits (s : State) {i t n : Nat} (h : nth 0 (s.core i).tok t + n ≤ 65535) :
    ∃ c : Core, s.addToken i t n = s.setCore i c ∧ c.tok = setNth (s.core i).tok t (nth 0 (s.core i).tok t + n) := by
  simp only [State.addToken, h, if_true, Nat.min_eq_left h]
  exact ⟨_, rfl, rfl⟩

/-- A SIGNAL that completes with OK and signals no token of its own changes nothing more. -/
theorem State.signalDone_silent (s : State) {g : Sig} (h : ∀ w pc seq, g.instr = some (w, pc, seq) → iSignalEn w = false) :
    s.signalDone g .ok = s := by
  unfold State.signalDone
  cases hg : g.instr with
  | none => simp
  | some x =>
    obtain ⟨w, pc, seq⟩ := x
    simp [h w pc seq hg]

/-- How a signal fares on its way to core `i` and there (R13, R146). -/
def State.signalAnswer (s : State) (g : Sig) (i : Nat) : Status :=
  if s.ctlReaches (coreDie g.src) (coreDie i) then s.signalStatus i else .unavailable

theorem State.signalAt_taken (s : State) {g : Sig} {i : Nat} (h : s.signalAnswer g i = .ok) :
    s.signalAt g i = (s.addToken i g.tok g.count).signalDone g .ok := by
  rw [State.signalAnswer] at h
  simp only [State.signalAt, h, if_true]

theorem State.signalAt_refused (s : State) {g : Sig} {i : Nat} (h : s.signalAnswer g i ≠ .ok) :
    s.signalAt g i = s.signalDone g (s.signalAnswer g i) := by
  rw [State.signalAnswer] at h
  simp only [State.signalAt, h, if_false]
  rfl

/-! ## TOKEN_SIGNAL_ARRIVE (R130, R146, R489) -/

section
variable {s : State} {src target k : Nat} {g : Sig}
  (hk : s.sigs.findIdx? (fun g => decide (g.src = src ∧ g.target = target)) = some k) (hg : s.sigs[k]? = some g)
include hk hg

theorem exec_tokenSignalArrive_acts (hd : s.takeoverDue (s.seat target) = false) :
    exec (.tokenSignalArrive src target) s = .next (State.signalAt { s with sigs := s.sigs.eraseIdx k } g (s.seat target)) := by
  change execTokenSignalArrive src target s = _
  simp only [execTokenSignalArrive, hk, hg, hd, Bool.false_eq_true, if_false]

theorem exec_tokenSignalArrive_waits (hd : s.takeoverDue (s.seat target) = true)
    (hroom : ((s.cluster (s.homeCluster (s.seat target))).held.filter fun y => decide (y.target = s.seat target)).length < 64) :
    let h := s.homeCluster (s.seat target)
    exec (.tokenSignalArrive src target) s = .next (State.setCluster { s with sigs := s.sigs.eraseIdx k } h
      { s.cluster h with held := (s.cluster h).held ++ [{ g with target := s.seat target }] }) := by
  change execTokenSignalArrive src target s = _
  simp only [execTokenSignalArrive, hk, hg, hd, Nat.not_le.mpr hroom, if_true, if_false]

end

/-! ## TILE_STORE_WRITEBACK (R94) -/

/-- The registers of a core lie past those of the block that sums them up. -/
theorem blockBase_vecCore_ne_vecMod (i o : Nat) : blockBase .vecCore i + o ≠ blockBase RBlk.vecCore.mod 0 + o := by
  have hmod : blockBase RBlk.vecCore.mod 0 = 0x200000500000 := by decide
  have hcore : 0x200100000000 ≤ blockBase .vecCore i := by
    simp only [blockBase, coreWin, clusterWin, dieWin]; omega
  omega

theorem State.peek_add_self (s : State) (b : RBlk) (i o n : Nat) : (s.add b i o n).peek b i o = s.peek b i o + BitVec.ofNat 64 n :=
  State.peek_poke_self ..

/-- A count of a core goes up in the core's own register by as much as in the module's. -/
theorem State.peek_bump_vecCore (s : State) (i o n : Nat) :
    (s.bump .vecCore i o n).peek .vecCore i o = s.peek .vecCore i o + BitVec.ofNat 64 n := by
  have hb : RBlk.vecCore.mod ≠ .vecCore := by decide
  rw [State.bump, if_neg hb, State.peek_add_ne _ (blockBase_vecCore_ne_vecMod i o), State.peek_add_self]

theorem exec_tileStoreWriteback {s : State} {i word : Nat} (hw : (s.core i).writeback.contains word = true)
    (hf : (s.core i).fenced = false) (hp : (s.core i).powered = true) :
    exec (.tileStoreWriteback i word) s = .next ((s.setCore i { s.core i with
      writeback := (s.core i).writeback.erase word }).bump .vecCore i Reg.VEC_TS_WRITEBACKS 1) := by
  change execTileStoreWriteback i word s = _
  simp only [execTileStoreWriteback, hw, hf, hp, not_true_eq_false, Bool.false_eq_true, or_self, if_false]

/-- Settles O37, by where the signal goes: that it is no longer under way changes nothing of what decides how it fares. -/
theorem signalsArriveAndWordsAreWrittenBack : Obligations.SignalsArriveAndWordsAreWrittenBack := by
  unfold Obligations.SignalsArriveAndWordsAreWrittenBack
  refine ⟨fun s src target k g hk hg => ⟨fun hd hst hfits hsilent => ?taken, fun hd hst => ?refused, fun hd hroom => ?held⟩,
    fun s i word hw hf hp => ?written⟩
  case taken =>
    obtain ⟨c, hadd, htok⟩ := State.addToken_fits { s with sigs := s.sigs.eraseIdx k } hfits
    refine ⟨_, exec_tokenSignalArrive_acts hk hg hd, ?_⟩
    rw [State.signalAt_taken { s with sigs := s.sigs.eraseIdx k } hst, State.signalDone_silent _ hsilent, hadd]
    exact ⟨rfl, fun j hj => State.core_setCore_ne _ hj c, (congrArg Core.tok (State.core_setCore_self ..)).trans htok⟩
  case refused =>
    exact (exec_tokenSignalArrive_acts hk hg hd).trans
      (congrArg _ (State.signalAt_refused { s with sigs := s.sigs.eraseIdx k } hst))
  case held =>
    exact ⟨_, exec_tokenSignalArrive_waits hk hg hd hroom, rfl, rfl, State.cluster_setCluster_self ..,
      fun c hc => State.cluster_setCluster_ne _ hc _⟩
  case written =>
    refine ⟨_, exec_tileStoreWriteback hw hf hp, ?_, fun j hj => ?_, State.peek_bump_vecCore ..⟩
    · rw [State.core_bump, State.core_setCore_self]
    · rw [State.core_bump, State.core_setCore_ne _ hj]

end Sys2Proof.Machine

/-! # The mesh

O39: what a router does with a flit, and hot-level reports. -/

namespace Sys2Proof.Machine

/-! ## Sending a flit on (R107, R109) -/

theorem State.out_foldl_send (s : State) (d : Nat) (f : MeshFlit) (ps : List Nat) :
    (ps.foldl (fun s p => s.send (.mesh d p f)) s).out = s.out ++ ps.map fun p => .mesh d p f := by
  induction ps generalizing s with
  | nil => simp
  | cons p ps ih => rw [List.foldl_cons, ih, List.map_cons, List.append_cons]; rfl

theorem State.die_foldl_send (s : State) (d : Nat) (f : MeshFlit) (ps : List Nat) (e : Nat) :
    (ps.foldl (fun s p => s.send (.mesh d p f)) s).die e = s.die e := by
  induction ps generalizing s with
  | nil => rfl
  | cons p ps ih => rw [List.foldl_cons, ih, State.die_send]

section
variable (s : State) {d : Nat} {f : MeshFlit}

theorem State.forward_here (hm : (flitHead f).mcast = false) (hd : (flitHead f).dest = d) :
    s.forward d f = s.send (.mesh d (flitHead f).port f) := by
  simp only [State.forward, hm, State.flitOut, hd, Bool.false_eq_true, if_true, if_false]
  rfl

section
variable (hm : (flitHead f).mcast = true)
include hm

theorem State.forward_tree (hv : flag (s.peek .topDie d (Reg.TOP_RTR_MCAST + 8 * (flitHead f).tree)) 63 = true) :
    s.forward d f = (treeOut (s.peek .topDie d (Reg.TOP_RTR_MCAST + 8 * (flitHead f).tree))).foldl
      (fun s p => s.send (.mesh d p f)) s := by
  simp only [State.forward, hm, hv, if_true]
  rfl

theorem State.forward_drop (hv : flag (s.peek .topDie d (Reg.TOP_RTR_MCAST + 8 * (flitHead f).tree)) 63 = false) :
    s.forward d f = s.add .topDie d Reg.TOP_RTR_MCAST_DROPS 1 := by
  simp only [State.forward, hm, hv, Bool.false_eq_true, if_true, if_false]

end

@[simp] theorem State.die_forward (e : Nat) : (s.forward d f).die e = s.die e := by
  cases hm : (flitHead f).mcast with
  | false =>
    simp only [State.forward, hm]
    cases s.flitOut d (flitHead f) <;> rfl
  | true =>
    cases hv : flag (s.peek .topDie d (Reg.TOP_RTR_MCAST + 8 * (flitHead f).tree)) 63 with
    | false => rw [State.forward_drop s hm hv, State.die_add]
    | true => rw [State.forward_tree s hm hv, State.die_foldl_send]

end

/-! ## MESH_FLIT_RECEIVE (R106, R111, R112) -/

/-- The checks of a flit whose CRC-16 holds, counted; a control flit ends the port's run of failures (R112). -/
def State.flitHolds (s : State) (d p : Nat) (f : MeshFlit) : State :=
  let x := s.die d
  if (flitHead f).cls = 0 then
    (s.check cFlit 1 0 (b2n (decide (0 < Smap.get 0 x.linkFails p))) 0).setDie d { x with linkFails := Smap.set 0 x.linkFails p 0 }
  else s.check cFlit 1 0 0 0

section
variable (s : State) (d p : Nat) (f : MeshFlit)

theorem State.out_flitHolds : (s.flitHolds d p f).out = s.out := by
  unfold State.flitHolds
  split <;> rfl

theorem State.peek_flitHolds (b : RBlk) (i o : Nat) : (s.flitHolds d p f).peek b i o = s.peek b i o := by
  unfold State.flitHolds
  split <;> rfl

theorem State.die_flitHolds_control (hc : (flitHead f).cls = 0) :
    (s.flitHolds d p f).die d = { s.die d with linkFails := Smap.set 0 (s.die d).linkFails p 0 } := by
  simp [State.flitHolds, hc]

theorem State.die_flitHolds_data (hc : (flitHead f).cls ≠ 0) (e : Nat) : (s.flitHolds d p f).die e = s.die e := by
  simp [State.flitHolds, hc]

theorem State.die_flitHolds_ne {e : Nat} (he : e ≠ d) : (s.flitHolds d p f).die e = s.die e := by
  unfold State.flitHolds
  split
  · rw [State.die_setDie_ne _ he, State.die_check]
  · rw [State.die_check]

end

/-- A router in service takes a flit on a port that is not fenced. -/
structure State.TakesFlit (s : State) (d p : Nat) (f : MeshFlit) : Prop where
  die : d < 64
  port : p < 13
  router : (s.die d).routerOk = true
  link : s.linkFenced d p = false
  cls : (flitHead f).cls < 3

section
variable {s : State} {d p : Nat} {f : MeshFlit} (ht : s.TakesFlit d p f)
include ht

theorem State.TakesFlit.passes :
    ¬ (64 ≤ d ∨ 13 ≤ p ∨ ¬ (s.die d).routerOk = true ∨ s.linkFenced d p = true ∨ 3 ≤ (flitHead f).cls) := by
  obtain ⟨hd, hp, hr, hl, hc⟩ := ht
  simp [hd, hp, hr, hl, hc]

theorem exec_meshFlitReceive_holds (hf : flitOk f = true) :
    exec (.meshFlitReceive d p f) s = .next ((s.flitHolds d p f).forward d f) := by
  change execMeshFlitReceive d p f s = _
  simp only [execMeshFlitReceive, State.flitHolds, ht.passes, hf, if_true, if_false]
  split <;> rfl

theorem exec_meshFlitReceive_lost (hf : flitOk f = false) (hc : (flitHead f).cls ≠ 0) :
    exec (.meshFlitReceive d p f) s = .next { (s.check cFlit 1 1 0 0).add .topDie d Reg.TOP_RTR_CRC_DATA 1 with
      meshLost := s.meshLost ++ [((flitHead f).source, (flitHead f).xfer)] } := by
  change execMeshFlitReceive d p f s = _
  simp only [execMeshFlitReceive, ht.passes, hf, hc, Bool.false_eq_true, if_false]

theorem exec_meshFlitReceive_resent (hf : flitOk f = false) (hc : (flitHead f).cls = 0) :
    exec (.meshFlitReceive d p f) s = .next (s.ctlFlitFails d p) := by
  change execMeshFlitReceive d p f s = _
  simp only [execMeshFlitReceive, ht.passes, hf, Bool.false_eq_true, if_false]
  rw [if_pos hc]

end

/-! ## A control flit that fails (R112) -/

section
variable {s : State} {d p : Nat}

theorem State.ctlFlitFails_eighth (hn : Smap.get 0 (s.die d).linkFails p = 8) :
    ∃ u : State, s.ctlFlitFails d p = u.fenceLink d p ∧
      u.die d = { s.die d with linkFails := Smap.set 0 (s.die d).linkFails p 0 } ∧ ∀ e, e ≠ d → u.die e = s.die e := by
  simp only [State.ctlFlitFails, hn, if_true]
  exact ⟨_, rfl, State.die_setDie_self .., fun e he => State.die_setDie_ne _ he _⟩

variable (hn : Smap.get 0 (s.die d).linkFails p ≠ 8)
include hn

theorem State.out_ctlFlitFails : (s.ctlFlitFails d p).out = s.out := by
  simp [State.ctlFlitFails, hn]

theorem State.die_ctlFlitFails : (s.ctlFlitFails d p).die d =
    { s.die d with linkFails := Smap.set 0 (s.die d).linkFails p (Smap.get 0 (s.die d).linkFails p + 1) } := by
  simp [State.ctlFlitFails, hn]

theorem State.die_ctlFlitFails_ne {e : Nat} (he : e ≠ d) : (s.ctlFlitFails d p).die e = s.die e := by
  simp [State.ctlFlitFails, hn, State.die_setDie_ne _ he]

end

/-! ## TOP_HOT_LEVEL_REPORT (R113, R123) -/

/-- The registers of a die lie past those of every module-level block. -/
theorem topDie_ne_trcMod (d o : Nat) {o' : Nat} (h : o' < 0x100000) : blockBase .topDie d + o ≠ blockBase .trcMod 0 + o' := by
  have hdie : 0x200100000000 ≤ blockBase .topDie d := by
    simp only [blockBase, dieWin]; omega
  have htrace : blockBase .trcMod 0 = 0x200001400000 := by decide
  omega

/-- A register of a die reads what was written to it, whether or not a trace record follows. -/
theorem State.peek_poke_traced (s : State) (d o : Nat) (v : Word) (q : Prop) [Decidable q] (k b e c : Nat) (payload : List Byte) :
    (if q then (s.poke .topDie d o v).trace k b e c payload else s.poke .topDie d o v).peek .topDie d o = v := by
  split
  · rw [State.peek_trace_ne _ (topDie_ne_trcMod _ _ (by decide)) (topDie_ne_trcMod _ _ (by decide)), State.peek_poke_self]
  · exact State.peek_poke_self ..

/-- The level that a report gives: none for a share of at most 1/256. -/
def hotLevel (level share : Nat) : Nat := if share ≤ 1 then 0 else level

/-- TOP_HOT_LEVEL of a report, with the fields that its level does not use at 0. -/
def hotWord (lv port core share : Nat) : Word :=
  mkWord [(min share 255, 32), (lv % 16, 20), ((if 3 ≤ lv ∧ lv ≤ 8 then port else 0) % 16, 16),
    ((if lv = 1 ∨ lv = 2 then core else 0) % 16384, 0)]

section
variable {s : State} {d level share : Nat} (port core : Nat)

/-- A report of a level that stands writes the register, whether it is traced or not. -/
theorem exec_topHotLevelReport_writes (hd : d < 64) (hr : (s.die d).routerOk = true) (hlv : hotLevel level share < 9)
    (hz : ¬ (hotLevel level share = 0 ∧ 1 < share)) :
    ∃ t, exec (.topHotLevelReport d level port core share) s = .next t ∧
      t.peek .topDie d Reg.TOP_HOT_LEVEL = hotWord (hotLevel level share) port core share := by
  change ∃ t, execTopHotLevelReport d level port core share s = .next t ∧ _
  refine ⟨_, rfl, ?_⟩
  have hstands : ¬ (64 ≤ d ∨ ¬ (s.die d).routerOk = true ∨ 9 ≤ hotLevel level share ∨ (hotLevel level share = 0 ∧ 1 < share)) := by
    simp only [hr, not_true_eq_false, false_or]
    omega
  rw [hotLevel] at hstands ⊢
  rw [if_neg hstands]
  exact State.peek_poke_traced ..

theorem exec_topHotLevelReport_ignored (h : 9 ≤ hotLevel level share ∨ hotLevel level share = 0 ∧ 1 < share) :
    exec (.topHotLevelReport d level port core share) s = .next s := by
  change execTopHotLevelReport d level port core share s = _
  rw [hotLevel] at h
  simp only [execTopHotLevelReport, h, or_true, if_true]

end

/-- Settles O39, by the flit's CRC-16, its class and, for a control flit that fails, the failures before it. -/
theorem meshFlitsAreChecked : Obligations.MeshFlitsAreChecked := by
  unfold Obligations.MeshFlitsAreChecked
  refine ⟨fun s d p f hd hp hr hl hc => ?flits,
    fun s d level port core share hd hr => ⟨fun hlv hz => exec_topHotLevelReport_writes port core hd hr hlv hz,
      fun h => exec_topHotLevelReport_ignored port core h⟩⟩
  have ht : s.TakesFlit d p f := ⟨hd, hp, hr, hl, hc⟩
  refine ⟨fun hf => ⟨_, exec_meshFlitReceive_holds ht hf, fun h0 => ?control, fun h0 => ?data, fun e he => ?others,
      fun hm hdest => ?here, fun hm hv => ?tree, fun hm hv => ?drop⟩,
    fun hf h0 => ⟨_, exec_meshFlitReceive_lost ht hf h0, rfl, rfl, rfl⟩,
    fun hf h0 hn => ⟨_, exec_meshFlitReceive_resent ht hf h0, State.die_ctlFlitFails hn,
      fun e he => State.die_ctlFlitFails_ne hn he, State.out_ctlFlitFails hn⟩,
    fun hf h0 hn => ?ninth⟩
  case control => rw [State.die_forward, State.die_flitHolds_control _ _ _ _ h0]
  case data => rw [State.die_forward, State.die_flitHolds_data _ _ _ _ h0]
  case others => rw [State.die_forward, State.die_flitHolds_ne _ _ _ _ he]
  case here => rw [State.forward_here _ hm hdest, State.send, State.out_flitHolds]
  case tree =>
    have hw := s.peek_flitHolds d p f .topDie d (Reg.TOP_RTR_MCAST + 8 * (flitHead f).tree)
    rw [State.forward_tree _ hm (hw ▸ hv), State.out_foldl_send, State.out_flitHolds, hw]
  case drop =>
    have hw := s.peek_flitHolds d p f .topDie d (Reg.TOP_RTR_MCAST + 8 * (flitHead f).tree)
    rw [State.forward_drop _ hm (hw ▸ hv)]
    refine ⟨s.out_flitHolds d p f, ?_⟩
    rw [State.peek_add_self, State.peek_flitHolds]
    rfl
  case ninth =>
    obtain ⟨u, hu, hdie, hne⟩ := State.ctlFlitFails_eighth hn
    exact ⟨u, (exec_meshFlitReceive_resent ht hf h0).trans (congrArg _ hu), hdie, hne⟩

end Sys2Proof.Machine

/-! # Commands that leave most of the module alone

O11: the instructions that only issue, the host's events and the management requests that report reach registers, messages,
records, the job and the cores, and nothing else. -/

namespace Sys2Proof.Machine

/-! ## Fields behind those that reports leave alone -/

/-- The fields that reports leave alone (State.calm). -/
abbrev CalmFields := List Instr × Smap Word × List (Nat × Nat) × Smap Byte × Smap Byte × Smap CritWord × Smap Stack × Smap
  Core × Smap Cluster × Smap Die × Smap Region × List Sig × List Takeover × Top × Flash × Fuse × Blend × Job × Smap Port ×
  Coll × Wts × Ckp × Sec × Kettle × Tim
/-- Those of them that issue leaves alone too. -/
abbrev MostFields := Smap Byte × Smap Byte × Smap Stack × Smap Port × Coll × Wts × Smap Cluster × Smap Die × Smap Region ×
  List Sig × List Takeover × Top × Blend × Flash × Fuse × Smap Word × Ckp × Sec × Kettle × Tim
/-- The fields that issue leaves alone, of those that reports do. -/
def CalmFields.most : CalmFields → MostFields
  | (_, pendRegs, _, mem, memErr, _, stackSt, _, clusters, dies, regions, sigs, takeovers, top, flash, fuse, blend, _, ports,
      coll, wts, ckp, sec, ktl, tim) =>
    (mem, memErr, stackSt, ports, coll, wts, clusters, dies, regions, sigs, takeovers, top, blend, flash, fuse, pendRegs, ckp,
      sec, ktl, tim)
@[simp] theorem CalmFields.most_mk pending pendRegs meshLost mem memErr crit stackSt cores clusters dies regions sigs
    takeovers top flash fuse blend job ports coll wts ckp sec ktl tim :
    CalmFields.most (pending, pendRegs, meshLost, mem, memErr, crit, stackSt, cores, clusters, dies, regions, sigs, takeovers,
      top, flash, fuse, blend, job, ports, coll, wts, ckp, sec, ktl, tim) =
      (mem, memErr, stackSt, ports, coll, wts, clusters, dies, regions, sigs, takeovers, top, blend, flash, fuse, pendRegs,
        ckp, sec, ktl, tim) := (rfl)
@[simp] theorem ite_most (p : Prop) [Decidable p] (a b : CalmFields) :
    CalmFields.most (if p then a else b) = if p then CalmFields.most a else CalmFields.most b := apply_ite ..
/-- What issue leaves as it is. It unfolds to State.calm, so that what is known of reports serves here too. -/
@[simp, reducible] def State.most (s : State) : MostFields := CalmFields.most s.calm
@[simp] theorem State.pair_most (s : State) : (s.mem, s.memErr, s.stackSt, s.ports, s.coll, s.wts, s.clusters, s.dies,
    s.regions, s.sigs, s.takeovers, s.top, s.blend, s.flash, s.fuse, s.pendRegs, s.ckp, s.sec, s.ktl, s.tim) = CalmFields.most
    s.calm := (rfl)
@[simp] theorem foldl_most {α : Type} (f : State → α → State) (h : ∀ s a, (f s a).most = s.most) (l : List α) (s : State) :
    (l.foldl f s).most = s.most := by
  induction l generalizing s with
  | nil => rfl
  | cons a l ih => exact (ih _).trans (h s a)
/-- The next state that a command answers is the state it gives. -/
theorem State.most_of_next {s t u : State} (h : Host.Outcome.next (φ := Fault) (ρ := Refusal) u = .next t) (hu : u.most = s.most) :
    t.most = s.most := by
  cases h
  exact hu

/-! ### Cores, stacks -/

@[simp] theorem State.setCore_most (s : State) (i : Nat) (c : Core) : (s.setCore i c).most = s.most := by simp [State.setCore]

/-! ### Bonded memory -/

@[simp] theorem State.setCrit_most (s : State) (a : Nat) (w : CritWord) : (s.setCrit a w).most = s.most := by simp [State.setCrit]
@[simp] theorem State.critWrite_most (s : State) (a : Nat) (v : Word) : (s.critWrite a v).2.most = s.most := by
  simp [State.critWrite]
@[simp] theorem State.critUpset_most (s : State) (a : Nat) (u : CritUpset) : (s.critUpset a u).most = s.most := by
  simp [State.critUpset]

/-! ### Critical words -/

@[simp] theorem State.keepWord_most (s : State) (w : Nat) (v : Word) : (s.keepWord w v).most = s.most := by simp [State.keepWord]
@[simp] theorem State.keepWords_most (s : State) (w : Nat) (vs : List Word) : (s.keepWords w vs).most = s.most := by
  induction vs generalizing s w with
  | nil => simp [State.keepWords]
  | cons v vs ih => simp [State.keepWords, ih]
@[simp] theorem State.keepChain_most (s : State) : s.keepChain.most = s.most := by simp [State.keepChain]

/-! ### The end of a step -/

@[simp] theorem State.readCounts_most (s : State) : s.readCounts.most = s.most := by simp [State.readCounts]
@[simp] theorem State.cut_most (s : State) (outcome : Nat) (st : Status) : (s.cut outcome st).most = s.most := by simp [State.cut]
@[simp] theorem State.stepFail_most (s : State) (cause level : Nat) (st : Status) (item : Nat) :
    (s.stepFail cause level st item).most = s.most := by
  simp [State.stepFail]

/-! ### What every instruction of a core shares -/

@[simp] theorem State.checkAt_most (s : State) (i k p f r e : Nat) : (s.checkAt i k p f r e).most = s.most := by
  simp [State.checkAt]
@[simp] theorem State.exception_most (s : State) (i src : Nat) (word : BitVec 128) (pc seq : Nat) (st : Status) (area : Bool) :
    (s.exception i src word pc seq st area).most = s.most := by
  simp [State.exception]
@[simp] theorem State.addToken_most (s : State) (i t n : Nat) : (s.addToken i t n).most = s.most := by simp [State.addToken]
@[simp] theorem State.lostEnd_most (s : State) (f : Nat × Nat → Bool) (ok : Bool) : (s.lostEnd f ok).most = s.most := by
  simp [State.lostEnd]
@[simp] theorem State.meshEnd_most (s : State) (i n : Nat) (ok : Bool) : (s.meshEnd i n ok).most = s.most := by simp [State.meshEnd]
@[simp] theorem State.giveUp_most (s : State) (i : Nat) : (s.giveUp i).most = s.most := by simp [State.giveUp]
@[simp] theorem State.fenceCore_most (s : State) (i cause : Nat) : (s.fenceCore i cause).most = s.most := by
  dsimp only [State.fenceCore]
  repeat' split
  all_goals simp
@[simp] theorem State.settle_most (s : State) (i : Nat) : (s.settle i).most = s.most := by
  dsimp only [State.settle]
  repeat' split
  all_goals simp
@[simp] theorem State.advance_most (s : State) (i next : Nat) : (s.advance i next).2.most = s.most := by simp [State.advance]
@[simp] theorem State.seqDone_most (s : State) (i : Nat) (st : Status) (next : Nat) : (s.seqDone i st next).most = s.most := by
  simp [State.seqDone]
@[simp] theorem State.issueWith_most (s : State) (op : Op) (i : Nat) (o : IssueObs) (run : State → State)
    (h : ∀ s, (run s).most = s.most) : (s.issueWith op i o run).most = s.most := by
  unfold State.issueWith
  repeat' split
  all_goals simp [h]
@[simp] theorem State.enqueue_most (s : State) (op : Op) (check) (i : Nat) : (s.enqueue op check i).most = s.most := by
  simp [State.enqueue]
@[simp] theorem State.issueQ_most (s : State) (op : Op) (check) (i : Nat) (o : IssueObs) :
    (s.issueQ op check i o).most = s.most := by
  simp [State.issueQ]
@[simp] theorem State.retire_most (s : State) (i q : Nat) (st : Status) (area : Bool) : (s.retire i q st area).most = s.most := by
  unfold State.retire
  split <;> simp

/-! ### Copies -/

@[simp] theorem State.issueCopy_most (s : State) (op : Op) (check) (i : Nat) (o : IssueObs) :
    (s.issueCopy op check i o).most = s.most := by
  simp [State.issueCopy]
@[simp] theorem State.transferLost_most (s : State) (i : Nat) : (s.transferLost i).most = s.most := by simp [State.transferLost]

/-! ### Engine instructions -/

@[simp] theorem State.issueMask_most (s : State) (op : Op) (check) (i : Nat) (o : IssueObs) :
    (s.issueMask op check i o).most = s.most := by
  dsimp only [State.issueMask]
  split <;> simp

/-! ## The commands that leave most alone -/

theorem State.most_of_calm {s t : State} (h : t.calm = s.calm) : t.most = s.most := congrArg CalmFields.most h

theorem execCriticalRead_most {s t : State} {a : Nat} {u : CritUpset} (h : execCriticalRead a u s = .next t) : t.most = s.most := by
  unfold execCriticalRead at h
  split at h <;> exact State.most_of_next h (by simp)

theorem execCriticalWrite_most {s t : State} {w : Writer} {a : Nat} {v : Word} (h : execCriticalWrite w a v s = .next t) :
    t.most = s.most := by
  dsimp only [execCriticalWrite] at h
  split at h
  · exact State.most_of_next h (by simp)
  · split at h <;> exact State.most_of_next h (by simp)

/-- Every command that leavesMost names, by what it runs through: a report, an issue, or an operation of its own. -/
theorem exec_most {c : Instr} {s t : State} (hc : leavesMost c = true) (h : exec c s = .next t) : t.most = s.most := by
  cases c with
  | eack m => exact State.most_of_calm (execEack_calm _ _ _ h)
  | evtSend => exact State.most_of_calm (execEvtSend_calm _ _ h)
  | hostLinkDown => exact State.most_of_calm (execHostLinkDown_calm _ _ h)
  | hostLinkUp => exact State.most_of_calm (execHostLinkUp_calm _ _ h)
  | topHotLevelReport die level port core share => exact State.most_of_calm (execTopHotLevelReport_calm _ _ _ _ _ _ _ h)
  | partnerDetect p => exact State.most_of_calm (execPartnerDetect_calm _ _ _ h)
  | sparePrbsExclude p lane => exact State.most_of_calm (execSparePrbsExclude_calm _ _ _ _ h)
  | ceRateLimit n => exact State.most_of_calm (execCeRateLimit_calm _ _ _ h)
  | powerTripRelease => exact State.most_of_calm (execPowerTripRelease_calm _ _ h)
  | statusRead m => exact State.most_of_calm (execStatusRead_calm _ _ _ h)
  | alertAck m => exact State.most_of_calm (execAlertAck_calm _ _ _ h)
  | bind m => exact State.most_of_calm (execBind_calm _ _ _ h)
  | power m => exact State.most_of_calm (execPower_calm _ _ _ h)
  | keepWarm m => exact State.most_of_calm (execKeepWarm_calm _ _ _ h)
  | counterRead m => exact State.most_of_calm (execCounterRead_calm _ _ _ h)
  | recoverWrite m => exact State.most_of_calm (execRecoverWrite_calm _ _ _ h)
  | statusReport => exact State.most_of_calm (execStatusReport_calm _ _ h)
  | alertResend n => exact State.most_of_calm (execAlertResend_calm _ _ _ h)
  | i3cPoll answers => exact State.most_of_calm (execI3cPoll_calm _ _ _ h)
  | traceSample => exact State.most_of_calm (execTraceSample_calm _ _ h)
  | preemptDeadline => exact State.most_of_calm (execPreemptDeadline_calm _ _ h)
  | reservedHostMessage m => exact State.most_of_calm (execReservedHostMessage_calm _ _ _ h)
  | reservedMgtMessage m => exact State.most_of_calm (execReservedMgtMessage_calm _ _ _ h)
  | mgtLinkUp => exact State.most_of_calm (execMgtLinkUp_calm _ _ h)
  | nop i o | jump i o | loop i o | setlc i o | wait i o | drainu i o =>
    exact State.most_of_next h (s.issueWith_most _ i o _ fun s => by simp)
  | dset i o => exact State.most_of_next h (s.issueWith_most _ i o _ fun s => by dsimp only; split <;> simp)
  | mm i o | mmw i o | mmrs i o | wgbrs i o | wgbclr i o | sdwrs i o | urnmerge i o | vop i o | vcvt i o | vfn i o | vred i o
  | softmax i o | norm i o | dfo i o | dsoftmax i o | adamw i o | sgdm i o | vrs i o =>
    exact State.most_of_next h (s.issueQ_most _ _ i o)
  | pred i o | smmp i o => exact State.most_of_next h (s.issueMask_most _ _ i o)
  | copy i o => exact State.most_of_next h (s.issueCopy_most _ _ i o)
  | copyh i o | tileStoreWriteback i word | gs1RdoneTimeout p | reservedOpcode i o => exact State.most_of_next h (by simp)
  | dmaTimeout i => exact State.most_of_next h (by (repeat' split) <;> simp)
  | criticalWrite w a v => exact execCriticalWrite_most h
  | criticalRead a u => exact execCriticalRead_most h
  | _ => exact absurd hc Bool.false_ne_true

/-- Settles O11. -/
theorem commandsThatLeaveMostAlone : Obligations.CommandsThatLeaveMostAlone := by
  unfold Obligations.CommandsThatLeaveMostAlone
  intro c s t hc h
  simpa only [State.most, State.calm, CalmFields.most_mk, Prod.mk.injEq] using exec_most hc h

end Sys2Proof.Machine

/-! # Commands that leave the module alone

O10: what the cores, weights, reductions, ports and memory do reaches neither power nor dies, regions, the Blend, flash or
fuses. -/

namespace Sys2Proof.Machine

/-! ## Fields of the module itself -/

/-- The fields of the module itself: what it was made with, what it is configured as, how it is powered. -/
abbrev ModuleFields := Fuse × Flash × Blend × Smap Die × Smap Cluster × Smap Region × List Sig × List Takeover × Top × Smap
  Word × Sec × Kettle × Tim
/-- The fields of the module itself, of those that issue leaves alone. -/
def MostFields.module : MostFields → ModuleFields
  | (_, _, _, _, _, _, clusters, dies, regions, sigs, takeovers, top, blend, flash, fuse, pendRegs, _, sec, ktl, tim) =>
    (fuse, flash, blend, dies, clusters, regions, sigs, takeovers, top, pendRegs, sec, ktl, tim)
@[simp] theorem MostFields.module_mk mem memErr stackSt ports coll wts clusters dies regions sigs takeovers top blend flash
    fuse pendRegs ckp sec ktl tim :
    MostFields.module (mem, memErr, stackSt, ports, coll, wts, clusters, dies, regions, sigs, takeovers, top, blend, flash,
      fuse, pendRegs, ckp, sec, ktl, tim) =
      (fuse, flash, blend, dies, clusters, regions, sigs, takeovers, top, pendRegs, sec, ktl, tim) := (rfl)
@[simp] theorem ite_module (p : Prop) [Decidable p] (a b : MostFields) :
    MostFields.module (if p then a else b) = if p then MostFields.module a else MostFields.module b := apply_ite ..
/-- What commands of cores, weights, reductions and ports leave as it is. It unfolds to State.most. -/
@[simp, reducible] def State.module (s : State) : ModuleFields := MostFields.module s.most
@[simp] theorem State.pair_module (s : State) : (s.fuse, s.flash, s.blend, s.dies, s.clusters, s.regions, s.sigs, s.takeovers,
    s.top, s.pendRegs, s.sec, s.ktl, s.tim) = MostFields.module s.most := (rfl)
@[simp] theorem foldl_module {α : Type} (f : State → α → State) (h : ∀ s a, (f s a).module = s.module) (l : List α) (s : State) :
    (l.foldl f s).module = s.module := by
  induction l generalizing s with
  | nil => rfl
  | cons a l ih => exact (ih _).trans (h s a)
theorem foldl_module_by {α β : Type} (p : β → State) (f : β → α → β) (h : ∀ b a, (p (f b a)).module = (p b).module) (l : List α)
    (b : β) : (p (l.foldl f b)).module = (p b).module := by
  induction l generalizing b with
  | nil => rfl
  | cons a l ih => exact (ih _).trans (h b a)
/-- The next state that a command answers is the state it gives. -/
theorem State.module_of_next {s t u : State} (h : Host.Outcome.next (φ := Fault) (ρ := Refusal) u = .next t) (hu : u.module = s.module) :
    t.module = s.module := by
  cases h
  exact hu

/-! ### Cores, stacks -/

@[simp] theorem State.setStack_module (s : State) (n : Nat) (v : Stack) : (s.setStack n v).module = s.module := by
  simp [State.setStack]

/-! ### Bonded memory -/

@[simp] theorem State.disturb_module (s : State) (g j i : Nat) (v : Byte) : (s.disturb g j i v).module = s.module := by
  simp [State.disturb]
@[simp] theorem State.upset_module (s : State) (g : Nat) (u : Upset) : (s.upset g u).module = s.module := by simp [State.upset]
@[simp] theorem State.rowCandidate_module (s : State) (g : Nat) : (s.rowCandidate g).module = s.module := by
  dsimp only [State.rowCandidate]
  split <;> simp
@[simp] theorem State.readGranule_module (s : State) (who : MemReader) (g : Nat) : (s.readGranule who g).2.2.module = s.module := by
  unfold State.readGranule
  split <;> simp
@[simp] theorem State.storeGranule_module (s : State) (g : Nat) (bs : List Byte) : (s.storeGranule g bs).module = s.module := by
  simp [State.storeGranule]
@[simp] theorem State.memRead_module (s : State) (a n : Nat) : (s.memRead a n).2.2.module = s.module := by
  dsimp only [State.memRead]
  split
  · simp
  · split <;> exact foldl_module_by (fun b : Bool × List Byte × State => b.2.2) _ (by intros; simp) _ (true, [], s)
@[simp] theorem State.writeGranule_module (s : State) (g a : Nat) (bs : List Byte) :
    (s.writeGranule g a bs).2.module = s.module := by
  simp [State.writeGranule]
@[simp] theorem State.memWrite_module (s : State) (a : Nat) (bs : List Byte) : (s.memWrite a bs).2.module = s.module := by
  dsimp only [State.memWrite]
  split
  · simp
  · exact foldl_module_by (fun b : Bool × State => b.2) _ (by intros; simp) _ (true, s)

/-! ### Critical words -/

@[simp] theorem State.markArea_module (s : State) (g : Nat) (step : Option Nat) : (s.markArea g step).module = s.module := by
  simp [State.markArea]
@[simp] theorem State.keepPointers_module (s : State) : s.keepPointers.module = s.module := by simp [State.keepPointers]
@[simp] theorem State.keepHold_module (s : State) : s.keepHold.module = s.module := by simp [State.keepHold]
@[simp] theorem State.keepEpochs_module (s : State) (k : Nat) : (s.keepEpochs k).module = s.module := by simp [State.keepEpochs]
@[simp] theorem State.keepGroup_module (s : State) (n : Nat) : (s.keepGroup n).module = s.module := by
  unfold State.keepGroup
  split <;> simp
@[simp] theorem State.keepSip_module (s : State) (n : Nat) : (s.keepSip n).module = s.module := by
  unfold State.keepSip
  split <;> simp

/-! ### The end of a step -/

@[simp] theorem State.known_module (s : State) (w : Nat) (held : Word) : (s.known w held).2.module = s.module := by
  simp [State.known]
@[simp] theorem State.epochKept_module (s : State) (k e : Nat) : (s.epochKept k e).2.module = s.module := by simp [State.epochKept]

/-! ### What every instruction of a core shares -/

@[simp] theorem State.tsWrite_module (s : State) (i a : Nat) (bs : List Byte) : (s.tsWrite i a bs).module = s.module := by
  simp [State.tsWrite]
@[simp] theorem State.tsReads_module (s : State) (i n : Nat) (corrected : List Nat) (double : Bool) :
    (s.tsReads i n corrected double).module = s.module := by
  simp [State.tsReads]
@[simp] theorem State.setHead_module (s : State) (i q : Nat) (e : QEntry) : (s.setHead i q e).module = s.module := by
  simp [State.setHead]

/-! ### Ports and their tags -/

@[simp] theorem State.setPort_module (s : State) (p : Nat) (v : Port) : (s.setPort p v).module = s.module := by simp [State.setPort]
@[simp] theorem State.pump_module (s : State) (p : Nat) : (s.pump p).module = s.module := by simp [State.pump]
@[simp] theorem State.post_module (s : State) (p : Nat) (m : Msg) : (s.post p m).module = s.module := by simp [State.post]
@[simp] theorem State.cplTo_module (s : State) (p : Nat) (m : Msg) (st : Status) : (s.cplTo p m st).module = s.module := by
  simp [State.cplTo]
@[simp] theorem State.takeTag_module (s : State) (p : Nat) (u : TagUse) : (s.takeTag p u).2.module = s.module := by
  dsimp only [State.takeTag]
  split <;> simp
@[simp] theorem State.grantTag_module (s : State) (p : Nat) : (s.grantTag p).module = s.module := by
  dsimp only [State.grantTag]
  repeat' split
  all_goals simp
@[simp] theorem State.freeTag_module (s : State) (p tag : Nat) : (s.freeTag p tag).module = s.module := by simp [State.freeTag]
@[simp] theorem State.holdTag_module (s : State) (p tag : Nat) : (s.holdTag p tag).module = s.module := by simp [State.holdTag]
@[simp] theorem State.fullRetrain_module (s : State) (p : Nat) : (s.fullRetrain p).module = s.module := by simp [State.fullRetrain]
@[simp] theorem State.sendHello_module (s : State) (p : Nat) : (s.sendHello p).module = s.module := by simp [State.sendHello]
@[simp] theorem State.rebindOne_module (s : State) (p : Nat) : (s.rebindOne p).module = s.module := by simp [State.rebindOne]
@[simp] theorem State.rebindAll_module (s : State) : s.rebindAll.module = s.module := by simp [State.rebindAll]

/-! ### Areas of the memory layout -/

@[simp] theorem State.readArea_module (s : State) (kind off n : Nat) : (s.readArea kind off n).2.2.module = s.module :=
  foldl_module_by (fun b : Status × List Byte × State => b.2.2) _ (by intros; simp) _ (Status.ok, [], s)
@[simp] theorem State.putRuns_module (s : State) (rs : List (Nat × Nat)) (bs : List Byte) :
    (s.putRuns rs bs).2.module = s.module := by
  induction rs generalizing s bs with
  | nil => simp [State.putRuns]
  | cons r rs ih => simp [State.putRuns, ih]
@[simp] theorem State.writeArea_module (s : State) (kind off : Nat) (bs : List Byte) :
    (s.writeArea kind off bs).2.module = s.module := by
  simp [State.writeArea]

/-! ### The bus -/

@[simp] theorem State.busRead_module (s : State) (a n : Nat) (o : StoreObs) : (s.busRead a n o).2.2.module = s.module := by
  dsimp only [State.busRead]
  split
  · rfl
  · split
    case h_2 =>
      split
      · rfl
      · exact foldl_module_by (fun b : Status × List Byte × State => b.2.2) _ (by intros; simp) _ (Status.ok, [], s)
    all_goals
      repeat' split
      all_goals simp

/-! ### Copies -/

@[simp] theorem State.genTouch_module (s : State) (a : Nat) : (s.genTouch a).module = s.module := by
  dsimp only [State.genTouch]
  repeat' split
  all_goals simp

/-! ### Control instructions -/

@[simp] theorem State.loadRead_module (s : State) (i a n : Nat) (o : IssueObs) : (s.loadRead i a n o).2.module = s.module := by
  simp [State.loadRead]
@[simp] theorem State.seqFail_module (s : State) (i : Nat) (st : Status) (area : Bool) :
    (s.seqFail i st area).module = s.module := by
  simp [State.seqFail]
@[simp] theorem State.waitOver_module (s : State) (i : Nat) : (s.waitOver i).module = s.module := by simp [State.waitOver]

/-! ### The arrival of a message -/

@[simp] theorem State.msgMalformed_module (s : State) (p : Nat) (m : Msg) : (s.msgMalformed p m).module = s.module := by
  simp [State.msgMalformed]
@[simp] theorem State.arrive_module (s : State) (p : Nat) (m : Msg) (handle : State → State)
    (h : ∀ s, (handle s).module = s.module) : (s.arrive p m handle).module = s.module := by
  unfold State.arrive
  repeat' split
  all_goals simp [h]

/-! ### Weight versions -/

@[simp] theorem State.sendReq_module (s : State) (p type : Nat) (u : TagUse) (body : List Byte) :
    (s.sendReq p type u body).2.module = s.module := by
  dsimp only [State.sendReq]
  split <;> simp
@[simp] theorem State.setInf_module (s : State) (p : Nat) (x : Inf) : (s.setInf p x).module = s.module := by simp [State.setInf]
@[simp] theorem State.pruneManifests_module (s : State) : s.pruneManifests.module = s.module := by simp [State.pruneManifests]
@[simp] theorem State.setStage_module (s : State) (st reason version : Nat) (root : List Byte) :
    (s.setStage st reason version root).module = s.module := by
  simp [State.setStage]
@[simp] theorem State.sendMan_module (s : State) (f : ManFetch) : (s.sendMan f).module = s.module := by
  dsimp only [State.sendMan]
  repeat' split
  all_goals simp
@[simp] theorem State.startMan_module (s : State) (version : Nat) (forActive : Bool) :
    (s.startMan version forActive).module = s.module := by
  simp [State.startMan]
@[simp] theorem State.endMan_module (s : State) (forActive passed : Bool) : (s.endMan forActive passed).module = s.module := by
  simp [State.endMan]
@[simp] theorem State.dropMan_module (s : State) (forActive : Bool) : (s.dropMan forActive).module = s.module := by
  simp [State.dropMan]
@[simp] theorem State.wrStage_module (s : State) (v : Word) : (s.wrStage v).2.module = s.module := by simp [State.wrStage]
@[simp] theorem State.releasePrior_module (s : State) : s.releasePrior.module = s.module := by
  unfold State.releasePrior
  split <;> simp
@[simp] theorem State.switch_module (s : State) : s.switch.module = s.module := by simp [State.switch]
@[simp] theorem State.decided_module (s : State) : s.decided.module = s.module := by simp [State.decided]
@[simp] theorem State.failWaiting_module (s : State) : s.failWaiting.module = s.module := by simp [State.failWaiting]
@[simp] theorem State.tryDecide_module (s : State) : s.tryDecide.module = s.module := by
  dsimp only [State.tryDecide]
  repeat' split
  all_goals simp
@[simp] theorem State.manRefused_module (s : State) (f : ManFetch) (reason : Nat) : (s.manRefused f reason).module = s.module := by
  simp [State.manRefused]
@[simp] theorem State.manFailed_module (s : State) (f : ManFetch) : (s.manFailed f).module = s.module := by simp [State.manFailed]
@[simp] theorem State.storeManifest_module (s : State) (m : Manifest) (bs : List Byte) :
    (s.storeManifest m bs).module = s.module := by
  simp [State.storeManifest]
@[simp] theorem State.manReply_module (s : State) (f : ManFetch) (b : List Byte) : (s.manReply f b).module = s.module := by
  dsimp only [State.manReply]
  repeat' split
  all_goals simp

/-! ### The Infuser -/

@[simp] theorem State.setChunk_module (s : State) (p : Nat) (c : InfChunk) : (s.setChunk p c).module = s.module := by
  simp [State.setChunk]
@[simp] theorem State.setReq_module (s : State) (p : Nat) (q : InfReq) : (s.setReq p q).module = s.module := by simp [State.setReq]
@[simp] theorem State.dropChunks_module (s : State) (p : Nat) (f : InfChunk → Bool) : (s.dropChunks p f).module = s.module := by
  simp [State.dropChunks]
@[simp] theorem State.dropReqs_module (s : State) (p : Nat) (f : InfReq → Bool) : (s.dropReqs p f).module = s.module := by
  simp [State.dropReqs]
@[simp] theorem State.dropReq_module (s : State) (p core seq : Nat) : (s.dropReq p core seq).module = s.module := by
  simp [State.dropReq]
@[simp] theorem State.cacheRead_module (s : State) (a : Nat) (c : InfChunk) (n : Nat) :
    (s.cacheRead a c n).2.module = s.module := by
  simp [State.cacheRead]
@[simp] theorem State.cacheLook_module (s : State) (p : Nat) (c : InfChunk) (n : Nat) :
    (s.cacheLook p c n).2.module = s.module := by
  simp [State.cacheLook]
@[simp] theorem State.sendAttempt_module (s : State) (p : Nat) (c : InfChunk) : (s.sendAttempt p c).2.module = s.module := by
  dsimp only [State.sendAttempt]
  repeat' split
  all_goals simp
@[simp] theorem State.chunkLost_module (s : State) (p : Nat) (c : InfChunk) : (s.chunkLost p c).module = s.module := by
  unfold State.chunkLost
  split <;> simp
@[simp] theorem State.nextAttempt_module (s : State) (p : Nat) (c : InfChunk) : (s.nextAttempt p c).module = s.module := by
  dsimp only [State.nextAttempt]
  split <;> simp
@[simp] theorem State.hashFail_module (s : State) (p : Nat) (c : InfChunk) : (s.hashFail p c).module = s.module := by
  simp [State.hashFail]
@[simp] theorem State.pushOn_module (s : State) (p : Nat) (c : InfChunk) (bs : List Byte) :
    (s.pushOn p c bs).module = s.module := by
  simp [State.pushOn]
@[simp] theorem State.hashPass_module (s : State) (p : Nat) (c : InfChunk) (bs : List Byte) :
    (s.hashPass p c bs).module = s.module := by
  unfold State.hashPass
  split <;> simp
@[simp] theorem State.verifyAll_module (s : State) (p n : Nat) : (s.verifyAll p n).module = s.module := by
  induction n generalizing s with
  | zero => simp [State.verifyAll]
  | succ n ih =>
    simp only [State.verifyAll]
    repeat' split
    all_goals simp [ih]
@[simp] theorem State.verify_module (s : State) (p : Nat) : (s.verify p).module = s.module := by simp [State.verify]
@[simp] theorem State.takePush_module (s : State) (p : Nat) (c : InfChunk) (n : Nat) : (s.takePush p c n).2.module = s.module := by
  dsimp only [State.takePush]
  split <;> simp
@[simp] theorem State.begin__module (s : State) (p : Nat) (c : InfChunk) : (s.begin_ p c).module = s.module := by
  dsimp only [State.begin_]
  repeat' split
  all_goals simp
@[simp] theorem State.wget_module (s : State) (p : Nat) : (s.wget p).module = s.module := by
  dsimp only [State.wget]
  split <;> simp
@[simp] theorem State.land_module (s : State) (p : Nat) (q : InfReq) (bs : List Byte) (x : Nat) :
    (s.land p q bs x).module = s.module := by
  simp [State.land]
@[simp] theorem State.deliverNext_module (s : State) (p : Nat) (fails : List (Nat × Nat)) :
    (s.deliverNext p fails).module = s.module := by
  unfold State.deliverNext
  split <;> simp
@[simp] theorem State.chunkReply_module (s : State) (inf : Nat) (c : InfChunk) (b : List Byte) :
    (s.chunkReply inf c b).module = s.module := by
  simp [State.chunkReply]
@[simp] theorem State.fetchFailed_module (s : State) (p tag : Nat) (timedOut : Bool) :
    (s.fetchFailed p tag timedOut).module = s.module := by
  dsimp only [State.fetchFailed]
  repeat' split
  all_goals simp
@[simp] theorem State.sendPub_module (s : State) (w : Wpub) (n : Nat) : (s.sendPub w n).2.2.module = s.module := by
  induction n generalizing w with
  | zero => simp [State.sendPub]
  | succ n ih =>
    simp only [State.sendPub]
    repeat' split
    all_goals simp [ih]
@[simp] theorem State.endPublish_module (s : State) (core seq : Nat) (st : Status) :
    (s.endPublish core seq st).module = s.module := by
  dsimp only [State.endPublish]
  split <;> simp
@[simp] theorem State.pushPub_module (s : State) (w : Wpub) : (s.pushPub w).module = s.module := by simp [State.pushPub]
@[simp] theorem State.pumpPubs_module (s : State) : s.pumpPubs.module = s.module := by simp [State.pumpPubs]
@[simp] theorem State.pubAcked_module (s : State) (w : Wpub) : (s.pubAcked w).module = s.module := by simp [State.pubAcked]
@[simp] theorem State.publishBytes_module (s : State) (w : BitVec 128) (t : Tensor) :
    (s.publishBytes w t).2.2.module = s.module := by
  simp [State.publishBytes]
@[simp] theorem State.startPublish_module (s : State) (i : Nat) (e : QEntry) : (s.startPublish i e).module = s.module := by
  unfold State.startPublish
  split <;> simp
@[simp] theorem State.startWreq_module (s : State) (i : Nat) (e : QEntry) : (s.startWreq i e).module = s.module := by
  unfold State.startWreq
  split <;> simp
@[simp] theorem State.acceptWreq_module (s : State) (p : Nat) : (s.acceptWreq p).module = s.module := by
  dsimp only [State.acceptWreq]
  repeat' split
  all_goals simp

/-! ### The Samovar -/

@[simp] theorem State.setGrp_module (s : State) (g : Nat) (x : Grp) : (s.setGrp g x).module = s.module := by simp [State.setGrp]
@[simp] theorem State.setSam_module (s : State) (p : Nat) (x : Sam) : (s.setSam p x).module = s.module := by simp [State.setSam]
@[simp] theorem State.askForm_module (s : State) (p group epoch : Nat) (body : List Byte) :
    (s.askForm p group epoch body).2.module = s.module := by
  dsimp only [State.askForm]
  repeat' split
  all_goals simp
@[simp] theorem State.formAsk_module (n : Nat) (s : State) (p : Nat) : (State.formAsk n s p).module = s.module := by
  dsimp only [State.formAsk]
  repeat' split
  all_goals simp
@[simp] theorem State.formOne_module (s : State) (n : Nat) : (s.formOne n).module = s.module := by
  dsimp only [State.formOne]
  repeat' split
  all_goals simp
@[simp] theorem State.holdEpoch_module (s : State) (k e : Nat) : (s.holdEpoch k e).module = s.module := by simp [State.holdEpoch]
@[simp] theorem State.noteSlice_module (s : State) (x : Shard) (slice : Nat) : (s.noteSlice x slice).module = s.module := by
  simp [State.noteSlice]
@[simp] theorem State.sendRed_module (s : State) (p type rank : Nat) (k : CKey) (chunk : Nat) (st : Status) (body : List Byte) :
    (s.sendRed p type rank k chunk st body).module = s.module := by
  simp [State.sendRed]
@[simp] theorem State.putCtx_module (s : State) (p : Nat) (c : Ctx) : (s.putCtx p c).module = s.module := by simp [State.putCtx]
@[simp] theorem State.dropCtx_module (s : State) (k : CKey) : (s.dropCtx k).module = s.module := by simp [State.dropCtx]
@[simp] theorem State.compareRed_module (s : State) (p : Nat) (k : CKey) (ok : Bool) : (s.compareRed p k ok).module = s.module := by
  simp [State.compareRed]
@[simp] theorem State.settleFails_module (s : State) (k : CKey) (ok : Bool) : (s.settleFails k ok).module = s.module := by
  simp [State.settleFails]
@[simp] theorem State.sumUp_module (s : State) (p : Nat) (c : Ctx) : (s.sumUp p c).2.module = s.module := by simp [State.sumUp]
@[simp] theorem State.sendPartial_module (s : State) (p : Nat) (c : Ctx) : (s.sendPartial p c).module = s.module := by
  simp [State.sendPartial, -List.reduceReplicate]
@[simp] theorem State.putRetained_module (s : State) (p : Nat) (r : Retained) : (s.putRetained p r).module = s.module := by
  simp [State.putRetained]
@[simp] theorem State.dropRetained_module (s : State) (k : CKey) : (s.dropRetained k).module = s.module := by
  simp [State.dropRetained]
@[simp] theorem State.readRetained_module (s : State) (p : Nat) (r : Retained) : (s.readRetained p r).2.2.module = s.module := by
  simp [State.readRetained]
@[simp] theorem State.writeErr_module (s : State) (p : Nat) (r : Retained) : (s.writeErr p r).2.module = s.module := by
  unfold State.writeErr
  split <;> simp
@[simp] theorem State.chunkDone_module (s : State) (k : CKey) (st : Status) : (s.chunkDone k st).module = s.module := by
  dsimp only [State.chunkDone]
  repeat' split
  all_goals simp
@[simp] theorem State.flushErr_module (s : State) : s.flushErr.module = s.module := by simp [State.flushErr]
@[simp] theorem State.sendMate_module (type : Nat) (k : CKey) (chunk : Nat) (body : List Byte) (s : State) (r : Nat) :
    (State.sendMate type k chunk body s r).module = s.module := by
  unfold State.sendMate
  split <;> simp
@[simp] theorem State.fanOut_module (s : State) (g : Grp) (type : Nat) (k : CKey) (chunk : Nat) (body : List Byte) (up : Option
    Nat) :
    (s.fanOut g type k chunk body up).module = s.module := by
  unfold State.fanOut
  split <;> simp
@[simp] theorem State.sliceDone_module (s : State) (g : Grp) (n slice : Nat) : (s.sliceDone g n slice).module = s.module := by
  dsimp only [State.sliceDone]
  repeat' split
  all_goals simp
@[simp] theorem State.endChunk_module (s : State) (p : Nat) (g : Grp) (c : Ctx) (st : Status) :
    (s.endChunk p g c st).module = s.module := by
  dsimp only [State.endChunk]
  repeat' split
  all_goals simp
@[simp] theorem State.encodeFrom_module (s : State) (p : Nat) (r : Retained) (attempt : Nat) (half : Bool) (vals : List FVal) :
    (s.encodeFrom p r attempt half vals).2.module = s.module := by
  simp [State.encodeFrom]
@[simp] theorem State.reencode_module (s : State) (k : CKey) (attempt : Nat) (half : Bool) :
    (s.reencode k attempt half).2.2.2.module = s.module := by
  unfold State.reencode
  split <;> simp
@[simp] theorem State.ownerActs_module (s : State) (p : Nat) (g : Grp) (c : Ctx) : (s.ownerActs p g c).2.module = s.module := by
  unfold State.ownerActs
  split <;> simp
@[simp] theorem State.moveCtx_module (s : State) (p home : Nat) (c : Ctx) : (s.moveCtx p home c).module = s.module := by
  simp [State.moveCtx]
@[simp] theorem State.judgeCtx_module (s : State) (g : Grp) (k : CKey) (mismatch : Bool) :
    (s.judgeCtx g k mismatch).2.module = s.module := by
  dsimp only [State.judgeCtx]
  repeat' split
  all_goals simp
@[simp] theorem State.enterCtx_module (s : State) (p : Nat) (c : Ctx) (src : Nat × Nat) (st : Status) (w : WireChunk) :
    (s.enterCtx p c src st w).2.module = s.module := by
  simp [State.enterCtx]
@[simp] theorem State.samInput_module (s : State) (p : Nat) (g : Grp) (k : CKey) (src : Nat × Nat) (st : Status) (body : List
    Byte) :
    (s.samInput p g k src st body).2.module = s.module := by
  dsimp only [State.samInput]
  repeat' split
  all_goals simp
@[simp] theorem State.samFuel_module (s : State) (p : Nat) (g : Grp) (k : CKey) (src : Nat × Nat) (st : Status) (body : List Byte)
    (n : Nat) : (s.samFuel p g k src st body n).module = s.module := by
  induction n generalizing s src st body with
  | zero => simp [State.samFuel]
  | succ n ih =>
    simp only [State.samFuel]
    repeat' split
    all_goals simp [ih]
@[simp] theorem State.samWaits_module (s : State) (p n : Nat) : (s.samWaits p n).module = s.module := by
  induction n generalizing s with
  | zero => simp [State.samWaits]
  | succ n ih =>
    simp only [State.samWaits]
    repeat' split
    all_goals simp [ih]
@[simp] theorem State.samServe_module (s : State) : s.samServe.module = s.module := by simp [State.samServe]
@[simp] theorem State.redInput_module (s : State) (p : Nat) (g : Grp) (k : CKey) (src : Nat × Nat) (st : Status) (body : List
    Byte) :
    (s.redInput p g k src st body).module = s.module := by
  simp [State.redInput]
@[simp] theorem State.dropHead_module (s : State) (i q : Nat) (hit : QEntry → Bool) : (s.dropHead i q hit).module = s.module := by
  unfold State.dropHead
  split <;> simp
@[simp] theorem State.dropHeads_module (n : Nat) (s : State) (i : Nat) : (State.dropHeads n s i).module = s.module := by
  simp [State.dropHeads]
@[simp] theorem State.dropGroup_module (s : State) (n : Nat) : (s.dropGroup n).module = s.module := by simp [State.dropGroup]
@[simp] theorem State.newEpoch_module (s : State) (n epoch : Nat) (cfg : GroupCfg) :
    (s.newEpoch n epoch cfg).module = s.module := by
  simp [State.newEpoch]

/-! ### Sip units -/

@[simp] theorem State.setSipg_module (s : State) (g : Nat) (x : SipGrp) : (s.setSipg g x).module = s.module := by
  simp [State.setSipg]
@[simp] theorem State.sipFormAsk_module (n : Nat) (s : State) (p : Nat) : (State.sipFormAsk n s p).module = s.module := by
  dsimp only [State.sipFormAsk]
  repeat' split
  all_goals simp
@[simp] theorem State.sipFormOne_module (s : State) (n : Nat) : (s.sipFormOne n).module = s.module := by
  dsimp only [State.sipFormOne]
  repeat' split
  all_goals simp
@[simp] theorem State.formAll_module (s : State) : s.formAll.module = s.module := by simp [State.formAll]
@[simp] theorem State.sipNewEpoch_module (s : State) (n epoch : Nat) : (s.sipNewEpoch n epoch).module = s.module := by
  unfold State.sipNewEpoch
  split <;> simp
@[simp] theorem State.formAgain_module (s : State) (p : Nat) : (s.formAgain p).module = s.module := by simp [State.formAgain]
@[simp] theorem State.sendSlot_module (s : State) (p : Nat) (b : FlitBytes) : (s.sendSlot p b).module = s.module := by
  simp [State.sendSlot]
@[simp] theorem State.sendSip_module (s : State) (p : Nat) (f : SipFlit) (naks : Nat) : (s.sendSip p f naks).module = s.module := by
  simp [State.sendSip]
@[simp] theorem State.sipredDone_module (s : State) (i seq : Nat) (st : Status) (payload : List (BitVec 32)) :
    (s.sipredDone i seq st payload).module = s.module := by
  dsimp only [State.sipredDone]
  repeat' split
  all_goals simp
@[simp] theorem State.sipResult_module (s : State) (group seq : Nat) (st : Status) (payload : List (BitVec 32)) :
    (s.sipResult group seq st payload).module = s.module := by
  dsimp only [State.sipResult]
  rw [foldl_module _ (fun s w => by (repeat' split) <;> simp)]
  simp
@[simp] theorem State.sipDown_module (s : State) (g : SipGrp) (f : SipFlit) : (s.sipDown g f).module = s.module := by
  simp [State.sipDown]
@[simp] theorem State.sipComplete_module (s : State) (g : SipGrp) (c : Combine) (faults : Nat) :
    (s.sipComplete g c faults).module = s.module := by
  simp [State.sipComplete]
@[simp] theorem State.sipInput_module (s : State) (n src : Nat) (f : SipFlit) (faults : Nat) :
    (s.sipInput n src f faults).module = s.module := by
  dsimp only [State.sipInput]
  repeat' split
  all_goals simp
@[simp] theorem State.startSipred_module (s : State) (i : Nat) (e : QEntry) : (s.startSipred i e).module = s.module := by
  dsimp only [State.startSipred]
  split <;> simp
@[simp] theorem State.exchangeFail_module (s : State) (st : Status) : (s.exchangeFail st).module = s.module := by
  simp [State.exchangeFail]
@[simp] theorem State.pumpExchange_module (s : State) (n : Nat) : (s.pumpExchange n).module = s.module := by
  induction n generalizing s with
  | zero => simp [State.pumpExchange]
  | succ n ih =>
    simp only [State.pumpExchange]
    repeat' split
    all_goals simp [ih]
@[simp] theorem State.enterLog_module (s : State) (x : Exchange) : (s.enterLog x).2.module = s.module := by
  dsimp only [State.enterLog]
  split <;> simp
@[simp] theorem State.exchangeEnd_module (s : State) (k : Nat) (st : Status) (payload : List (BitVec 32)) :
    (s.exchangeEnd k st payload).module = s.module := by
  unfold State.exchangeEnd
  split <;> simp

/-! ### The stream queues -/

@[simp] theorem State.startStream_module (s : State) (i : Nat) : (s.startStream i).module = s.module := by
  dsimp only [State.startStream]
  repeat' split
  all_goals simp
@[simp] theorem State.startStreams_module (s : State) (n : Nat) : (s.startStreams n).module = s.module := by
  induction n generalizing s with
  | zero => simp [State.startStreams]
  | succ n ih =>
    simp only [State.startStreams]
    repeat' split
    all_goals simp [ih]
@[simp] theorem State.settleStreams_module (s : State) : s.settleStreams.module = s.module := by simp [State.settleStreams]
@[simp] theorem State.message_module (s : State) (p : Nat) (m : Msg) (types : List Nat) (handle : State → State)
    (h : ∀ s, (handle s).module = s.module) : (s.message p m types handle).module = s.module := by
  unfold State.message
  repeat' split
  all_goals simp [h]

/-! ### Buddy copies -/

@[simp] theorem State.postBlock_module (s : State) (x : BlockSend) (body : List Byte) :
    (s.postBlock x body).2.module = s.module := by
  dsimp only [State.postBlock]
  repeat' split
  all_goals simp
@[simp] theorem State.sendBlock_module (s : State) (x : BlockSend) (handover : Bool) :
    (s.sendBlock x handover).2.2.module = s.module := by
  simp [State.sendBlock]
@[simp] theorem State.goCopy_module (s : State) (x : BlockSend) : (s.goCopy x).module = s.module := by simp [State.goCopy]
@[simp] theorem State.beginCopy_module (s : State) (n : Nat) : (s.beginCopy n).module = s.module := by simp [State.beginCopy]
@[simp] theorem State.nextCopy_module (s : State) : s.nextCopy.module = s.module := by
  dsimp only [State.nextCopy]
  split <;> simp
@[simp] theorem State.copyAcked_module (s : State) (x : BlockSend) : (s.copyAcked x).module = s.module := by simp [State.copyAcked]
@[simp] theorem State.copyFailed_module (s : State) (x : BlockSend) : (s.copyFailed x).module = s.module := by
  simp [State.copyFailed]
@[simp] theorem State.holderLost_module (s : State) : s.holderLost.module = s.module := by simp [State.holderLost]
@[simp] theorem State.handEnds_module (s : State) (st : Status) : (s.handEnds st).module = s.module := by simp [State.handEnds]
@[simp] theorem State.goHand_module (s : State) (x : BlockSend) : (s.goHand x).module = s.module := by simp [State.goHand]
@[simp] theorem State.handAcked_module (s : State) (x : BlockSend) : (s.handAcked x).module = s.module := by simp [State.handAcked]
@[simp] theorem State.wrHandover_module (s : State) (v : Word) : (s.wrHandover v).2.module = s.module := by simp [State.wrHandover]
@[simp] theorem State.bcopyEnds_module (s : State) (p tag : Nat) (st : Status) : (s.bcopyEnds p tag st).module = s.module := by
  dsimp only [State.bcopyEnds]
  split <;> simp
@[simp] theorem State.backIn_module (s : State) (p : Nat) (m : Msg) : (s.backIn p m).module = s.module := by simp [State.backIn]
@[simp] theorem State.bcopyLate_module (s : State) (p : Nat) : (s.bcopyLate p).module = s.module := by
  unfold State.bcopyLate
  split <;> simp
@[simp] theorem State.backTo_module (s : State) (p : Nat) (m : Msg) (st : Status) : (s.backTo p m st).module = s.module := by
  simp [State.backTo]
@[simp] theorem State.holdIn_module (s : State) (p : Nat) (m : Msg) : (s.holdIn p m).module = s.module := by simp [State.holdIn]

/-! ### Reductions -/

@[simp] theorem State.rchunkIn_module (s : State) (p : Nat) (m : Msg) : (s.rchunkIn p m).module = s.module := by
  dsimp only [State.rchunkIn]
  repeat' split
  all_goals simp
@[simp] theorem State.rresendIn_module (s : State) (p : Nat) (m : Msg) : (s.rresendIn p m).module = s.module := by
  dsimp only [State.rresendIn]
  repeat' split
  all_goals simp
@[simp] theorem State.rdoneIn_module (s : State) (p : Nat) (m : Msg) : (s.rdoneIn p m).module = s.module := by
  dsimp only [State.rdoneIn]
  repeat' split
  all_goals simp
@[simp] theorem State.ctxLate_module (s : State) (p : Nat) (c : Ctx) : (s.ctxLate p c).module = s.module := by
  dsimp only [State.ctxLate]
  repeat' split
  all_goals simp
@[simp] theorem State.formAnswer_module (s : State) (p : Nat) (m : Msg) : (s.formAnswer p m).module = s.module := by
  simp [State.formAnswer]
@[simp] theorem State.formConfirm_module (s : State) (p : Nat) (m : Msg) : (s.formConfirm p m).module = s.module := by
  dsimp only [State.formConfirm]
  repeat' split
  all_goals simp
@[simp] theorem State.gformIn_module (s : State) (p : Nat) (m : Msg) : (s.gformIn p m).module = s.module := by simp [State.gformIn]
@[simp] theorem State.memberReplaced_module (s : State) (old new : Nat) : (s.memberReplaced old new).module = s.module := by
  simp [State.memberReplaced]
@[simp] theorem State.wrGrpCmd_module (s : State) (v : Word) : (s.wrGrpCmd v).2.module = s.module := by
  dsimp only [State.wrGrpCmd]
  repeat' split
  all_goals simp
@[simp] theorem State.sipFlitIn_module (s : State) (p : Nat) (f : SipFlit) (faults : Nat) :
    (s.sipFlitIn p f faults).module = s.module := by
  dsimp only [State.sipFlitIn]
  repeat' split
  all_goals simp
@[simp] theorem State.sipGoesDown_module (s : State) (p : Nat) : (s.sipGoesDown p).module = s.module := by simp [State.sipGoesDown]
@[simp] theorem State.sipNakIn_module (s : State) (p slot : Nat) : (s.sipNakIn p slot).module = s.module := by
  dsimp only [State.sipNakIn]
  split <;> simp
@[simp] theorem State.sipSlotIn_module (s : State) (p slot : Nat) (b : FlitBytes) (faults : Nat) :
    (s.sipSlotIn p slot b faults).module = s.module := by
  simp [State.sipSlotIn]

/-! ### Weight messages -/

@[simp] theorem State.wdataIn_module (s : State) (p : Nat) (m : Msg) : (s.wdataIn p m).module = s.module := by
  dsimp only [State.wdataIn]
  repeat' split
  all_goals simp
@[simp] theorem State.pushIn_module (s : State) (p : Nat) (b : List Byte) : (s.pushIn p b).module = s.module := by
  dsimp only [State.pushIn]
  split <;> simp
@[simp] theorem State.wpushIn_module (s : State) (q : Nat) (m : Msg) : (s.wpushIn q m).module = s.module := by
  unfold State.wpushIn
  split <;> simp
@[simp] theorem State.wackIn_module (s : State) (p : Nat) (m : Msg) : (s.wackIn p m).module = s.module := by
  dsimp only [State.wackIn]
  repeat' split
  all_goals simp

/-! ### Stream ports -/

@[simp] theorem State.endRequest_module (s : State) (p : Nat) (t : Nat × TagUse) (st : Status) :
    (s.endRequest p t st).module = s.module := by
  dsimp only [State.endRequest]
  repeat' split
  all_goals simp
@[simp] theorem State.endWaiting_module (s : State) (p : Nat) (q : TagUse × Msg) (st : Status) :
    (s.endWaiting p q st).module = s.module := by
  unfold State.endWaiting
  split <;> simp
@[simp] theorem State.endPending_module (s : State) (p : Nat) (st : Status) : (s.endPending p st).module = s.module := by
  simp [State.endPending]
@[simp] theorem State.closePort_module (s : State) (p v : Nat) : (s.closePort p v).module = s.module := by simp [State.closePort]
@[simp] theorem State.portFailed_module (s : State) (p : Nat) : (s.portFailed p).module = s.module := by simp [State.portFailed]
@[simp] theorem State.fencePort_module (s : State) (p : Nat) : (s.fencePort p).module = s.module := by simp [State.fencePort]
@[simp] theorem State.retrain_module (s : State) (p : Nat) : (s.retrain p).module = s.module := by simp [State.retrain]
@[simp] theorem State.resend_module (s : State) (p : Nat) : (s.resend p).module = s.module := by simp [State.resend]
@[simp] theorem State.replay_module (s : State) (p : Nat) : (s.replay p).module = s.module := by simp [State.replay]
@[simp] theorem State.fastRetrain_module (s : State) (p mask : Nat) : (s.fastRetrain p mask).module = s.module := by
  simp [State.fastRetrain]
@[simp] theorem State.recordHello_module (s : State) (p : Nat) (b : List Byte) (gen : Nat) (matched : Bool) :
    (s.recordHello p b gen matched).module = s.module := by
  simp [State.recordHello]
@[simp] theorem State.negotiate_module (s : State) (p : Nat) (b : List Byte) : (s.negotiate p b).module = s.module := by
  simp [State.negotiate]
@[simp] theorem State.helloIn_module (s : State) (p : Nat) (m : Msg) : (s.helloIn p m).module = s.module := by simp [State.helloIn]
@[simp] theorem State.cplIn_module (s : State) (p : Nat) (m : Msg) : (s.cplIn p m).module = s.module := by
  unfold State.cplIn
  split <;> simp
@[simp] theorem State.fenceJob_module (s : State) (p : Nat) : (s.fenceJob p).module = s.module := by simp [State.fenceJob]
@[simp] theorem State.answerFence_module (s : State) (p : Nat) : (s.answerFence p).module = s.module := by
  dsimp only [State.answerFence]
  split <;> simp
@[simp] theorem State.jfenceIn_module (s : State) (p : Nat) (m : Msg) : (s.jfenceIn p m).module = s.module := by
  simp [State.jfenceIn]
@[simp] theorem State.fenceAnswered_module (s : State) (p : Nat) (m : Msg) : (s.fenceAnswered p m).module = s.module := by
  simp [State.fenceAnswered]
@[simp] theorem State.startPort_module (s : State) (p : Nat) : (s.startPort p).module = s.module := by simp [State.startPort]
@[simp] theorem State.wrPortCmd_module (s : State) (p : Nat) (v : Word) : (s.wrPortCmd p v).2.module = s.module := by
  dsimp only [State.wrPortCmd]
  repeat' split
  all_goals simp
@[simp] theorem State.portRow_module (s : State) (p : Nat) (v : Word) (mine : Nat → Bool) :
    (s.portRow p v mine).module = s.module := by
  simp [State.portRow]
@[simp] theorem State.wrLnkTest_module (s : State) (p : Nat) (v : Word) : (s.wrLnkTest p v).2.module = s.module := by
  simp [State.wrLnkTest]

/-! ### The caddy -/

@[simp] theorem State.nvIssue_module (s : State) (c : NvCmd) : (s.nvIssue c).module = s.module := by simp [State.nvIssue]

/-! ### Reads of the host -/

@[simp] theorem State.hostRead_module (s : State) (a n : Nat) (o : StoreObs) : (s.hostRead a n o).2.2.module = s.module := by
  simp [State.hostRead]

/-! ### The end of a wait -/

@[simp] theorem State.leaveSip_module (s : State) (seq core : Nat) : (s.leaveSip seq core).module = s.module := by
  simp [State.leaveSip]

/-! ### Scrubbing -/

@[simp] theorem State.lapDone_module (s : State) (n : Nat) : (s.lapDone n).module = s.module := by simp [State.lapDone]

/-! ### Operations that run a given one -/

@[simp] theorem State.issueWith_module (s : State) (op : Op) (i : Nat) (o : IssueObs) (run : State → State)
    (h : ∀ s, (run s).module = s.module) : (s.issueWith op i o run).module = s.module := by
  unfold State.issueWith
  repeat' split
  all_goals simp [h]

@[simp] theorem State.hostArrive_module (s : State) (m : HostMsg) (f : State → State) (h : ∀ s, (f s).module = s.module) :
    (s.hostArrive m f).module = s.module := by
  unfold State.hostArrive
  repeat' split
  all_goals simp [h]
@[simp] theorem State.mgtArrive_module (s : State) (m : MgtMsg) (f : State → State) (h : ∀ s, (f s).module = s.module) :
    (s.mgtArrive m f).module = s.module := by
  dsimp only [State.mgtArrive]
  repeat' split
  all_goals simp [h]
@[simp] theorem State.mgtRow_module (s : State) (m : MgtMsg) (type : Nat) (f : State → State) (h : ∀ s, (f s).module = s.module) :
    (s.mgtRow m type f).module = s.module := by
  unfold State.mgtRow
  split <;> simp [h]

/-! ## The commands that leave the module alone -/

theorem execDload_module {i : Nat} {o : IssueObs} {s t : State} (h : execDload i o s = .next t) : t.module = s.module := by
  simp only [execDload, Host.Outcome.next.injEq] at h
  subst h
  apply State.issueWith_module
  intro s
  repeat' split
  all_goals simp

theorem execDieErrThreshold_module {n die : Nat} {s t : State} (h : execDieErrThreshold n die s = .next t) :
    t.module = s.module := by
  dsimp only [execDieErrThreshold] at h
  repeat' split at h
  all_goals exact State.module_of_next h (by simp)

theorem execScrubRead_module {n : Nat} {u : ScrubObs} {s t : State} (h : execScrubRead n u s = .next t) :
    t.module = s.module := by
  dsimp only [execScrubRead] at h
  repeat' split at h
  all_goals exact State.module_of_next h (by simp)

theorem execScrubLapLimit_module {n : Nat} {s t : State} (h : execScrubLapLimit n s = .next t) : t.module = s.module := by
  dsimp only [execScrubLapLimit] at h
  split at h <;> exact State.module_of_next h (by simp)

/-- Every command that leavesModule names and leavesMost does not, by what it runs through. -/
theorem exec_module_beyondMost {c : Instr} {s t : State} (hc : (leavesModule c && !leavesMost c) = true)
    (h : exec c s = .next t) : t.module = s.module := by
  cases c with
  | mrd m => exact State.module_of_next h (by simp)
  | dload i o => exact execDload_module h
  | chkrd i o => exact State.module_of_next h (s.issueWith_module _ i o _ fun s => by dsimp only; (repeat' split) <;> simp)
  | wreq i o | wdone i o | publish i o | rxwait i o | sipred i o => exact State.module_of_next h (by simp)
  | wdata p m | wpush p m | wack p m | rchunk p m | rresend p m | rdone p m | gform p m | hello p m | cplReceive p m
  | jfence p m | jfenceDone p m | bcopy p m | back p m => exact State.module_of_next h (by simp)
  | wreqAccept p | wget p | attemptTimeout p tag | chunkDeliver p | manifestRetry | bcopyTimeout p =>
    exact State.module_of_next h (by simp)
  | sipFlitReceive p slot f faults | sipNak p f | siphello p slot f | sipTrainComplete p | sipLaneLoss p =>
    exact State.module_of_next h (by simp)
  | portTrainComplete p ok rx tx | helloRepeat p | ackTimeout p | laneSymThreshold p lane | fastRetrainComplete p tx
  | fastRetrainTimeout p | tagHoldExpiry p tag => exact State.module_of_next h (by simp)
  | stageVersion w v | stageCancel w v | groupReform w v | sipGroupReform w v | fullRetrain p v | fastRetrain p v
  | portDisable p v | portEnable p v | sipRetrain p v | lnkTest p v | ckpHandover w v | reform m | handover m =>
    exact State.module_of_next h (by simp)
  | memoryRead a u | memoryWrite a bytes u | caddyLinkUp nsze mdts | caddyDeviceAccess write a bytes =>
    exact State.module_of_next h (by simp)
  | waitTimeout i inQueue | followTimeout p | wpubTimeout p tag | stageLimitExpiry | ctxTimeout p ctx
  | formLimitExpiry sip group | govExchangeResult timeout => exact State.module_of_next h (by (repeat' split) <;> simp)
  | pushHoldExpiry p | sipCombineTimeout p | jfenceTimeout p =>
    exact State.module_of_next h (by dsimp only; (repeat' split) <;> simp)
  | dieErrThreshold n die => exact execDieErrThreshold_module h
  | scrubRead n u => exact execScrubRead_module h
  | scrubLapLimit n => exact execScrubLapLimit_module h
  | _ => exact absurd hc Bool.false_ne_true

theorem exec_module {c : Instr} {s t : State} (hc : leavesModule c = true) (h : exec c s = .next t) : t.module = s.module := by
  cases hm : leavesMost c with
  | false => exact exec_module_beyondMost (by simp [hc, hm]) h
  | true => exact congrArg MostFields.module (exec_most hm h)

/-- Settles O10. -/
theorem commandsThatLeaveTheModuleAlone : Obligations.CommandsThatLeaveTheModuleAlone := by
  unfold Obligations.CommandsThatLeaveTheModuleAlone
  intro c s t hc h
  simpa only [State.module, State.most, State.calm, CalmFields.most_mk, MostFields.module_mk, Prod.mk.injEq] using exec_module hc h

end Sys2Proof.Machine

/-! # Instructions at issue

O14 to O23: what each instruction does where nothing holds its issue, in the sequencer or on its way to a queue. -/

namespace Sys2Proof.Machine

/-! ## The state in which an instruction runs -/

theorem State.Issues.runs {s : State} {op : Op} {i : Nat} {o : IssueObs} (h : s.Issues op i o) (f : State → State) :
    s.issueWith op i o f = f (s.voted op i o) := h.run f

@[simp] theorem State.voted_calm (s : State) (op : Op) (i : Nat) (o : IssueObs) : (s.voted op i o).calm = s.calm :=
  State.countVotes_calm ..

@[simp] theorem State.core_voted (s : State) (op : Op) (i : Nat) (o : IssueObs) (j : Nat) : (s.voted op i o).core j = s.core j :=
  State.core_countVotes ..

/-! ## Completion in the sequencer -/

/-- Where `u` differs from `s` in core `i` alone, so does the state after an OK completion there. -/
theorem State.leadsTo_seqDone {s u : State} {i next : Nat} {c : Core} (hself : u.core i = c) (hne : s.otherCores u i)
    (hn : next < c.prog.length) (hr : c.signalRoom) :
    s.leadsTo (.next (u.seqDone i .ok next)) i (c.completed next) := by
  subst hself
  exact ⟨_, rfl, u.core_seqDone i next hn hr, fun j hj => (u.core_seqDone_ne hj next hn hr).trans (hne j hj)⟩

theorem State.otherCores_voted (s : State) (op : Op) (i : Nat) (o : IssueObs) : s.otherCores (s.voted op i o) i :=
  fun j _ => s.core_voted op i o j

theorem State.otherCores_setCore {s u : State} {i : Nat} (h : s.otherCores u i) (c : Core) : s.otherCores (u.setCore i c) i :=
  fun j hj => (u.core_setCore_ne hj c).trans (h j hj)

section
variable {s : State} {i : Nat} {o : IssueObs}

theorem exec_nop (h : s.Issues .nop i o) :
    exec (.nop i o) s = .next ((s.voted .nop i o).seqDone i .ok ((s.core i).pc + 1)) := by
  change Host.Outcome.next (s.issueWith ..) = _
  rw [h.runs, State.core_voted]

theorem exec_jump (h : s.Issues .jump i o) :
    exec (.jump i o) s = .next ((s.voted .jump i o).seqDone i .ok (iImm (s.core i).word % 16384)) := by
  change Host.Outcome.next (s.issueWith ..) = _
  rw [h.runs, State.core_voted]

theorem exec_loop (h : s.Issues .loop i o) :
    let c := s.core i
    let v := nth 0 c.lc (iFunc c.word % 4)
    exec (.loop i o) s = .next (((s.voted .loop i o).setCore i { c with lc := setNth c.lc (iFunc c.word % 4) (v - 1) }).seqDone i .ok
      (if 1 < v then iImm c.word % 16384 else c.pc + 1)) := by
  change Host.Outcome.next (s.issueWith ..) = _
  rw [h.runs, State.core_voted]

theorem exec_setlc (h : s.Issues .setlc i o) :
    let c := s.core i
    exec (.setlc i o) s = .next (((s.voted .setlc i o).setCore i
      { c with lc := setNth c.lc (iFunc c.word % 4) (iImm c.word) }).seqDone i .ok (c.pc + 1)) := by
  change Host.Outcome.next (s.issueWith ..) = _
  rw [h.runs, State.core_voted]

theorem exec_dset (h : s.Issues .dset i o) {d : BitVec 256}
    (hd : dsetEntry (iFunc (s.core i).word) (iImm (s.core i).word) ((s.core i).entryOf (iDst (s.core i).word)) = some d) :
    let c := s.core i
    exec (.dset i o) s = .next (((s.voted .dset i o).setCore i
      { c with work := Smap.set 0 c.work (iDst c.word) d }).seqDone i .ok (c.pc + 1)) := by
  change Host.Outcome.next (s.issueWith ..) = _
  rw [h.runs, State.core_voted]
  simp only [hd]

theorem exec_wait (h : s.Issues .wait i o) (hz : iImm (s.core i).word % 65536 ≠ 0) :
    exec (.wait i o) s = .next ((s.voted .wait i o).seqDone i .ok ((s.core i).pc + 1)) := by
  change Host.Outcome.next (s.issueWith ..) = _
  rw [h.runs, State.core_voted]
  simp only [hz, if_false]

theorem exec_drainu (h : s.Issues .drainu i o)
    (he : ∀ q, q < 4 → (iFunc (s.core i).word).testBit q = true → nth [] (s.core i).queues q = []) :
    exec (.drainu i o) s = .next ((s.voted .drainu i o).seqDone i .ok ((s.core i).pc + 1)) := by
  have hempty : (List.range 4).all (fun q => !(iFunc (s.core i).word).testBit q || (nth [] (s.core i).queues q).isEmpty) = true := by
    simp only [List.all_eq_true, List.mem_range, Bool.or_eq_true, Bool.not_eq_true', List.isEmpty_iff]
    intro q hq
    cases hb : (iFunc (s.core i).word).testBit q with
    | false => exact .inl rfl
    | true => exact .inr (he q hq hb)
  change Host.Outcome.next (s.issueWith ..) = _
  rw [h.runs, State.core_voted, if_pos hempty]

end

/-- Settles O14: each row completes after the change it makes to its own core, which leaves the word and the tokens as they were. -/
theorem sequencerInstructionsComplete : Obligations.SequencerInstructionsComplete := by
  unfold Obligations.SequencerInstructionsComplete
  intro s i o hr
  have hother (op : Op) : s.otherCores (s.voted op i o) i := s.otherCores_voted op i o
  refine ⟨fun h hn => ?nop, fun h hn => ?jump, fun h hn => ?loop, fun h hn => ?setlc, fun h hn d hd => ?dset, fun h hn hz => ?wait,
    fun h hn he => ?drainu⟩
  case nop => exact exec_nop h ▸ State.leadsTo_seqDone (s.core_voted ..) (hother _) hn hr
  case jump => exact exec_jump h ▸ State.leadsTo_seqDone (s.core_voted ..) (hother _) hn hr
  case loop => exact exec_loop h ▸ State.leadsTo_seqDone (State.core_setCore_self ..) (State.otherCores_setCore (hother _) _) hn hr
  case setlc => exact exec_setlc h ▸ State.leadsTo_seqDone (State.core_setCore_self ..) (State.otherCores_setCore (hother _) _) hn hr
  case dset => exact exec_dset h hd ▸ State.leadsTo_seqDone (State.core_setCore_self ..) (State.otherCores_setCore (hother _) _) hn hr
  case wait => exact exec_wait h hz ▸ State.leadsTo_seqDone (s.core_voted ..) (hother _) hn hr
  case drainu => exact exec_drainu h he ▸ State.leadsTo_seqDone (s.core_voted ..) (hother _) hn hr

/-! ## Entry into a queue (R126, R127) -/

section
variable {s : State} {op : Op} {i : Nat} {o : IssueObs} (h : s.Issues op i o)
  (check : State → Nat → BitVec 128 → List (BitVec 256) → Status)
include h

theorem State.Issues.issueQ (hq : s.queueFull i (op.queue.getD 0) = false) :
    s.issueQ op check i o = (s.voted op i o).enqueue op check i := by
  rw [State.issueQ, hq, h.runs]
  rfl

theorem State.Issues.issueCopy (hq : s.queueFull i 2 = false) (hw : (s.voted op i o).copyWaits i = false) :
    s.issueCopy op check i o = (s.voted op i o).enqueue op check i := by
  rw [State.issueCopy, hq, h.runs, hw]
  rfl

end

section
variable {s : State} (op : Op) (check : State → Nat → BitVec 128 → List (BitVec 256) → Status) {i : Nat} (o : IssueObs)
  (hn : (s.core i).pc + 1 < (s.core i).prog.length)
include hn

theorem State.core_voted_enqueue : ((s.voted op i o).enqueue op check i).core i =
    (s.core i).queued (op.queue.getD 0) ((s.voted op i o).issuedEntry op check i) := by
  rw [State.core_enqueue _ op check i (by rwa [State.core_voted]), State.core_voted]

theorem State.otherCores_enqueue : s.otherCores ((s.voted op i o).enqueue op check i) i := fun j hj => by
  rw [State.core_enqueue_ne _ op check hj (by rwa [State.core_voted]), State.core_voted]

end

/-- A mask that does not fit is recorded in registers alone. -/
theorem State.core_issueMask (s : State) (op : Op) (check : State → Nat → BitVec 128 → List (BitVec 256) → Status) (i : Nat)
    (o : IssueObs) (j : Nat) : (s.issueMask op check i o).core j = (s.issueQ op check i o).core j := by
  dsimp only [State.issueMask]
  split
  · rfl
  · split
    · rfl
    · simp

/-- Settles O15: nothing follows the entry into the queue, but for PRED and SMMP the record of a mask that does not fit. -/
theorem queueInstructionsIssue : Obligations.QueueInstructionsIssue := by
  unfold Obligations.QueueInstructionsIssue
  intro s i o hn
  have henters {op : Op} {q : Nat} {check : State → Nat → BitVec 128 → List (BitVec 256) → Status} {row : Instr} {t : State}
      (hop : op.queue.getD 0 = q) (hrow : exec row s = .next t) (ht : ∀ j, t.core j = (s.issueQ op check i o).core j)
      (h : s.Issues op i o) (hq : s.queueFull i q = false) :
      s.leadsTo (exec row s) i ((s.core i).queued q ((s.voted op i o).issuedEntry op check i)) := by
    subst hop
    simp only [h.issueQ check hq] at ht
    exact ⟨t, hrow, (ht i).trans (State.core_voted_enqueue op check o hn),
      fun j hj => (ht j).trans (State.otherCores_enqueue op check o hn j hj)⟩
  exact ⟨henters rfl rfl fun _ => rfl, henters rfl rfl fun _ => rfl, henters rfl rfl fun _ => rfl, henters rfl rfl fun _ => rfl,
    henters rfl rfl fun _ => rfl, henters rfl rfl fun _ => rfl,
    henters rfl rfl (s.core_issueMask .pred predCheck i o), henters rfl rfl (s.core_issueMask .smmp smmpCheck i o),
    henters rfl rfl fun _ => rfl, henters rfl rfl fun _ => rfl, henters rfl rfl fun _ => rfl, henters rfl rfl fun _ => rfl,
    henters rfl rfl fun _ => rfl, henters rfl rfl fun _ => rfl, henters rfl rfl fun _ => rfl, henters rfl rfl fun _ => rfl,
    henters rfl rfl fun _ => rfl, henters rfl rfl fun _ => rfl, henters rfl rfl fun _ => rfl⟩

/-! ## Copies (R149, R150, R513) -/

/-- COPYH lists its shard-hash entry after the issue: cores are as the issue left them. -/
theorem exec_copyh (s : State) (i : Nat) (o : IssueObs) : ∃ t, exec (.copyh i o) s = .next t ∧
    (∀ j, t.core j = (s.issueCopy .copyh copyhCheck i o).core j) ∧
    ((nth [] (s.core i).queues 2).length < (nth [] (t.core i).queues 2).length →
      t.job.slices.any (fun x => decide (x.1 = iImm (s.core i).word % 65536)) = true) := by
  refine ⟨_, rfl, fun j => ?_, ?_⟩
  · dsimp only
    split <;> rfl
  · dsimp only
    split
    · simp
    · rename_i hlisted
      intro hlonger
      by_contra hnot
      exact hlisted ⟨hlonger, hnot⟩

/-- Settles O16. -/
theorem copyInstructionsIssue : Obligations.CopyInstructionsIssue := by
  unfold Obligations.CopyInstructionsIssue
  intro s i o hn hq
  refine ⟨fun h hw => ?copy, fun h hw => ?copyh⟩
  case copy =>
    exact ⟨_, congrArg Host.Outcome.next (h.issueCopy copyCheck hq hw), State.core_voted_enqueue .copy copyCheck o hn,
      State.otherCores_enqueue .copy copyCheck o hn⟩
  case copyh =>
    obtain ⟨t, hrow, hcore, hlisted⟩ := exec_copyh s i o
    simp only [h.issueCopy copyhCheck hq hw] at hcore
    exact ⟨t, hrow, (hcore i).trans (State.core_voted_enqueue .copyh copyhCheck o hn),
      fun j hj => (hcore j).trans (State.otherCores_enqueue .copyh copyhCheck o hn j hj), hlisted⟩

/-- Settles O17: the state between is the one after the entry into the queue. -/
theorem sparseAndStreamInstructionsIssue : Obligations.SparseAndStreamInstructionsIssue := by
  unfold Obligations.SparseAndStreamInstructionsIssue
  intro s i o hn
  have henters {op : Op} {q : Nat} {check : State → Nat → BitVec 128 → List (BitVec 256) → Status} {row : Instr}
      {next : State → State} (hop : op.queue.getD 0 = q) (hrow : exec row s = .next (next (s.issueQ op check i o)))
      (h : s.Issues op i o) (hq : s.queueFull i q = false) :
      ∃ u, u.core i = (s.core i).queued q ((s.voted op i o).issuedEntry op check i) ∧ s.otherCores u i ∧
        exec row s = .next (next u) := by
    subst hop
    exact ⟨_, State.core_voted_enqueue op check o hn, State.otherCores_enqueue op check o hn,
      hrow.trans (by rw [h.issueQ check hq])⟩
  exact ⟨henters rfl rfl, henters rfl rfl, henters rfl rfl, henters rfl rfl, henters rfl rfl, henters rfl rfl, henters rfl rfl,
    henters rfl rfl⟩

/-! ## SIGNAL (R146) -/

theorem State.sigs_of_calm {s t : State} (h : t.calm = s.calm) : t.sigs = s.sigs := by
  simp only [State.calm, Prod.mk.injEq] at h
  simp only [h]

/-- The signal that core `i` sends at its word, which waits for the acknowledgement. -/
def State.signalOf (s : State) (op : Op) (i : Nat) (o : IssueObs) : Sig :=
  let w := (s.core i).word
  { src := i, target := iCore w, tok := iFunc w % 16, count := iImm w % 256
    instr := some (w, (s.core i).pc, ((s.voted op i o).advance i ((s.core i).pc + 1)).2.instrs i) }

theorem exec_signal {s : State} {i : Nat} {o : IssueObs} (h : s.Issues .signal i o)
    (hn : (s.core i).pc + 1 < (s.core i).prog.length) (hc : iImm (s.core i).word % 256 ≠ 0)
    (ht : isCore (iCore (s.core i).word) = true) :
    let u := ((s.voted .signal i o).advance i ((s.core i).pc + 1)).2
    exec (.signal i o) s =
      .next (State.bump { u with sigs := u.sigs ++ [s.signalOf .signal i o] } .seqCore i Reg.SEQ_SIGNALS_SENT 1) := by
  change Host.Outcome.next (s.issueWith ..) = _
  rw [h.runs, State.core_voted]
  simp only [hc, ht, not_true_eq_false, or_self, if_false]
  rw [State.advance_ok _ i _ (by rwa [State.core_voted])]
  rfl

/-- Settles O20: the signal is added to those under way in the state after the issue. -/
theorem signalLeavesForItsTarget : Obligations.SignalLeavesForItsTarget := by
  unfold Obligations.SignalLeavesForItsTarget
  intro s i o h hn hc ht
  have hsigs : ((s.voted .signal i o).advance i ((s.core i).pc + 1)).2.sigs = s.sigs := by
    rw [State.advance, State.bump_sigs, State.setCore_sigs, State.sigs_of_calm (s.voted_calm ..)]
  refine ⟨_, s.signalOf .signal i o, exec_signal h hn hc ht, ?_, rfl, rfl, rfl, rfl, fun j hj => ?_, ?_⟩
  · rw [State.bump_sigs, hsigs]
  · exact (State.core_bump ..).trans ((State.core_advance_ne _ hj _).trans (s.core_voted ..))
  · exact (State.core_bump ..).trans ((State.core_advance ..).trans (by rw [State.core_voted]))

/-! ## BATCH (R148) -/

/-- A cluster sequencer that reports batches changes its own record of them alone. -/
theorem State.reportBatches_keeps {P : State → Prop} {c : Nat} (hset : ∀ (t : State) reps n, P t →
    P (t.setCluster c { t.cluster c with batchReps := reps, batchNo := n })) {s : State} (hs : P s) : P (s.reportBatches c) :=
  foldl_keeps _ (fun t n ht => by dsimp only; split; exacts [ht, hset t _ _ ht]) _ s hs

theorem State.core_reportBatches (s : State) (c j : Nat) : (s.reportBatches c).core j = s.core j :=
  State.reportBatches_keeps (P := fun t => t.core j = s.core j) (fun t _ _ ht => (t.core_setCluster ..).trans ht) rfl

theorem State.endedMask_reportBatches (s : State) (c : Nat) :
    ((s.reportBatches c).cluster c).endedMask = (s.cluster c).endedMask :=
  State.reportBatches_keeps (P := fun t => (t.cluster c).endedMask = (s.cluster c).endedMask)
    (fun t _ _ ht => by rwa [State.cluster_setCluster_self]) rfl

theorem exec_batch {s : State} {i : Nat} {o : IssueObs} (h : s.Issues .batch i o) :
    exec (.batch i o) s = .next ((((s.voted .batch i o).setCore i
      { s.core i with batches := (s.core i).batches ++ [iImm (s.core i).word] }).seqDone i .ok ((s.core i).pc + 1)).reportBatches
        (((s.voted .batch i o).setCore i
          { s.core i with batches := (s.core i).batches ++ [iImm (s.core i).word] }).homeCluster i)) := by
  change Host.Outcome.next (s.issueWith ..) = _
  rw [h.runs, State.core_voted]

/-- Settles O19: what the cluster sequencer then reports reaches no core. -/
theorem batchIsMarked : Obligations.BatchIsMarked := by
  unfold Obligations.BatchIsMarked
  intro s i o h hr hn
  obtain ⟨t, ht, hself, hne⟩ := State.leadsTo_seqDone (State.core_setCore_self (s.voted .batch i o) i
    { s.core i with batches := (s.core i).batches ++ [iImm (s.core i).word] })
    (State.otherCores_setCore (s.otherCores_voted .batch i o) _) hn hr
  cases ht
  exact ⟨_, exec_batch h, (State.core_reportBatches ..).trans hself, fun j hj => (State.core_reportBatches ..).trans (hne j hj)⟩

/-! ## The clusters that cores work for (R22, R103) -/

theorem blockBase_topCluster_ne_seqCore (c i : Nat) {o : Nat} (h : o < 0x8000) :
    blockBase .topCluster c + Reg.TOP_XBAR_CFG ≠ blockBase .seqCore i + o := by
  simp only [blockBase, coreWin, clusterWin, dieWin, coreCluster, coreVal, Reg.TOP_XBAR_CFG]
  omega

theorem blockBase_topCluster_ne_mod (c : Nat) {b : RBlk} {o : Nat} (hb : blockBase b 0 < 0x200002000000) (h : o < 0x100000) :
    blockBase .topCluster c + Reg.TOP_XBAR_CFG ≠ blockBase b 0 + o := by
  have hcluster : 0x200100000000 ≤ blockBase .topCluster c := by
    simp only [blockBase, clusterWin, dieWin]; omega
  omega

section
variable (s : State) (i : Nat) (c : Nat)

theorem State.xbar_bump_seqCore {o : Nat} (h : o < 0x8000) (n : Nat) : (s.bump .seqCore i o n).xbar c = s.xbar c :=
  s.peek_bump_ne (blockBase_topCluster_ne_seqCore c i h) (blockBase_topCluster_ne_mod c (by decide) (by omega)) n

theorem State.xbar_raise_seqCore {o : Nat} (h : o < 0x8000) (n : Nat) : (s.raise .seqCore i o n).xbar c = s.xbar c :=
  s.peek_raise_ne (blockBase_topCluster_ne_seqCore c i h) (blockBase_topCluster_ne_mod c (by decide) (by decide))
    (blockBase_topCluster_ne_mod c (by decide) (by decide)) n

theorem State.xbar_countVotes (n : Nat) (v : Vote) : (s.countVotes i n v).xbar c = s.xbar c := by
  have hreads (u : State) : (u.bump .seqCore i Reg.SEQ_VOTE_READS n).xbar c = u.xbar c := u.xbar_bump_seqCore i c (by decide) n
  have hdisagree (u : State) (k p f r e : Nat) :
      (((u.check k p f r e).bump .seqCore i Reg.SEQ_VOTE_DISAGREE 1).raise .seqCore i Reg.SEQ_EVENT 2).xbar c = u.xbar c := by
    rw [State.xbar_raise_seqCore _ i c (by decide), State.xbar_bump_seqCore _ i c (by decide)]
    rfl
  cases v with
  | agree => exact hreads s
  | majority | noMajority => exact (hdisagree ..).trans (hreads s)

end

theorem State.homeCluster_of_xbar {s t : State} (h : ∀ c, t.xbar c = s.xbar c) (j : Nat) : t.homeCluster j = s.homeCluster j := by
  simp [State.homeCluster, h]

theorem State.maskBit_of_xbar {s t : State} (h : ∀ c, t.xbar c = s.xbar c) (j : Nat) : t.maskBit j = s.maskBit j := by
  simp [State.maskBit, State.homeCluster_of_xbar h]

theorem State.xbar_voted (s : State) (op : Op) (i : Nat) (o : IssueObs) (c : Nat) : (s.voted op i o).xbar c = s.xbar c :=
  s.xbar_countVotes i c ..

theorem State.cluster_of_calm {s t : State} (h : t.calm = s.calm) (c : Nat) : t.cluster c = s.cluster c := by
  simp only [State.calm, Prod.mk.injEq] at h
  simp only [State.cluster, h]

/-! ## END (R132) -/

/-- The core once END has executed. -/
def Core.ended (c : Core) : Core := { c with ending := true, st := .running, waits := .none }

/-- The state in which END has stopped issue, before the cluster sequencer notes it. -/
def State.stopped (s : State) (i : Nat) (o : IssueObs) : State :=
  ((s.voted .end_ i o).setCore i (s.core i).ended).bump .seqCore i Reg.SEQ_INSTRS 1

section
variable (s : State) (i : Nat) (o : IssueObs)

theorem State.core_stopped_self : (s.stopped i o).core i = (s.core i).ended := by
  rw [State.stopped, State.core_bump, State.core_setCore_self]

theorem State.core_stopped_ne {j : Nat} (h : j ≠ i) : (s.stopped i o).core j = s.core j := by
  rw [State.stopped, State.core_bump, State.core_setCore_ne _ h, State.core_voted]

theorem State.xbar_stopped (c : Nat) : (s.stopped i o).xbar c = s.xbar c :=
  (State.xbar_bump_seqCore _ i c (by decide) 1).trans (s.xbar_voted .end_ i o c)

theorem State.cluster_stopped (c : Nat) : (s.stopped i o).cluster c = s.cluster c :=
  (State.cluster_bump ..).trans ((State.cluster_setCore ..).trans (State.cluster_of_calm (s.voted_calm ..) c))

end

theorem exec_end {s : State} {i : Nat} {o : IssueObs} (h : s.Issues .end_ i o) :
    let k := s.homeCluster i
    let x := s.cluster k
    exec (.end_ i o) s = .next ((((s.stopped i o).setCluster k
      { x with endedMask := x.endedMask ||| 2 ^ s.maskBit i }).reportBatches k).settle i) := by
  change Host.Outcome.next (s.issueWith ..) = _
  rw [h.runs, State.core_voted]
  change Host.Outcome.next ((((s.stopped i o).setCluster ((s.stopped i o).homeCluster i)
    { (s.stopped i o).cluster ((s.stopped i o).homeCluster i) with
      endedMask := ((s.stopped i o).cluster ((s.stopped i o).homeCluster i)).endedMask ||| 2 ^ (s.stopped i o).maskBit i }).reportBatches
        ((s.stopped i o).homeCluster i)).settle i) = _
  rw [State.homeCluster_of_xbar (s.xbar_stopped i o), State.maskBit_of_xbar (s.xbar_stopped i o), State.cluster_stopped]

section
variable {s : State} {i : Nat} {c : Core}

/-- A core in service that has executed END reports ENDED where its queues are empty. -/
theorem State.settle_ended (hc : s.core i = c.ended) (hf : c.fenced = false) :
    s.settle i = if c.queues.all (·.isEmpty) then s.setCore i { c.ended with st := .ended } else s := by
  have hq : c.ended.queues = c.queues := rfl
  have hfenced : c.ended.fenced = false := hf
  dsimp only [State.settle]
  rw [hc, hq, hfenced]
  cases c.queues.all (·.isEmpty) <;> rfl

theorem State.core_settle_ended (hc : s.core i = c.ended) (hf : c.fenced = false) :
    (s.settle i).core i =
      { c with ending := true, waits := .none, st := if c.queues.all (·.isEmpty) then .ended else .running } := by
  rw [State.settle_ended hc hf]
  split
  · exact s.core_setCore_self i _
  · exact hc

theorem State.core_settle_ended_ne (hc : s.core i = c.ended) (hf : c.fenced = false) {j : Nat} (h : j ≠ i) :
    (s.settle i).core j = s.core j := by
  rw [State.settle_ended hc hf]
  split
  · exact s.core_setCore_ne h _
  · rfl

theorem State.cluster_settle_ended (hc : s.core i = c.ended) (hf : c.fenced = false) (k : Nat) :
    (s.settle i).cluster k = s.cluster k := by
  rw [State.settle_ended hc hf]
  split <;> rfl

end

theorem State.Issues.inService {s : State} {op : Op} {i : Nat} {o : IssueObs} (h : s.Issues op i o) : (s.core i).fenced = false := by
  have hcan := h.can
  simp only [State.canIssue, Bool.and_eq_true, Bool.not_eq_true'] at hcan
  obtain ⟨⟨⟨⟨-, hfenced⟩, -⟩, -⟩, -⟩ := hcan
  exact hfenced

/-- Settles O18: what the cluster sequencer reports and the settling of the core leave the mask of ended cores. -/
theorem endStopsIssue : Obligations.EndStopsIssue := by
  unfold Obligations.EndStopsIssue
  intro s i o h
  have hcore (x : Cluster) (j : Nat) :
      (((s.stopped i o).setCluster (s.homeCluster i) x).reportBatches (s.homeCluster i)).core j = (s.stopped i o).core j :=
    State.core_reportBatches ..
  have hended (x : Cluster) := (hcore x i).trans (s.core_stopped_self i o)
  refine ⟨_, exec_end h, fun j hj => ?_, State.core_settle_ended (hended _) h.inService, ?_⟩
  · rw [State.core_settle_ended_ne (hended _) h.inService hj, hcore, State.core_stopped_ne s i o hj]
  · rw [State.cluster_settle_ended (hended _) h.inService, State.endedMask_reportBatches, State.cluster_setCluster_self]

/-! ## CHKRD (R168) -/

theorem State.mem_of_calm {s t : State} (h : t.calm = s.calm) : t.mem = s.mem := by
  simp only [State.calm, Prod.mk.injEq] at h
  simp only [h]

theorem State.mem_seqDone (s : State) (i : Nat) (st : Status) (next : Nat) : (s.seqDone i st next).mem = s.mem := by
  have hmost := s.seqDone_most i st next
  simp only [State.most, State.calm, CalmFields.most_mk, Prod.mk.injEq] at hmost
  obtain ⟨hmem, -⟩ := hmost
  exact hmem

section
variable (s : State) (i a : Nat) (bs : List Byte)

@[simp] theorem State.mem_tsWrite : (s.tsWrite i a bs).mem = putBytes s.mem a bs := by
  simp only [State.tsWrite]
  split <;> rfl

/-- A write to the tile store touches nothing of its core but the write-backs that wait. -/
theorem State.core_tsWrite : ∃ ws, (s.tsWrite i a bs).core i = { s.core i with writeback := ws } := by
  simp only [State.tsWrite]
  split
  · exact ⟨_, s.core_setCore_self i _⟩
  · exact ⟨_, rfl⟩

theorem State.core_tsWrite_ne {j : Nat} (h : j ≠ i) : (s.tsWrite i a bs).core j = s.core j := by
  simp only [State.tsWrite]
  split
  · exact s.core_setCore_ne h _
  · rfl

end

/-- The state in which CHKRD writes: `func` 2 has taken a word of free content. -/
def State.chkrdReads (s : State) (i : Nat) (o : IssueObs) : State :=
  if iFunc (s.core i).word = 2 then (s.voted .chkrd i o).useFree 1 else s.voted .chkrd i o

theorem State.core_chkrdReads (s : State) (i : Nat) (o : IssueObs) (j : Nat) : (s.chkrdReads i o).core j = s.core j := by
  rw [State.chkrdReads]
  split
  · exact s.core_voted ..
  · exact s.core_voted ..

theorem State.mem_chkrdReads (s : State) (i : Nat) (o : IssueObs) : (s.chkrdReads i o).mem = s.mem := by
  rw [State.chkrdReads]
  split
  · exact State.mem_of_calm (s.voted_calm ..)
  · exact State.mem_of_calm (s.voted_calm ..)

theorem exec_chkrd {s : State} {i : Nat} {o : IssueObs} (h : s.Issues .chkrd i o) {x : Tensor} {bs : List Byte}
    (hx : parseTensor (s.voted .chkrd i o).govFormat ((s.core i).entryOf (iDst (s.core i).word)) = some x)
    (hbs : (s.voted .chkrd i o).chkrdBytes i (iFunc (s.core i).word) = some bs) (hown : ownRange i x.base 64 = true) :
    exec (.chkrd i o) s = .next (((s.chkrdReads i o).tsWrite i x.base bs).seqDone i .ok ((s.core i).pc + 1)) := by
  change Host.Outcome.next (s.issueWith ..) = _
  rw [h.runs, State.core_voted]
  simp only [hx, hbs, hown, if_true]
  rfl

/-- Settles O23: the write and the completion touch nothing of another core, and the completion nothing of memory. -/
theorem chkrdWritesItsBytes : Obligations.ChkrdWritesItsBytes := by
  unfold Obligations.ChkrdWritesItsBytes
  intro s i o x bs h hr hn hx hbs hown
  obtain ⟨ws, hself⟩ := (s.chkrdReads i o).core_tsWrite i x.base bs
  rw [State.core_chkrdReads] at hself
  obtain ⟨t, ht, hpc, hne⟩ := State.leadsTo_seqDone hself
    (fun j hj => (State.core_tsWrite_ne _ i x.base bs hj).trans (s.core_chkrdReads i o j)) hn hr
  cases ht
  refine ⟨_, exec_chkrd h hx hbs hown, ?_, congrArg Core.pc hpc, hne⟩
  rw [State.mem_seqDone, State.mem_tsWrite, State.mem_chkrdReads]

/-! ## BARRIER (R147) -/

/-- A core that waits at a barrier passes it; any other core is as it was. -/
def Core.passed (c : Core) : Core := if c.waits = .barrier then c.completed (c.pc + 1) else c

/-- The next word lies in the program and the signal finds room. -/
def Core.mayPass (c : Core) : Prop := c.pc + 1 < c.prog.length ∧ c.signalRoom

theorem Core.waits_passed (c : Core) : c.passed.waits ≠ .barrier := by
  rw [Core.passed]
  split
  · exact nofun
  · assumption

@[simp] theorem Core.passed_passed (c : Core) : c.passed.passed = c.passed := if_neg c.waits_passed

section
variable {s : State} {i : Nat} (h : (s.core i).waits = .barrier → (s.core i).mayPass)
include h

theorem State.core_passBarrier : (s.passBarrier i).core i = (s.core i).passed := by
  rw [State.passBarrier, Core.passed]
  split
  · rename_i hw
    exact s.core_seqDone i _ (h hw).1 (h hw).2
  · rfl

theorem State.core_passBarrier_ne {j : Nat} (hj : j ≠ i) : (s.passBarrier i).core j = s.core j := by
  rw [State.passBarrier]
  split
  · rename_i hw
    exact s.core_seqDone_ne hj _ (h hw).1 (h hw).2
  · rfl

end

/-- Every core of the list that waits at the barrier passes it once, however often it is listed. -/
theorem State.core_passBarriers (l : List Nat) (s : State) (h : ∀ j ∈ l, (s.core j).waits = .barrier → (s.core j).mayPass) (j : Nat) :
    (l.foldl State.passBarrier s).core j = if j ∈ l then (s.core j).passed else s.core j := by
  induction l generalizing s with
  | nil => rfl
  | cons a l ih =>
    have ha := h a List.mem_cons_self
    have hrest : ∀ k ∈ l, ((s.passBarrier a).core k).waits = .barrier → ((s.passBarrier a).core k).mayPass := by
      intro k hk hw
      by_cases hka : k = a
      · subst hka
        rw [State.core_passBarrier ha] at hw
        exact absurd hw (Core.waits_passed _)
      · rw [State.core_passBarrier_ne ha hka] at hw ⊢
        exact h k (List.mem_cons_of_mem _ hk) hw
    rw [List.foldl_cons, ih _ hrest]
    by_cases hja : j = a
    · subst hja
      simp [State.core_passBarrier ha]
    · simp [State.core_passBarrier_ne ha hja, hja]

theorem Smap.mem_put_self {β : Type} (m : Smap β) (n : Nat) (v : β) : (n, v) ∈ Smap.put m n v := by
  induction m with
  | nil => exact List.mem_cons_self
  | cons e m ih =>
    rw [Smap.put]
    split
    · exact List.mem_cons_self
    · split
      · exact List.mem_cons_self
      · exact List.mem_cons_of_mem _ ih

theorem Smap.mem_put_of_mem {β : Type} {m : Smap β} {e : Nat × β} (he : e ∈ m) {n : Nat} (hne : e.1 ≠ n) (v : β) :
    e ∈ Smap.put m n v := by
  induction m with
  | nil => cases he
  | cons x m ih =>
    rw [Smap.put]
    split
    · exact List.mem_cons_of_mem _ he
    · split
      · rename_i hx
        rcases List.mem_cons.mp he with rfl | he
        · exact absurd hx.symm hne
        · exact List.mem_cons_of_mem _ he
      · rcases List.mem_cons.mp he with rfl | he
        · exact List.mem_cons_self
        · exact List.mem_cons_of_mem _ (ih he)

theorem State.mem_programCores {s : State} {j : Nat} : j ∈ s.programCores ↔ ∃ c, (j, c) ∈ s.cores ∧ c.hasProg = true := by
  simp [State.programCores]

/-- A core with a program joins those that hold one. -/
theorem State.mem_programCores_setCore (s : State) (i : Nat) {c : Core} (hc : c.hasProg = true) (j : Nat) :
    j ∈ (s.setCore i c).programCores ↔ j = i ∨ j ∈ s.programCores := by
  have hblank : c ≠ Core.blank := by
    rintro rfl
    exact Bool.false_ne_true hc
  have hcores : (s.setCore i c).cores = Smap.put s.cores i c := (Smap.set_eq ..).trans (if_neg hblank)
  rw [State.mem_programCores, State.mem_programCores, hcores]
  constructor
  · rintro ⟨d, hd, hprog⟩
    rcases Smap.mem_put hd with heq | hold
    · exact .inl (congrArg Prod.fst heq)
    · exact .inr ⟨d, hold, hprog⟩
  · intro h
    by_cases hji : j = i
    · subst hji
      exact ⟨c, Smap.mem_put_self .., hc⟩
    · obtain ⟨d, hd, hprog⟩ := h.resolve_left hji
      exact ⟨d, Smap.mem_put_of_mem hd hji c, hprog⟩

/-- The core once it has arrived at a barrier. -/
def Core.atBarrier (c : Core) : Core := { c with st := .waiting, waits := .barrier }

/-- The state in which core `i` has arrived at its barrier, before the sequencer of the cluster or region notes it. -/
def State.atBarrier (s : State) (i : Nat) (o : IssueObs) : State := (s.voted .barrier i o).setCore i (s.core i).atBarrier

theorem State.Issues.hasProg {s : State} {op : Op} {i : Nat} {o : IssueObs} (h : s.Issues op i o) : (s.core i).hasProg = true := by
  have hcan := h.can
  simp only [State.canIssue, Bool.and_eq_true, Bool.not_eq_true'] at hcan
  obtain ⟨⟨⟨⟨⟨-, hprog⟩, -⟩, -⟩, -⟩, -⟩ := hcan
  exact hprog

theorem State.region_of_calm {s t : State} (h : t.calm = s.calm) (r : Nat) : t.region r = s.region r := by
  simp only [State.calm, Prod.mk.injEq] at h
  simp only [State.region, h]

theorem State.cores_of_calm {s t : State} (h : t.calm = s.calm) : t.cores = s.cores := by
  simp only [State.calm, Prod.mk.injEq] at h
  simp only [h]

theorem State.blend_of_calm {s t : State} (h : t.calm = s.calm) : t.blend = s.blend := by
  simp only [State.calm, Prod.mk.injEq] at h
  simp only [h]

section
variable (s : State) (i : Nat) (o : IssueObs)

theorem State.core_atBarrier_self : (s.atBarrier i o).core i = (s.core i).atBarrier := State.core_setCore_self ..

theorem State.core_atBarrier_ne : s.otherCores (s.atBarrier i o) i := State.otherCores_setCore (s.otherCores_voted .barrier i o) _

theorem State.cluster_voted (op : Op) (c : Nat) : (s.voted op i o).cluster c = s.cluster c := State.cluster_of_calm (s.voted_calm ..) c

theorem State.region_voted (op : Op) (r : Nat) : (s.voted op i o).region r = s.region r := State.region_of_calm (s.voted_calm ..) r

theorem State.homeCluster_voted (op : Op) (j : Nat) : (s.voted op i o).homeCluster j = s.homeCluster j :=
  State.homeCluster_of_xbar (s.xbar_voted op i o) j

theorem State.maskBit_voted (op : Op) (j : Nat) : (s.voted op i o).maskBit j = s.maskBit j :=
  State.maskBit_of_xbar (s.xbar_voted op i o) j

theorem State.coreRegion_voted (op : Op) (j : Nat) : (s.voted op i o).coreRegion j = s.coreRegion j := by
  rw [State.coreRegion, State.coreRegion, State.homeCluster_voted, State.regionOf, State.regionOf, State.blend_of_calm (s.voted_calm ..)]

theorem State.homeCluster_atBarrier (j : Nat) : (s.atBarrier i o).homeCluster j = s.homeCluster j := s.homeCluster_voted i o .barrier j

theorem State.coreRegion_atBarrier (j : Nat) : (s.atBarrier i o).coreRegion j = s.coreRegion j := s.coreRegion_voted i o .barrier j

end

section
variable {s : State} {i : Nat} {o : IssueObs} (h : s.Issues .barrier i o)
include h

theorem State.Issues.mem_programCores_atBarrier (j : Nat) : j ∈ (s.atBarrier i o).programCores ↔ j = i ∨ j ∈ s.programCores := by
  rw [State.atBarrier, State.mem_programCores_setCore _ i (c := (s.core i).atBarrier) h.hasProg, State.mem_programCores,
    State.mem_programCores, State.cores_of_calm (s.voted_calm ..)]

theorem State.Issues.mem_clusterProg_atBarrier (j : Nat) :
    j ∈ (s.atBarrier i o).clusterProg (s.homeCluster i) ↔ j = i ∨ j ∈ s.clusterProg (s.homeCluster i) := by
  simp only [State.clusterProg, List.mem_filter, h.mem_programCores_atBarrier, State.homeCluster_atBarrier, decide_eq_true_eq]
  by_cases hji : j = i <;> simp [hji]

theorem State.Issues.mem_regionProg_atBarrier (j : Nat) :
    j ∈ (s.atBarrier i o).regionProg i ↔ j = i ∨ j ∈ s.regionProg i := by
  simp only [State.regionProg, List.mem_filter, h.mem_programCores_atBarrier, State.coreRegion_atBarrier, decide_eq_true_eq]
  by_cases hji : j = i <;> simp [hji]

end

/-- The cluster's barrier has let its cores go. -/
def Cluster.barrierOver (x : Cluster) : Cluster := { x with barOpen := false, barId := 0, barArrived := 0 }

/-- The region's barrier has let its cores go. -/
def Region.barrierOver (x : Region) : Region := { x with barOpen := false, barId := 0, barArrived := [] }

section
variable {s : State} {i : Nat} {o : IssueObs} (h : s.Issues .barrier i o) (hw : (s.core i).waits ≠ .barrier)
include h hw

theorem exec_barrier_cluster (hf : iFunc (s.core i).word = 0) :
    let k := s.homeCluster i
    let x := s.cluster k
    let id := iImm (s.core i).word % 65536
    let mask := x.barArrived ||| 2 ^ s.maskBit i
    let u := s.atBarrier i o
    (x.barOpen = true → x.barId = id) → exec (.barrier i o) s = .next
      (if (u.clusterProg k).all fun j => mask.testBit (s.maskBit j) then
        (u.clusterProg k).foldl State.passBarrier ((u.setCluster k x.barrierOver).add .seqCluster k Reg.SEQ_CL_BARRIERS 1)
      else u.setCluster k { x with barOpen := true, barId := id, barArrived := mask }) := by
  intro k x id mask u hopen
  have hsame : ¬(x.barOpen = true ∧ x.barId ≠ id) := fun hdiff => hdiff.2 (hopen hdiff.1)
  have hmask := s.maskBit_voted i o .barrier
  have hmaskAt (c : Core) (j : Nat) : ((s.voted .barrier i o).setCore i c).maskBit j = s.maskBit j := s.maskBit_voted i o .barrier j
  change Host.Outcome.next (if (s.core i).waits = .barrier then s else s.issueWith ..) = _
  rw [if_neg hw, h.runs, State.core_voted]
  simp only [hf]
  simp only [State.arriveCluster, State.homeCluster_voted, State.cluster_voted, hmask, hmaskAt, State.core_voted]
  rw [if_neg hsame]
  rfl

theorem exec_barrier_region (hf : iFunc (s.core i).word = 1) :
    let r := (s.coreRegion i).getD 256
    let x := s.region r
    let id := iImm (s.core i).word % 65536
    let got := if x.barArrived.contains i then x.barArrived else x.barArrived ++ [i]
    let u := s.atBarrier i o
    (x.barOpen = true → x.barId = id) → exec (.barrier i o) s = .next
      (if (u.regionProg i).all got.contains then (u.regionProg i).foldl State.passBarrier (u.setRegion r x.barrierOver)
      else u.setRegion r { x with barOpen := true, barId := id, barArrived := got }) := by
  intro r x id got u hopen
  have hsame : ¬(x.barOpen = true ∧ x.barId ≠ id) := fun hdiff => hdiff.2 (hopen hdiff.1)
  change Host.Outcome.next (if (s.core i).waits = .barrier then s else s.issueWith ..) = _
  rw [if_neg hw, h.runs, State.core_voted]
  simp only [hf]
  simp only [State.arriveRegion, State.coreRegion_voted, State.region_voted, State.core_voted]
  rw [if_neg hsame]
  rfl

end

/-- Once all have arrived, core `i` and every other core that waits at the barrier pass it. -/
theorem State.passBarriers_atBarrier {s u : State} {i : Nat} {o : IssueObs} {l old : List Nat}
    (hu : ∀ j, u.core j = (s.atBarrier i o).core j) (hl : ∀ j, j ∈ l ↔ j = i ∨ j ∈ old) (hi : i ∈ old)
    (hpass : ∀ j ∈ old, (s.core j).mayPass) :
    (l.foldl State.passBarrier u).core i = (s.core i).completed ((s.core i).pc + 1) ∧
      ∀ j ∈ old, j ≠ i → (s.core j).waits = .barrier →
        (l.foldl State.passBarrier u).core j = (s.core j).completed ((s.core j).pc + 1) := by
  have hself : u.core i = (s.core i).atBarrier := (hu i).trans (s.core_atBarrier_self i o)
  have hne (j : Nat) (hj : j ≠ i) : u.core j = s.core j := (hu j).trans (s.core_atBarrier_ne i o j hj)
  have hmay : ∀ j ∈ l, (u.core j).waits = .barrier → (u.core j).mayPass := by
    intro j hj _
    by_cases hji : j = i
    · subst hji
      rw [hself]
      exact hpass j hi
    · rw [hne j hji]
      exact hpass j (((hl j).mp hj).resolve_left hji)
  constructor
  · rw [State.core_passBarriers l u hmay, if_pos ((hl i).mpr (.inl rfl)), hself]
    rfl
  · intro j hj hji hwait
    rw [State.core_passBarriers l u hmay, if_pos ((hl j).mpr (.inr hj)), hne j hji, Core.passed, if_pos hwait]

/-- Settles O21: the cores of the cluster or region are the same once core `i`, which holds a program, waits at its barrier. -/
theorem barrierHoldsAndReleases : Obligations.BarrierHoldsAndReleases := by
  unfold Obligations.BarrierHoldsAndReleases
  intro s i o h hw c id fits passes
  refine ⟨fun hf => ?cluster, fun hf => ?region⟩
  case cluster =>
    intro k mask hopen
    have hrow := exec_barrier_cluster h hw hf hopen
    refine ⟨fun hcome => ?_, fun hi hall hfits => ?_⟩
    · have hwait : ¬ ((s.atBarrier i o).clusterProg k).all (fun j => mask.testBit (s.maskBit j)) = true := by
        obtain ⟨j, hj, hbit⟩ := hcome
        intro hall
        have hset := List.all_eq_true.mp hall j ((h.mem_clusterProg_atBarrier j).mpr (.inr hj))
        exact Bool.false_ne_true (hbit.symm.trans hset)
      exact ⟨_, hrow.trans (congrArg _ (if_neg hwait)), s.core_atBarrier_self i o, s.core_atBarrier_ne i o,
        State.cluster_setCluster_self ..⟩
    · have hgo : ((s.atBarrier i o).clusterProg k).all (fun j => mask.testBit (s.maskBit j)) = true :=
        List.all_eq_true.mpr fun j hj => ((h.mem_clusterProg_atBarrier j).mp hj).elim (fun hji => hji ▸ hall i hi) (hall j)
      exact ⟨_, hrow.trans (congrArg _ (if_pos hgo)),
        State.passBarriers_atBarrier (fun _ => rfl) h.mem_clusterProg_atBarrier hi hfits⟩
  case region =>
    intro r got hopen
    have hrow := exec_barrier_region h hw hf hopen
    refine ⟨fun hcome => ?_, fun hi hall hfits => ?_⟩
    · have hwait : ¬ ((s.atBarrier i o).regionProg i).all got.contains = true := by
        obtain ⟨j, hj, hmissing⟩ := hcome
        intro hall
        have hset := List.all_eq_true.mp hall j ((h.mem_regionProg_atBarrier j).mpr (.inr hj))
        exact Bool.false_ne_true (hmissing.symm.trans hset)
      exact ⟨_, hrow.trans (congrArg _ (if_neg hwait)), s.core_atBarrier_self i o, s.core_atBarrier_ne i o,
        State.region_setRegion_self ..⟩
    · have hgo : ((s.atBarrier i o).regionProg i).all got.contains = true :=
        List.all_eq_true.mpr fun j hj => ((h.mem_regionProg_atBarrier j).mp hj).elim (fun hji => hji ▸ hall i hi) (hall j)
      exact ⟨_, hrow.trans (congrArg _ (if_pos hgo)),
        State.passBarriers_atBarrier (fun _ => rfl) h.mem_regionProg_atBarrier hi hfits⟩

/-! ## DLOAD (R144)

Counting the words read writes out the seven counts that CHKRD reports (R168). Where the record of the core is still the empty
list, each of its counts reads as 0, it becomes seven zeros: CHKRD reports the same, but the record is not as it was. -/

/-- The seven counts of a core's record of checks. -/
def Core.sevenChecks (c : Core) : List Nat := (List.range 7).map fun k => nth 0 c.checks k

theorem Core.length_sevenChecks (c : Core) : c.sevenChecks.length = 7 := by simp [Core.sevenChecks]

section
variable (s : State) (i n : Nat)

/-- Reads of the tile store without any error count in registers and write out the core's record. -/
theorem State.core_tsReads_clean : (s.tsReads i n [] false).core i = { s.core i with checks := (s.core i).sevenChecks } := by
  change (((s.bump .vecCore i Reg.VEC_TS_READS n).checkAt i cStore n 0 0 0).core i) = _
  rw [State.checkAt, State.core_setCore_self, State.core_check, State.core_bump]
  rfl

theorem State.core_tsReads_clean_ne {j : Nat} (h : j ≠ i) : (s.tsReads i n [] false).core j = s.core j := by
  change (((s.bump .vecCore i Reg.VEC_TS_READS n).checkAt i cStore n 0 0 0).core j) = _
  rw [State.checkAt, State.core_setCore_ne _ h, State.core_check, State.core_bump]

theorem State.mem_tsReads_clean : (s.tsReads i n [] false).mem = s.mem := by
  change (s.bump .vecCore i Reg.VEC_TS_READS n).mem = _
  rw [State.bump_mem]

end

theorem State.loadRead_own {s : State} {i a n : Nat} {o : IssueObs} (hown : ownRange i a n = true) (hd : o.double = false)
    (hc : o.corrected = []) :
    s.loadRead i a n o = (some (.ok, getBytes s.mem a n), s.tsReads i ((n + a % 4 + 3) / 4) [] false) := by
  rw [State.loadRead, if_pos hown, hd, hc]
  simp only [Bool.false_eq_true, if_false, State.mem_tsReads_clean]

/-- DLOAD of entries in its own tile store: the core but for its record of checks as O22 says. -/
theorem leadsTo_dload {s : State} {i : Nat} {o : IssueObs} {x : Tensor} (h : s.Issues .dload i o) (hr : (s.core i).signalRoom)
    (hn : (s.core i).pc + 1 < (s.core i).prog.length) (hd : o.double = false) (hc : o.corrected = []) {n : Nat}
    (hcount : iImm (s.core i).word % 512 = n)
    (hx : parseTensor (s.voted .dload i o).govFormat ((s.core i).entryOf (iSrc0 (s.core i).word)) = some x)
    (hpos : 1 ≤ n) (hmax : n ≤ 256) (hfit : iDst (s.core i).word + n ≤ 256) (hown : ownRange i x.base (32 * n) = true) :
    s.leadsTo (exec (.dload i o) s) i { (s.core i).completed ((s.core i).pc + 1) with
      checks := (s.core i).sevenChecks
      work := loadEntries (s.core i).work (iDst (s.core i).word) (chunksOf 32 (getBytes s.mem x.base (32 * n))) } := by
  have hsize : ¬(n = 0 ∨ 256 < n ∨ 256 < iDst (s.core i).word + n) := by omega
  have hrow : exec (.dload i o) s = .next ((((s.voted .dload i o).tsReads i ((32 * n + x.base % 4 + 3) / 4) [] false).setCore i
      { s.core i with
        checks := (s.core i).sevenChecks
        work := loadEntries (s.core i).work (iDst (s.core i).word) (chunksOf 32 (getBytes s.mem x.base (32 * n))) }).seqDone i .ok
      ((s.core i).pc + 1)) := by
    change Host.Outcome.next (s.issueWith ..) = _
    rw [h.runs, State.core_voted]
    simp only [hx, hcount, if_neg hsize, State.loadRead_own hown hd hc, State.core_tsReads_clean, State.core_voted,
      State.mem_of_calm (s.voted_calm ..), ne_eq, not_true_eq_false, if_false]
  exact hrow ▸ State.leadsTo_seqDone (State.core_setCore_self ..)
    (State.otherCores_setCore (fun j hj => (State.core_tsReads_clean_ne _ i _ hj).trans (s.core_voted ..)) _) hn hr

/-- A module whose core 0 is at a DLOAD of one entry from the start of its tile store, where entry 0 of its working copy lies. -/
def dloadState : State := State.reset.setCore 0
  { Core.blank with
    hasProg := true, prog := [0x10000000000000005, 0], powered := true, st := .running
    work := [(0, BitVec.ofNat 256 (tileBase 0 + 2 ^ 128 + 2 ^ 163 + 2 ^ 193))] }

/-- All votes agree, and no word is in error. -/
def cleanIssue : IssueObs := { vote := .agree, corrected := [], double := false }

set_option maxRecDepth 20000 in
theorem dloadState_issues : dloadState.Issues .dload 0 cleanIssue :=
  ⟨by decide, by decide, by decide, by decide, by decide⟩

set_option maxRecDepth 20000 in
theorem dloadState_tensor : (parseTensor (dloadState.voted .dload 0 cleanIssue).govFormat
    ((dloadState.core 0).entryOf (iSrc0 (dloadState.core 0).word))).any (fun x => ownRange 0 x.base 32) = true := by decide

set_option maxRecDepth 20000 in
/-- Refutes O22: the DLOAD of a core whose record of checks is empty leaves seven zeros there. -/
theorem not_dloadFillsTheWorkingCopy : ¬ Obligations.DloadFillsTheWorkingCopy := by
  unfold Obligations.DloadFillsTheWorkingCopy
  intro hall
  obtain ⟨x, hx, hown⟩ := (Option.any_eq_true ..).mp dloadState_tensor
  have hcount : iImm (dloadState.core 0).word % 512 = 1 := by decide
  have hroom : (dloadState.core 0).signalRoom := fun hs => absurd hs (by decide)
  obtain ⟨t, ht, hcore, -⟩ := hall dloadState 0 cleanIssue x dloadState_issues hroom (by decide) rfl rfl hx (by decide) (by decide)
    (by decide) (hcount ▸ hown)
  obtain ⟨u, hu, hseven, -⟩ := leadsTo_dload dloadState_issues hroom (by decide) rfl rfl hcount hx (by decide) (by decide)
    (by decide) hown
  cases ht.symm.trans hu
  have hkept : (t.core 0).checks = [] := (congrArg Core.checks hcore).trans rfl
  have hwritten : (t.core 0).checks.length = 7 := (congrArg (fun c => c.checks.length) hseven).trans (Core.length_sevenChecks _)
  simp [hkept] at hwritten

end Sys2Proof.Machine

/-! # Commands of the host

O31: what a CMD does that starts when it arrives. -/

namespace Sys2Proof.Machine

/-! ## Elements of a list -/

theorem nth_eq_getD {α : Type} (d : α) (xs : List α) (i : Nat) : nth d xs i = xs.getD i d := by
  induction xs generalizing i with
  | nil => rfl
  | cons x xs ih => cases i with
    | zero => rfl
    | succ i => exact ih i

theorem nth_setNth_self {α : Type} {d : α} {xs : List α} {i : Nat} (h : i < xs.length) (x : α) :
    nth d (setNth xs i x) i = x := by
  simp [nth_eq_getD, setNth, h]

theorem nth_setNth_ne {α : Type} {d : α} {i j : Nat} (h : j ≠ i) (xs : List α) (x : α) :
    nth d (setNth xs i x) j = nth d xs j := by
  simp [nth_eq_getD, setNth, List.getElem?_set_ne h.symm]

/-! ## Command queues -/

@[simp] theorem State.setCmdq_setCmdq (s : State) (q : Nat) (x y : CmdQ) : (s.setCmdq q x).setCmdq q y = s.setCmdq q y := by
  simp [State.setCmdq, setNth]

theorem State.cmdq_setCmdq_self {s : State} {q : Nat} (h : q < s.host.queues.length) (x : CmdQ) : (s.setCmdq q x).cmdq q = x :=
  nth_setNth_self h x

theorem State.cmdq_setCmdq_ne {q k : Nat} (h : k ≠ q) (s : State) (x : CmdQ) : (s.setCmdq q x).cmdq k = s.cmdq k :=
  nth_setNth_ne h ..

/-- A queue past the last reads as one with nothing in it. -/
theorem State.waiting_cmdq {s : State} (h : ∀ x ∈ s.host.queues, x.waiting = []) (q : Nat) : (s.cmdq q).waiting = [] := by
  rw [State.cmdq, nth_eq_getD, List.getD_eq_getElem?_getD]
  cases hx : s.host.queues[q]? with
  | none => rfl
  | some x => exact h x (List.mem_of_getElem? hx)

/-- What a queue's head leaves, by what its command answers: one that ends at once completes, one that runs on does not. -/
def State.ended (q : Nat) (r : Started) : State :=
  match r.1 with
  | some a => r.2.finishCmd q a.1 a.2
  | none => r.2

theorem State.ended_some (q : Nat) (st : Status) (payload : List Byte) (s : State) :
    State.ended q (some (st, payload), s) = s.finishCmd q st payload := rfl

theorem State.ended_none (q : Nat) (s : State) : State.ended q (none, s) = s := rfl

theorem State.runHead_of_waiting {s : State} {q : Nat} {c : Cmd} {rest : List Cmd} (h : (s.cmdq q).waiting = c :: rest) :
    s.runHead q = State.ended q ((s.setCmdq q { s.cmdq q with running := some c, waiting := rest }).startCmd q c) := by
  simp only [State.runHead, h]
  rfl

section
variable {s : State} {q : Nat} {x : CmdQ} {c : Cmd} (hlen : s.host.queues.length = 16) (hq : q < 16)
  (hquiet : ∀ x ∈ s.host.queues, x.waiting = []) (hw : x.waiting = [c])
include hlen hq hquiet hw

theorem State.waitingCount_setCmdq :
    ((s.setCmdq q x).host.queues.map fun y => y.waiting.length).foldl (· + ·) 0 = 1 := by
  have hzero : (s.host.queues.map fun y => y.waiting.length) = List.replicate s.host.queues.length 0 :=
    List.map_eq_replicate_iff.mpr fun y hy => by simp [hquiet y hy]
  rw [← List.sum_eq_foldl]
  simp [State.setCmdq, setNth, List.map_set, hzero, hw, List.sum_set, hlen ▸ hq]

theorem State.readyQueue_setCmdq (hr : x.running = none) (hc : c.prog = 0) : (s.setCmdq q x).readyQueue = some q := by
  refine List.find?_range_eq_some.mpr ⟨?_, List.mem_range.mpr hq, fun k hk => ?_⟩
  · simp [State.cmdq_setCmdq_self (hlen ▸ hq), hr, hw, State.headHeld, hc]
  · simp [State.cmdq_setCmdq_ne hk.ne, State.waiting_cmdq hquiet]

/-- The one command that waits in any queue starts. -/
theorem State.runQueues_setCmdq (hr : x.running = none) (hc : c.prog = 0) :
    (s.setCmdq q x).runQueues = State.ended q ((s.setCmdq q { x with running := some c, waiting := [] }).startCmd q c) := by
  have hself := State.cmdq_setCmdq_self (hlen.symm ▸ hq) x
  rw [State.runQueues, State.waitingCount_setCmdq hlen hq hquiet hw]
  simp only [State.runFuel, State.readyQueue_setCmdq hlen hq hquiet hw hr hc]
  rw [State.runHead_of_waiting (hself ▸ hw), hself, State.setCmdq_setCmdq]

end

/-! ## The arrival of a CMD (R408, R412) -/

theorem State.hostArrive_of_hears {s : State} {m : HostMsg} {type : Nat} (h : s.HostHears m type) (f : State → State) :
    s.hostArrive m f = f s := by
  simp only [State.hostArrive, h.up, h.good, h.free, not_true_eq_false, Bool.false_eq_true, and_false, if_false]

section
variable {s : State} {m : HostMsg} {code : Nat} (h : s.Takes m code)
include h

theorem State.Takes.queue_lt : m.queue < 16 := by
  have hgood := h.hears.good
  simp only [msgBad, h.hears.kind, Bool.or_eq_false_iff, decide_eq_false_iff_not] at hgood
  omega

theorem State.enqueueCmd_of_takes :
    s.enqueueCmd m = State.ended m.queue ((s.taken m).startCmd m.queue (hostCmd m)) := by
  have hwait := State.waiting_cmdq h.quiet m.queue
  simp only [State.enqueueCmd, hwait, h.idle]
  exact State.runQueues_setCmdq (s := { s with host := { s.host with tags := s.host.tags ++ [m.tag] } }) h.queues h.queue_lt h.quiet
    rfl rfl rfl

theorem State.command_of_takes :
    s.command m code = State.ended m.queue ((s.taken m).startCmd m.queue (hostCmd m)) := by
  simp [State.command, h.hears.kind, h.kind, State.hostArrive_of_hears h.hears, State.enqueueCmd_of_takes h]

end

/-! ## What a command does that R413 accepts -/

/-- What an accepted command but ATTEST does, by its code (R413). -/
def hostEffect (code : Nat) (s : State) (q : Nat) (c : Cmd) : Started :=
  if code = cJobOpen then s.startJobOpen q c
  else if code = cStepData then s.startStepData q c
  else if code = cBlendLoad then s.startBlendLoad q c
  else if code = cRegionDrain then s.startDrain q c
  else if code = cRegionReset then s.startRegionReset q c
  else if code = cSelfTest then s.startSelfTest q c
  else if code = cCheckpoint then s.startCheckpoint q c
  else if code = cRestore then s.startRestore q c
  else s.startJobClose q c

theorem State.startCmd_of_accepted {s : State} {q : Nat} {c : Cmd} (hok : s.cmdOk c = true) (hne : c.code ≠ cAttest)
    (hacc : c.accepted s.workState = true) : s.startCmd q c = hostEffect c.code s.leaveWarm q c := by
  simp only [State.startCmd, hok, hne, hacc, not_true_eq_false, if_false]
  rfl

theorem State.command_of_accepted {s : State} {m : HostMsg} {code : Nat} (h : s.Takes m code) (ha : s.accepts m)
    (hne : code ≠ cAttest) (hok : (s.taken m).cmdOk (hostCmd m) = true) :
    s.command m code = State.ended m.queue (hostEffect code (s.begun m) m.queue (hostCmd m)) := by
  have hkind : (hostCmd m).code = code := h.kind
  rw [State.command_of_takes h, State.startCmd_of_accepted hok (hkind ▸ hne) ha, hkind]
  rfl

/-- Beyond the length and the zeros of its body, such a command has no form to keep. -/
theorem State.Takes.cmdOk_of_not_mem {s : State} {m : HostMsg} {code : Nat} (h : s.Takes m code)
    (hc : code ∉ [cJobOpen, cRegionDrain, cRegionReset, cSelfTest, cCheckpoint, cRestore]) :
    (s.taken m).cmdOk (hostCmd m) = true := by
  have hkind : (hostCmd m).code = code := h.kind
  simp only [List.mem_cons, List.not_mem_nil, or_false, not_or] at hc
  simp [State.cmdOk, h.body, hkind, hc]

theorem State.command_attest {s : State} {m : HostMsg} (h : s.Takes m cAttest) :
    s.command m cAttest = State.ended m.queue ((s.taken m).startAttest m.queue (hostCmd m)) := by
  have hkind : (hostCmd m).code = cAttest := h.kind
  have hok : (s.taken m).cmdOk (hostCmd m) = true := h.cmdOk_of_not_mem (by decide)
  rw [State.command_of_takes h]
  simp [State.startCmd, hok, hkind]

@[simp] theorem hostCmd_body (m : HostMsg) : (hostCmd m).body = m.payload := rfl

/-! ## The rows, by what each command does when it starts -/

/-- The lowest bit of a little-endian number is that of its first byte. -/
theorem leAt_succ_mod_two (bs : List Byte) (o n : Nat) : leAt bs o (n + 1) % 2 = leAt bs o 1 % 2 := by
  unfold leAt
  cases bs.drop o with
  | nil => rfl
  | cons x xs => simp only [List.take_succ_cons, ofLe]; omega

theorem flagged_eq (m : HostMsg) (o n : Nat) : flagged m o = decide (leAt m.payload o (n + 1) % 2 = 1) := by
  rw [flagged, leAt_succ_mod_two m.payload o n]

section
variable {s : State} {m : HostMsg}

theorem exec_jobOpen (h : s.Takes m cJobOpen) (ha : s.accepts m) (hf : leAt m.payload 8 8 ≠ 0) :
    exec (.jobOpen m) s = .next (State.ended m.queue ((s.begun m).startJobOpen m.queue (hostCmd m))) := by
  have hkind : (hostCmd m).code = cJobOpen := h.kind
  have hok : (s.taken m).cmdOk (hostCmd m) = true := by simp [State.cmdOk, h.body, hkind, hf]
  exact congrArg Host.Outcome.next (State.command_of_accepted h ha (by decide) hok)

theorem exec_stepData (h : s.Takes m cStepData) (ha : s.accepts m) :
    exec (.stepData m) s = .next (State.ended m.queue ((s.begun m).startStepData m.queue (hostCmd m))) :=
  congrArg Host.Outcome.next (State.command_of_accepted h ha (by decide) (h.cmdOk_of_not_mem (by decide)))

theorem State.command_blendLoad (h : s.Takes m cBlendLoad) (ha : s.accepts m) :
    s.command m cBlendLoad = State.ended m.queue ((s.begun m).startBlendLoad m.queue (hostCmd m)) :=
  State.command_of_accepted h ha (by decide) (h.cmdOk_of_not_mem (by decide))

theorem exec_blendLoadFull (h : s.Takes m cBlendLoad) (ha : s.accepts m) (hp : leAt m.payload 12 4 = 0) :
    exec (.blendLoadFull m) s = .next (State.ended m.queue ((s.begun m).startBlendLoad m.queue (hostCmd m))) := by
  have hflag : ¬flagged m 12 = true := by simp [flagged_eq m 12 3, hp]
  exact congrArg Host.Outcome.next ((if_neg hflag).trans (State.command_blendLoad h ha))

theorem exec_blendLoadPartial (h : s.Takes m cBlendLoad) (ha : s.accepts m) (hp : leAt m.payload 12 4 = 1) :
    exec (.blendLoadPartial m) s = .next (State.ended m.queue ((s.begun m).startBlendLoad m.queue (hostCmd m))) := by
  have hflag : flagged m 12 = true := by simp [flagged_eq m 12 3, hp]
  exact congrArg Host.Outcome.next ((if_pos hflag).trans (State.command_blendLoad h ha))

theorem exec_checkpoint (h : s.Takes m cCheckpoint) (ha : s.accepts m) (hf : leAt m.payload 0 8 ≤ 1) :
    exec (.checkpoint m) s = .next (State.ended m.queue ((s.begun m).startCheckpoint m.queue (hostCmd m))) := by
  have hkind : (hostCmd m).code = cCheckpoint := h.kind
  have hok : (s.taken m).cmdOk (hostCmd m) = true := by
    simp [State.cmdOk, h.body, hkind, cJobOpen, cRegionDrain, cRegionReset, cSelfTest, cCheckpoint, hf]
  exact congrArg Host.Outcome.next (State.command_of_accepted h ha (by decide) hok)

theorem State.command_restore (h : s.Takes m cRestore) (ha : s.accepts m) (hf : leAt m.payload 8 8 ≤ 3) :
    s.command m cRestore = State.ended m.queue ((s.begun m).startRestore m.queue (hostCmd m)) := by
  have hkind : (hostCmd m).code = cRestore := h.kind
  have hok : (s.taken m).cmdOk (hostCmd m) = true := by
    simp [State.cmdOk, h.body, hkind, cJobOpen, cRegionDrain, cRegionReset, cSelfTest, cCheckpoint, cRestore, hf]
  exact State.command_of_accepted h ha (by decide) hok

theorem exec_restore (h : s.Takes m cRestore) (ha : s.accepts m) (hf : leAt m.payload 8 8 ≤ 3) (hd : leAt m.payload 8 8 % 2 = 0) :
    exec (.restore m) s = .next (State.ended m.queue ((s.begun m).startRestore m.queue (hostCmd m))) := by
  have hflag : ¬flagged m 8 = true := by simp [flagged_eq m 8 7, hd]
  exact congrArg Host.Outcome.next ((if_neg hflag).trans (State.command_restore h ha hf))

theorem exec_restoreDryRun (h : s.Takes m cRestore) (ha : s.accepts m) (hf : leAt m.payload 8 8 ≤ 3)
    (hd : leAt m.payload 8 8 % 2 = 1) :
    exec (.restoreDryRun m) s = .next (State.ended m.queue ((s.begun m).startRestore m.queue (hostCmd m))) := by
  have hflag : flagged m 8 = true := by simp [flagged_eq m 8 7, hd]
  exact congrArg Host.Outcome.next ((if_pos hflag).trans (State.command_restore h ha hf))

theorem exec_jobClose (h : s.Takes m cJobClose) (ha : s.accepts m) :
    exec (.jobClose m) s = .next (State.ended m.queue ((s.begun m).startJobClose m.queue (hostCmd m))) :=
  congrArg Host.Outcome.next (State.command_of_accepted h ha (by decide) (h.cmdOk_of_not_mem (by decide)))

theorem exec_attest (h : s.Takes m cAttest) :
    exec (.attest m) s = .next (State.ended m.queue ((s.taken m).startAttest m.queue (hostCmd m))) :=
  congrArg Host.Outcome.next (State.command_attest h)

end

/-! ## What each command answers where nothing refuses it (R413, R414) -/

section
variable {s : State} {q : Nat} {c : Cmd}

theorem State.startJobOpen_opens (hf : leAt c.body 0 2 ≠ 0) (hm : s.mgt.manager ≠ none) (hj : s.job.isOpen = false)
    (hb : s.rflag .cfgMod 0 Reg.CFG_STATUS 4 = true) (hid : leAt c.body 0 2 = s.blend.job) (hl : s.loadBusy = false) :
    s.startJobOpen q c = (some (.ok, []), s.openJob (leAt c.body 8 8) ((c.body.drop 16).take 32)) := by
  simp [State.startJobOpen, hm, hj, hb, ← hid, hf, hl]

/-- The first step for which data may still be held: the one at hand, or the next where that one has started. -/
def State.firstFree (s : State) : Nat := if s.job.st = .running ∨ s.job.st = .stopped then s.job.step + 1 else s.job.step

theorem State.startStepData_holds (hj : s.job.isOpen = true) (hlo : s.firstFree ≤ leAt c.body 0 8)
    (hhi : leAt c.body 0 8 ≤ s.firstFree + 1) :
    s.startStepData q c = (some (.ok, []), { s with job := { s.job with
      data := (s.job.data.filter fun d => !decide (d.1 = leAt c.body 0 8)) ++ [(leAt c.body 0 8, leAt c.body 8 8)] } }) := by
  unfold State.firstFree at hlo hhi
  simp [State.startStepData, hj, Nat.not_lt.mpr hlo, Nat.not_lt.mpr hhi]

theorem State.startBlendLoad_partial (hp : leAt c.body 12 4 = 1) (hl : s.loadBusy = false) :
    let r := s.partialLoad (leAt c.body 0 8) (leAt c.body 8 4)
    s.startBlendLoad q c = (some (r.1, []), r.2) := by
  simp [State.startBlendLoad, hp, hl]

section
variable (hp : leAt c.body 12 4 = 0) (hj : s.job.isOpen = false) (hl : s.loadBusy = false)
include hp hj hl

theorem State.startBlendLoad_early (ht : s.topState = stBringup) :
    let r := s.earlyLoad q (leAt c.body 0 8) (leAt c.body 8 4)
    s.startBlendLoad q c = (r.1.map fun st => (st, []), r.2) := by
  simp [State.startBlendLoad, hp, hj, hl, ht]

theorem State.startBlendLoad_full (ht : s.topState ≠ stBringup)
    (ho : s.othersRun q (fun x => decide (x.code = cRegionDrain ∨ x.code = cRegionReset ∨ x.code = cSelfTest)) = false) :
    let r := s.fullLoad (leAt c.body 0 8) (leAt c.body 8 4)
    s.startBlendLoad q c = (some (r.1, []), r.2) := by
  simp only [State.startBlendLoad, hp, hj, hl, ht, ho]
  simp

end

theorem State.startCheckpoint_asks (hj : s.job.isOpen = true) :
    s.startCheckpoint q c = (none, s.askCkp [q] false (decide (leAt c.body 0 8 = 1))) := by
  simp [State.startCheckpoint, hj]

theorem State.startRestore_begins (hj : s.job.isOpen = false) (hb : s.blend.job ≠ 0) (hl : s.loadBusy = false)
    (hw : s.ckp.write = none) :
    s.startRestore q c = (none, s.beginRestore q (leAt c.body 0 8) (decide (leAt c.body 8 8 % 2 = 1))
      (decide (2 ≤ leAt c.body 8 8))) := by
  simp [State.startRestore, hj, hb, hl, hw]

theorem State.startJobClose_closes (hj : s.job.isOpen = true) (hid : leAt c.body 0 2 = s.job.id) :
    s.startJobClose q c = (none, State.settleClose { s with job := { s.job with closing := true, data := [] } }) := by
  simp [State.startJobClose, hj, hid]

/-- The address of a report: in SAFE the lowest of stack 0 (R473). -/
def State.reportAddr (s : State) (c : Cmd) : Nat := if s.topState = stSafe then 0 else leAt c.body 32 8

theorem State.startAttest_forms (hal : s.reportAddr c % 4096 = 0) (hp : populated (s.reportAddr c) 4096 = true)
    (hi : s.top.identityOk = true) :
    let w : State := { s with sec := { s.sec with reports := s.sec.reports + 1 } }
    s.startAttest q c = (none, { w with sec := { w.sec with
      attests := w.sec.attests ++ [(q, w.reportBody (c.body.take 32), s.reportAddr c)] } }) := by
  unfold State.reportAddr at *
  simp [State.startAttest, hal, hp, hi]

end

/-- Settles O31: a CMD that starts on arrival and is accepted is carried out by its row's own handler, and each clause is what that
handler answers where nothing refuses it. -/
theorem hostCommandsTakeEffect : Obligations.HostCommandsTakeEffect := by
  unfold Obligations.HostCommandsTakeEffect
  intro s m
  dsimp only
  refine ⟨fun h ha hf hm hj hi hb hid hl => ?jobOpen, fun h ha hj hlo hhi => ?stepData,
    fun h ha hp hj hl ht ho => ?loadFull, fun h ha hp hj hl ht => ?loadEarly, fun h ha hp hl => ?loadPartial,
    fun h ha hf hj => ?checkpoint, fun h ha hf hj hb hl hw => ⟨fun hd => ?restore, fun hd => ?dryRun⟩,
    fun h ha hj hid => ?jobClose, fun h hal hp hi => ?attest⟩
  case jobOpen => rw [exec_jobOpen h ha hf, State.startJobOpen_opens hi hm hj hb hid hl, State.ended_some, hostCmd_body]
  case stepData =>
    rw [exec_stepData h ha, State.startStepData_holds (c := hostCmd m) hj hlo hhi, State.ended_some, hostCmd_body]
  case loadFull => rw [exec_blendLoadFull h ha hp, State.startBlendLoad_full hp hj hl ht ho, State.ended_some, hostCmd_body]
  case loadEarly =>
    rw [exec_blendLoadFull h ha hp, State.startBlendLoad_early hp hj hl ht, hostCmd_body]
    cases ((s.begun m).earlyLoad m.queue (leAt m.payload 0 8) (leAt m.payload 8 4)).1 <;> rfl
  case loadPartial => rw [exec_blendLoadPartial h ha hp, State.startBlendLoad_partial hp hl, State.ended_some, hostCmd_body]
  case checkpoint => rw [exec_checkpoint h ha hf, State.startCheckpoint_asks hj, State.ended_none, hostCmd_body]
  case restore =>
    rw [exec_restore h ha hf hd, State.startRestore_begins hj hb hl hw, State.ended_none, hostCmd_body, hd]; rfl
  case dryRun =>
    rw [exec_restoreDryRun h ha hf hd, State.startRestore_begins hj hb hl hw, State.ended_none, hostCmd_body, hd]; rfl
  case jobClose => rw [exec_jobClose h ha, State.startJobClose_closes hj hid, State.ended_none]
  case attest =>
    rw [exec_attest h, State.startAttest_forms (c := hostCmd m) hal hp hi, State.ended_none, hostCmd_body]; rfl

end Sys2Proof.Machine

/-! # Reductions

O45: how contexts, groups and exchanges end, and what SAM_GRP_CMD and an exchange result do. -/

namespace Sys2Proof.Machine

/-! ## Limits (R286, R301, R307, R310) -/

theorem exec_ctxTimeout {s : State} {p k : Nat} {c : Ctx} (h : (s.sam p).ctxs[k]? = some c) (hh : c.held = false) :
    exec (.ctxTimeout p k) s = .next (State.ctxLate
      ((s.bump .samPort p Reg.SAM_CTX_TIMEOUTS 1).raise .samPort p Reg.SAM_EVENT 4) p { c with status := .timeout }) := by
  change execCtxTimeout p k s = _
  simp [execCtxTimeout, h, hh]

theorem exec_gs1RdoneTimeout {s : State} {p : Nat}
    (h : (s.sam p).retained.any (fun r => decide (r.format = 0xB) && !r.final) = true) (hr : s.job.st = .running) :
    exec (.gs1RdoneTimeout p) s = .next (s.stepFail csReduce lvRollback .timeout 0) :=
  congrArg Host.Outcome.next (if_pos ⟨h, hr⟩)

theorem exec_formLimitExpiry_group {s : State} {n : Nat} {g : Grp} (h : s.grp n = some g) (hf : g.st = .forming) :
    exec (.formLimitExpiry false n) s = .next
      ((s.setGrp n { g with st := .failed }).raise .samPort (s.groupHome g) Reg.SAM_EVENT 9).settleStreams := by
  change execFormLimitExpiry false n s = _
  simp [execFormLimitExpiry, h, hf]

theorem exec_formLimitExpiry_sip {s : State} {n : Nat} {g : SipGrp} (h : s.sipg n = some g) (hf : g.st = .forming) :
    exec (.formLimitExpiry true n) s = .next (s.setSipg n { g with st := .failed }).settleStreams := by
  change execFormLimitExpiry true n s = _
  simp [execFormLimitExpiry, h, hf]

/-! ## SAM_GRP_CMD (R309, R311) -/

theorem exec_groupReform {v : Word} (hsip : flag v 62 = false) (w : Writer) (s : State) :
    exec (.groupReform w v) s = .next (State.wrote (s.wrGrpCmd v)) := by
  change execGroupReform w v s = _
  simp [execGroupReform, hsip, State.wrote]

theorem exec_sipGroupReform {v : Word} (hsip : flag v 62 = true) (w : Writer) (s : State) :
    exec (.sipGroupReform w v) s = .next (State.wrote (s.wrGrpCmd v)) := by
  change execSipGroupReform w v s = _
  simp [execSipGroupReform, hsip, State.wrote]

section
variable {s : State} {v : Word} (hgo : flag v 63 = true)
include hgo

theorem State.wrGrpCmd_group {g : Grp} {x : Member} (hsip : flag v 62 = false) (hg : s.grp (fld v 47 40) = some g)
    (hj : g.cfg.job ≠ 0) (hx : g.cfg.members[fld v 31 16]? = some x) (hf : g.st ≠ .forming)
    (he : (s.epochKept (fld v 47 40) (fld v 55 48)).1 = false) :
    s.wrGrpCmd v = (.ok, ((s.epochKept (fld v 47 40) (fld v 55 48)).2.newEpoch (fld v 47 40) (fld v 55 48)
      (reformed g.cfg (fld v 31 16) (fld v 15 0))).memberReplaced x.rank (fld v 15 0)) := by
  have hmember : fld v 31 16 < g.cfg.members.length := (List.getElem?_eq_some_iff.mp hx).1
  simp [State.wrGrpCmd, hgo, hsip, hg, hx, he, hj, hf, Nat.not_le.mpr hmember, firstStatus]

theorem State.wrGrpCmd_sip {g : SipGrp} (hsip : flag v 62 = true) (hg : s.sipg (fld v 47 40) = some g)
    (hj : g.job ≠ 0) (hm : fld v 31 16 < g.cfg.modules) (hf : g.st ≠ .forming)
    (he : (s.epochKept (256 + fld v 47 40) (fld v 55 48)).1 = false) :
    s.wrGrpCmd v = (.ok, (s.epochKept (256 + fld v 47 40) (fld v 55 48)).2.sipNewEpoch (fld v 47 40) (fld v 55 48)) := by
  simp [State.wrGrpCmd, hgo, hsip, hg, he, hj, hf, Nat.not_le.mpr hm, firstStatus]

end

/-! ## The governor's exchange (R195, R196) -/

theorem exec_govExchangeResult_result {s : State} {x : Exchange} {k : Nat} {st : Status} {p : List (BitVec 32)}
    {rest : List (Nat × Status × List (BitVec 32))} (h : s.coll.exch = some x) (hx : x.results = (k, st, p) :: rest) :
    exec (.govExchangeResult false) s = .next (State.exchangeEnd
      { s with coll := { s.coll with exch := some { x with results := rest } } } k st p).settleStreams := by
  change execGovExchangeResult false s = _
  simp [execGovExchangeResult, h, hx]

theorem exec_govExchangeResult_timeout {s : State} {x : Exchange} (h : s.coll.exch = some x) (hr : s.job.st = .running)
    (hopen : x.open_ ≠ [] ∨ x.next < 2 * s.layers) :
    exec (.govExchangeResult true) s = .next (s.exchangeFail .timeout).settleStreams := by
  change execGovExchangeResult true s = _
  simp [execGovExchangeResult, h, hr, hopen]

/-- Settles O45: each clause is its row under the clause's conditions; both rows of SAM_GRP_CMD are one write of that register, to a
reduction group or to a Sip group. -/
theorem reductionsEnd : Obligations.ReductionsEnd := by
  unfold Obligations.ReductionsEnd
  refine ⟨fun s p k c h hh => exec_ctxTimeout h hh, fun s p h hr => exec_gs1RdoneTimeout h hr,
    fun s n g h hf => exec_formLimitExpiry_group h hf, fun s n g h hf => exec_formLimitExpiry_sip h hf,
    fun s w v g x hgo hsip hg hj hx hf he => ?group, fun s w v g hgo hsip hg hj hm hf he => ?sip,
    fun s x k st p rest h hx => exec_govExchangeResult_result h hx,
    fun s x h hr hopen => exec_govExchangeResult_timeout h hr hopen⟩
  case group => rw [exec_groupReform hsip, State.wrGrpCmd_group hgo hsip hg hj hx hf he, State.wrote]
  case sip => rw [exec_sipGroupReform hsip, State.wrGrpCmd_sip hgo hsip hg hj hm hf he, State.wrote]

end Sys2Proof.Machine

/-! # Messages of the stream fabric

O42: what R349 does with a message that none of its rows stops, and what each message row does then. -/

namespace Sys2Proof.Machine

section
variable {s : State} {p : Nat} {m : Msg} {t : Nat}

theorem State.rxState_of_active (h : s.portState p = psActive) : s.rxState p = psActive := by
  simp [State.rxState, h, psActive, psFast]

/-- The check of R349's job rows: a message heard is of the port's job, or of none and of a type that needs none. -/
theorem State.PortHears.not_foreign (h : s.PortHears p m t) :
    ¬ ((m.job.toNat ≠ s.portJob p ∧ m.job ≠ 0) ∨ (m.job = 0 ∧ ¬ baseType t = true)) := by
  have hjob := h.job
  split at hjob <;> tauto

/-- The check of R348 and of the topology: a message heard is one that the role and the partner let through. -/
theorem State.PortHears.not_denied (h : s.PortHears p m t) :
    ¬ (¬ roleAllows (s.portRole p) t = true ∨ (¬ s.topoMatch p = true ∧ ¬ baseType t = true ∧ t ≠ mCpl)) := by
  have htopo := h.topo
  have hrole := h.role
  tauto

theorem State.PortHears.not_misrouted (h : s.PortHears p m t) :
    ¬ (m.dst.toNat ≠ s.rfield .lnkPort p Reg.LNK_ROLE 47 32 ∧ ¬ rankFree t = true) := by
  have hrank := h.rank
  tauto

/-- A message heard passes every row of R349. -/
theorem State.PortHears.arrive (h : s.PortHears p m t) (handle : State → State) : s.arrive p m handle = handle s := by
  have hlink : ¬ (psActive = psLinkUp ∨ psActive = psNoVersion ∨ psActive = psRoleMismatch) := by decide
  unfold State.arrive
  simp only [State.rxState_of_active h.active, h.kind, ← baseType.eq_1]
  rw [if_neg hlink, if_neg (not_not_intro rfl), if_neg (not_not_intro h.good), if_neg h.not_foreign, if_neg h.not_denied,
    if_neg h.not_misrouted]

/-- A message row of the type of a message heard runs its handler. -/
theorem State.PortHears.message (h : s.PortHears p m t) (handle : State → State) :
    s.message p m [t] handle = (handle s).settleStreams := by
  simp [State.message, h.port, h.kind, h.arrive]

/-- A BCOPY of blocks to hold. -/
theorem exec_bcopy (h : s.PortHears p m mBcopy) (hh : showsHandover m = false) :
    exec (.bcopy p m) s = .next (s.holdIn p m).settleStreams := by
  change execBcopy p m s = _
  simp [execBcopy, hh, h.message]

/-- A BCOPY of a handover. -/
theorem exec_bcopyHandover (h : s.PortHears p m mBcopy) (hh : showsHandover m = true) :
    exec (.bcopyHandover p m) s = .next (s.handIn p m).settleStreams := by
  change execBcopyHandover p m s = _
  simp [execBcopyHandover, hh, h.message]

theorem exec_cplReceive (h : s.PortHears p m mCpl) :
    exec (.cplReceive p m) s = .next ((s.cplIn p m).settleStreams.flushErr).settleStreams := by
  change execCplReceive p m s = _
  rw [execCplReceive, h.message]

theorem exec_back (h : s.PortHears p m mBack) :
    exec (.back p m) s = .next ((s.backIn p m).settleStreams.flushErr).settleStreams := by
  change execBack p m s = _
  rw [execBack, h.message]

end

/-- Settles O42: each row is its handler behind the checks of R349, which a message that is heard passes. -/
theorem streamMessagesAreHandled : Obligations.StreamMessagesAreHandled := by
  unfold Obligations.StreamMessagesAreHandled
  exact fun s p m =>
    ⟨fun h => congrArg Host.Outcome.next (h.message fun s => s.wdataIn p m),
    fun h => congrArg Host.Outcome.next (h.message fun s => s.wpushIn p m),
    fun h => congrArg Host.Outcome.next (h.message fun s => s.wackIn p m),
    fun h => congrArg Host.Outcome.next (h.message fun s => s.rchunkIn p m),
    fun h => congrArg Host.Outcome.next (h.message fun s => s.rresendIn p m),
    fun h => congrArg Host.Outcome.next (h.message fun s => s.rdoneIn p m),
    fun h => congrArg Host.Outcome.next (h.message fun s => s.gformIn p m),
    fun h => congrArg Host.Outcome.next (h.message fun s => s.helloIn p m),
    fun h => congrArg Host.Outcome.next (h.message fun s => s.jfenceIn p m),
    fun h => congrArg Host.Outcome.next (h.message fun s => s.fenceAnswered p m),
    exec_bcopy, exec_bcopyHandover, exec_cplReceive, exec_back⟩

end Sys2Proof.Machine

/-! # Weight streaming

O44: what the rows of the Infusers and of weight versions do: acceptance, fetches, deliveries, pushes and staging. -/

namespace Sys2Proof.Machine

/-! ## Infusers -/

@[simp] theorem State.inf_setInf_self (s : State) (p : Nat) (x : Inf) : (s.setInf p x).inf p = x := Smap.get_set_self ..

theorem State.inf_setInf_ne (s : State) {p q : Nat} (h : q ≠ p) (x : Inf) : (s.setInf p x).inf q = s.inf q :=
  Smap.get_set_ne _ _ _ _ _ _ h

theorem State.inf_of_calm {s t : State} (h : t.calm = s.calm) (q : Nat) : t.inf q = s.inf q := by
  simp only [State.calm, Prod.mk.injEq] at h
  simp only [State.inf, h]

/-! ## An event bit and a count of an Infuser -/

/-- A word in which bit `n` has been set has it set. -/
theorem flag_setFld_one (w : Word) {n : Nat} (h : n < 64) : flag (setFld w n n 1) n = true := by
  have hsum : w.toNat / 2 ^ (n + 1) * 2 ^ (n + 1) + 2 ^ n + w.toNat % 2 ^ n =
      2 ^ n * (2 * (w.toNat / 2 ^ (n + 1)) + 1) + w.toNat % 2 ^ n := by ring
  have hlow : w.toNat % 2 ^ n < 2 ^ n := Nat.mod_lt _ (Nat.two_pow_pos n)
  have hone : (1 % 2 ^ (n + 1 - n)) <<< n = 2 ^ n := by simp [Nat.shiftLeft_eq]
  rw [flag, setFld, BitVec.toNat_ofNat, Nat.testBit_mod_two_pow, hone, Nat.shiftRight_eq_div_pow, Nat.shiftLeft_eq, hsum,
    Nat.testBit_two_pow_mul_add _ hlow]
  simp [h]

/-- The registers of an Infuser lie past those of every module-level block. -/
theorem blockBase_infPort_ge (p : Nat) : 0x200100000000 ≤ blockBase .infPort p := by
  simp only [blockBase, dieWin]; omega

theorem infPort_ne_trcMod (p o : Nat) {o' : Nat} (h : o' < 0x100000) : blockBase .infPort p + o ≠ blockBase .trcMod 0 + o' := by
  have hport := blockBase_infPort_ge p
  have htrace : blockBase .trcMod 0 = 0x200001400000 := by decide
  omega

theorem infPort_ne_infMod (p o : Nat) : blockBase .infPort p + o ≠ blockBase RBlk.infPort.mod 0 + o := by
  have hport := blockBase_infPort_ge p
  have hmod : blockBase RBlk.infPort.mod 0 = 0x200000d00000 := by decide
  omega

/-- A count of an Infuser goes up in its own register by as much as in the module's. -/
theorem State.peek_bump_infPort (s : State) (p o n : Nat) :
    (s.bump .infPort p o n).peek .infPort p o = s.peek .infPort p o + BitVec.ofNat 64 n := by
  have hb : RBlk.infPort.mod ≠ .infPort := by decide
  rw [State.bump, if_neg hb, State.peek_add_ne _ (infPort_ne_infMod p o), State.peek_add_self]

/-- An event of an Infuser that is raised is latched. -/
theorem State.rflag_raise_infPort (s : State) (p o : Nat) {n : Nat} (h : n < 64) :
    (s.raise .infPort p o n).rflag .infPort p o n = true := by
  unfold State.raise
  split
  · next hset => exact hset
  · rw [State.rflag, State.peek_trace_ne _ (infPort_ne_trcMod _ _ (by decide)) (infPort_ne_trcMod _ _ (by decide)), State.rbit,
      State.rset, State.peek_poke_self]
    exact flag_setFld_one _ h

/-- An event of an Infuser changes none of its other registers. -/
theorem State.peek_raise_infPort (s : State) (p n : Nat) {o o' : Nat} (h : o' ≠ o) :
    (s.raise .infPort p o n).peek .infPort p o' = s.peek .infPort p o' :=
  State.peek_raise_ne _ (by omega) (infPort_ne_trcMod _ _ (by decide)) (infPort_ne_trcMod _ _ (by decide)) n

/-! ## A push that is dropped (R265) -/

theorem State.rflag_dropPush (s : State) (p : Nat) : (s.dropPush p).rflag .infPort p Reg.INF_EVENT 7 = true :=
  State.rflag_raise_infPort _ _ _ (by decide)

theorem State.peek_dropPush (s : State) (p : Nat) :
    (s.dropPush p).peek .infPort p Reg.INF_PUSH_DROPS = s.peek .infPort p Reg.INF_PUSH_DROPS + 1 :=
  (State.peek_raise_infPort _ _ _ (by decide)).trans (State.peek_bump_infPort ..)

/-! ## WREQ_ACCEPT (R258) -/

@[simp] theorem State.manifestOf_setInf (s : State) (p : Nat) (x : Inf) (v : Nat) : (s.setInf p x).manifestOf v = s.manifestOf v :=
  rfl

section
variable {s : State} {p v : Nat} {q : InfReq} {rest : List InfReq} (hp : p < 16) (hw : (s.inf p).waiting = q :: rest)
  (hv : s.wts.active = some v) (hd : s.decisionDue = false) (hr : (s.inf p).reqs.length < 16)
include hp hw hv hd hr

/-- A WREQ of a layer that the manifest has not, or of which it has too few chunks. -/
theorem exec_wreqAccept_malformed (he : ∀ r, ((s.manifestOf v).bind fun m => m.entryFor q.strm.layer q.strm.colForm) = some r →
      r.count < q.strm.chunkFirst + q.strm.chunkCount) :
    exec (.wreqAccept p) s =
      .next ((s.setInf p { s.inf p with waiting := rest }).retire q.core 3 .malformed false).settleStreams := by
  change execWreqAccept p s = _
  cases hentry : (s.manifestOf v).bind fun m => m.entryFor q.strm.layer q.strm.colForm with
  | none => simp [execWreqAccept, State.acceptWreq, Nat.not_le.mpr hp, Nat.not_le.mpr hr, hw, hv, hd, hentry]
  | some r => simp [execWreqAccept, State.acceptWreq, Nat.not_le.mpr hp, Nat.not_le.mpr hr, hw, hv, hd, hentry, he r hentry]

theorem exec_wreqAccept {r : LayerRec}
    (he : ((s.manifestOf v).bind fun m => m.entryFor q.strm.layer q.strm.colForm) = some r)
    (hc : q.strm.chunkFirst + q.strm.chunkCount ≤ r.count) :
    let u := s.setInf p { s.inf p with waiting := rest }
    exec (.wreqAccept p) s =
      .next ((u.setInf p { u.inf p with reqs := (u.inf p).reqs ++ [{ q with version := v, entry := r }] }).retire q.core 3 .ok
        false).settleStreams := by
  change execWreqAccept p s = _
  simp [execWreqAccept, State.acceptWreq, Nat.not_le.mpr hp, Nat.not_le.mpr hr, hw, hv, hd, he, Nat.not_lt.mpr hc]

end

/-! ## Fetches and deliveries (R259, R260) -/

section
variable {s : State} {p : Nat} (hp : p < 16)
include hp

/-- With no chunk to ask for again and no index wanted, a request that has lead and room left asks for its next chunk. -/
theorem exec_wget {q : InfReq} (ht : (s.inf p).chunks.filter (·.tagless) = []) (hi : (s.inf p).indexWanted = [])
    (ha : (s.inf p).asking = some q) (hl : q.asked < q.done + q.strm.lead) (hroom : (s.inf p).places < 256) :
    exec (.wget p) s = .next ((s.setReq p { q with asked := q.asked + 1 }).begin_ p
      (q.chunk (.chunk (q.strm.chunkFirst + q.asked)))).settleStreams := by
  change execWget p s = _
  simp only [execWget, State.wget, ht, hi, ha, List.foldl_nil, Nat.not_le.mpr hp, Nat.not_le.mpr hl, Nat.not_le.mpr hroom, or_self,
    if_false]

theorem exec_chunkDeliver (fails : List (Nat × Nat)) :
    exec (.chunkDeliver ⟨p, fails⟩) s = .next (s.deliverNext p fails).settleStreams :=
  congrArg Host.Outcome.next (if_neg (Nat.not_le.mpr hp))

theorem exec_attemptTimeout {tag : Nat} (ht : s.tagUse p tag = some .infuser) (hn : s.pubOfTag p tag = none) :
    exec (.attemptTimeout p tag) s = .next ((s.holdTag p tag).fetchFailed p tag true).settleStreams := by
  change execAttemptTimeout p tag s = _
  simp [execAttemptTimeout, hp, ht, hn]

theorem exec_followTimeout {c : InfChunk} (h : (s.inf p).chunks.find? (·.follow) = some c) :
    exec (.followTimeout p) s = .next (s.nextAttempt p { c with follow := false }).settleStreams := by
  change execFollowTimeout p s = _
  simp only [execFollowTimeout, Nat.not_le.mpr hp, h, if_false]

theorem exec_pushHoldExpiry {x : HeldPush} {rest : List HeldPush} (h : (s.inf p).pushes = x :: rest) :
    exec (.pushHoldExpiry p) s = .next ((s.setInf p { s.inf p with pushes := rest }).dropPush p) := by
  change execPushHoldExpiry p s = _
  simp only [execPushHoldExpiry, Nat.not_le.mpr hp, h, if_false]

end

theorem State.deliverNext_none {s : State} {p : Nat} (h : s.nextDelivery p = none) (fails : List (Nat × Nat)) :
    s.deliverNext p fails = s := by
  rw [State.deliverNext, h]

theorem exec_wpubTimeout {s : State} {p tag : Nat} {w : Wpub} (h : s.pubOfTag p tag = some w) :
    exec (.wpubTimeout p tag) s = .next ((s.holdTag p tag).pushPub { w with tag := none }).settleStreams := by
  change execWpubTimeout p tag s = _
  rw [execWpubTimeout, h]

/-! ## Staging (R268, R269, R273) -/

section
variable {s : State} {v : Word}

theorem exec_stageVersion (hc : flag v 32 = false) (w : Writer) :
    exec (.stageVersion w v) s = .next (State.wrote (s.wrStage v)) := by
  change execStageVersion w v s = _
  simp [execStageVersion, hc, State.wrote]

theorem exec_stageCancel (hc : flag v 32 = true) (w : Writer) :
    exec (.stageCancel w v) s = .next (State.wrote (s.wrStage v)) := by
  change execStageCancel w v s = _
  simp [execStageCancel, hc, State.wrote]

theorem State.wrStage_active (hc : flag v 32 = false) (h : s.wts.active = some (fld v 31 0)) : s.wrStage v = (.denied, s) := by
  simp [State.wrStage, hc, h]

theorem State.wrStage_version (hc : flag v 32 = false) (h : s.wts.active ≠ some (fld v 31 0)) :
    s.wrStage v = (.ok, ((s.dropMan false).setStage 1 0 (fld v 31 0) []).startMan (fld v 31 0) false) := by
  simp [State.wrStage, hc, h]

theorem State.wrStage_cancel (hc : flag v 32 = true) : s.wrStage v = (.ok, (s.dropMan false).setStage 0 0 s.stagedVersion []) := by
  simp [State.wrStage, hc]

theorem exec_stageLimitExpiry_pending (hw : s.wts.waitFrom ≠ none) (h : s.stageState = 1) :
    exec .stageLimitExpiry s = .next
      (((((s.dropMan false).setStage 3 5 s.stagedVersion []).stageEvent 2).stageEvent 3).failWaiting.settleStreams) := by
  change execStageLimitExpiry s = _
  simp [execStageLimitExpiry, hw, h]

theorem exec_stageLimitExpiry_noVersion (hw : s.wts.waitFrom ≠ none) (h : s.stageState = 0) (ha : s.wts.active = none) :
    exec .stageLimitExpiry s = .next ((s.stageEvent 3).failWaiting.settleStreams) := by
  change execStageLimitExpiry s = _
  simp [execStageLimitExpiry, hw, h, ha]

end

/-- Settles O44: each clause is its row under the clause's conditions; what a dropped push counts and raises reaches only registers. -/
theorem weightServiceTakesEffect : Obligations.WeightServiceTakesEffect := by
  unfold Obligations.WeightServiceTakesEffect
  refine ⟨fun s p v q rest hp hw hv hd hr => ⟨fun hnone => ?noLayer, fun r he hc => ?noChunks,
      fun r he hc => exec_wreqAccept hp hw hv hd hr he hc⟩,
    fun s p q hp ht hi ha hl hroom => exec_wget hp ht hi ha hl hroom,
    fun s p fails hp => ⟨fun _ => exec_chunkDeliver hp fails, fun hn => ?nothingNext⟩,
    fun s p tag hp ht hn => exec_attemptTimeout hp ht hn,
    fun s p tag w h => exec_wpubTimeout h,
    fun s p c hp h => exec_followTimeout hp h,
    fun s w v hc h => ?stage, fun s w v hc h => ?stageActive, fun s w v hc => ?cancel,
    fun s => rfl,
    fun s hw h => exec_stageLimitExpiry_pending hw h,
    fun s hw h ha => exec_stageLimitExpiry_noVersion hw h ha,
    fun s p x rest hp h => ⟨_, exec_pushHoldExpiry hp h, ?own, fun q hq => ?others, ?mem, ?cores, State.rflag_dropPush .., ?drops⟩⟩
  case noLayer => exact exec_wreqAccept_malformed hp hw hv hd hr fun r he => nomatch hnone.symm.trans he
  case noChunks => exact exec_wreqAccept_malformed hp hw hv hd hr fun r' he' => Option.some.inj (he.symm.trans he') ▸ hc
  case nothingNext => rw [exec_chunkDeliver hp, State.deliverNext_none hn]
  case stage => rw [exec_stageVersion hc, State.wrStage_version hc h, State.wrote]
  case stageActive => rw [exec_stageVersion hc, State.wrStage_active hc h, State.wrote]
  case cancel => rw [exec_stageCancel hc, State.wrStage_cancel hc, State.wrote]
  case own => rw [State.inf_of_calm (State.dropPush_calm ..), State.inf_setInf_self]
  case others => rw [State.inf_of_calm (State.dropPush_calm ..), State.inf_setInf_ne _ hq]
  case mem => exact (State.mem_of_calm (State.dropPush_calm ..)).trans rfl
  case cores => exact (State.cores_of_calm (State.dropPush_calm ..)).trans rfl
  case drops => exact State.peek_dropPush ..

end Sys2Proof.Machine

/-! # The Sip path

O46: how a Sip port comes up and goes down, and what it does with the flits that arrive on it. -/

namespace Sys2Proof.Machine

/-! ## The bytes of a flit (R358) -/

@[simp] theorem length_leBytes (n v : Nat) : (leBytes n v).length = n := by
  induction n generalizing v with
  | zero => rfl
  | succ n ih => simp [leBytes, ih]

theorem ofLe_leBytes (n v : Nat) : ofLe (leBytes n v) = v % 256 ^ n := by
  induction n generalizing v with
  | zero => simp [leBytes, ofLe, Nat.mod_one]
  | succ n ih => rw [leBytes, ofLe, ih, Nat.pow_succ', Nat.mod_mul, BitVec.toNat_ofNat]

@[simp] theorem length_padTo (n : Nat) (bs : List Byte) : (padTo n bs).length = n := by
  simp [padTo, zeros]; omega

/-- A flit closed with its CRC-32C holds. -/
theorem sipOk_sipClose (bs : List Byte) : sipOk (sipClose bs) = true := by
  have hcrc : (crc32c (padTo 60 bs)).toNat < 2 ^ 32 := (crc32c (padTo 60 bs)).isLt
  simpa [sipOk, sipClose, leAt, List.take_of_length_le, ofLe_leBytes] using hcrc

/-- A flit is a control flit of one kind at most. -/
theorem sipIs_iff (kind : Nat) (f : FlitBytes) :
    sipIs kind f = true ↔ sipOk f = true ∧ leAt f 0 2 = 0 ∧ sipKind f = kind := by
  simp [sipIs, and_assoc]

theorem sipOk_sipIdleFlit : sipOk sipIdleFlit = true := sipOk_sipClose _
theorem sipIdleFlit_job : leAt sipIdleFlit 0 2 = 0 := by decide
theorem sipKind_sipIdleFlit : sipKind sipIdleFlit = 0 := by decide
theorem sipControlClean_sipIdleFlit : sipControlClean sipIdleFlit = true := by
  simp [sipControlClean, sipKind_sipIdleFlit]

/-! ## Ports through reports -/

theorem State.port_of_calm {s t : State} (h : t.calm = s.calm) (q : Nat) : t.port q = s.port q := by
  simp only [State.calm, Prod.mk.injEq] at h
  simp only [State.port, h]

/-! ## Slots (R358, R360) -/

@[simp] theorem State.port_sendSlot_self (s : State) (p : Nat) (b : FlitBytes) :
    (s.sendSlot p b).port p = { s.port p with sipSlot := s.sipNext p + 1 } := by
  simp [State.sendSlot]

theorem State.port_sendSlot_ne (s : State) {p q : Nat} (h : q ≠ p) (b : FlitBytes) : (s.sendSlot p b).port q = s.port q := by
  simp [State.sendSlot, State.port_setPort_ne _ h]

/-- What is sent in a slot goes last. -/
theorem State.out_sendSlot (s : State) (p : Nat) (b : FlitBytes) :
    (s.sendSlot p b).out.getLast? = some (.sip p (s.sipNext p % 256) b) := by
  simp [State.sendSlot, State.send]

/-- The next slot of a port turns on what the port has sent, since when it is up, and the time. -/
theorem State.sipNext_eq {s t : State} {p : Nat} (hslot : (t.port p).sipSlot = (s.port p).sipSlot)
    (hup : (t.port p).sipUpAt = (s.port p).sipUpAt) (htime : t.tim = s.tim) : t.sipNext p = s.sipNext p := by
  simp only [State.sipNext, State.now, hslot, hup, htime]

/-! ## A flit that arrives (R312, R358, R359, R360) -/

section
variable {s : State} {p slot faults : Nat} {f : FlitBytes}

/-- A flit that fails is asked for again. -/
theorem State.sipSlotIn_fails (hf : sipOk f = false) : s.sipSlotIn p slot f faults =
    ((((s.check cSip 1 1 0 0).bump .lnkPort p Reg.LNK_SIP_CRC_FAILS 1).setPort p
      { s.port p with sipNakWait := (s.port p).sipNakWait + 1 }).sendSlot p (sipNakFlit slot)) :=
  if_pos (Bool.eq_false_iff.mp hf)

/-- A flit that holds and is no control flit. -/
theorem State.sipSlotIn_reduction (hf : sipOk f = true) (hj : leAt f 0 2 ≠ 0) :
    let x := s.port p
    let u := (s.check cSip 1 0 (b2n (decide (0 < x.sipNakWait))) 0).setPort p { x with sipNakWait := x.sipNakWait - 1 }
    let g := if sipClean f then sipOf f else { sipOf f with status := (sipOf f).status.join .malformed }
    s.sipSlotIn p slot f faults = ((u.bump .lnkPort p Reg.LNK_SIP_FLITS_RX 1).sipFlitIn p g faults).settleStreams :=
  (if_neg (not_not_intro hf)).trans (if_neg hj)

section
variable (hf : sipOk f = true) (hj : leAt f 0 2 = 0)
include hf hj

/-- A control flit that is not as R359 gives it. -/
theorem State.sipSlotIn_unclean (hc : sipControlClean f = false) : s.sipSlotIn p slot f faults =
    ((s.check cSip 1 0 0 0).bump .lnkPort p Reg.LNK_MALFORMED 1).raise .lnkPort p Reg.LNK_EVENT 11 :=
  (if_neg (not_not_intro hf)).trans ((if_pos hj).trans (if_pos (Bool.eq_false_iff.mp hc)))

variable (hc : sipControlClean f = true)
include hc

/-- A control flit that is as R359 gives it does what its kind says. -/
theorem State.sipSlotIn_clean : s.sipSlotIn p slot f faults =
    let v := s.check cSip 1 0 0 0
    if sipKind f = 1 then v.sipNakIn p (leAt f 3 1)
    else if sipKind f = 2 then v.setPort p { s.port p with sipPartner := leAt f 4 2 + 65536 * bitsAt f 6 3 0 }
    else v :=
  (if_neg (not_not_intro hf)).trans ((if_pos hj).trans (if_neg (not_not_intro hc)))

theorem State.sipSlotIn_nak (hk : sipKind f = 1) :
    s.sipSlotIn p slot f faults = (s.check cSip 1 0 0 0).sipNakIn p (leAt f 3 1) :=
  (State.sipSlotIn_clean hf hj hc).trans (if_pos hk)

theorem State.sipSlotIn_hello (hk : sipKind f = 2) : s.sipSlotIn p slot f faults =
    (s.check cSip 1 0 0 0).setPort p { s.port p with sipPartner := leAt f 4 2 + 65536 * bitsAt f 6 3 0 } := by
  simp [State.sipSlotIn_clean hf hj hc, hk]

theorem State.sipSlotIn_idle (hk : sipKind f = 0) : s.sipSlotIn p slot f faults = s.check cSip 1 0 0 0 := by
  simp [State.sipSlotIn_clean hf hj hc, hk]

end

/-! ### The rows -/

section
variable (hp : p < 16) (hup : s.sipUp p = true)
include hp hup

theorem exec_sipFlitReceive (hnak : ¬ sipIs 1 f = true) (hhello : ¬ sipIs 2 f = true) :
    exec (.sipFlitReceive p slot f faults) s = .next (s.sipSlotIn p slot f faults) := by
  change execSipFlitReceive p slot f faults s = _
  simp [execSipFlitReceive, Nat.not_le.mpr hp, hup, hnak, hhello]

theorem exec_sipFlitReceive_fails (hf : sipOk f = false) : exec (.sipFlitReceive p slot f faults) s =
    .next (((s.check cSip 1 1 0 0).bump .lnkPort p Reg.LNK_SIP_CRC_FAILS 1).setPort p
      { s.port p with sipNakWait := (s.port p).sipNakWait + 1 } |>.sendSlot p (sipNakFlit slot)) := by
  have hnone : ∀ kind, ¬ sipIs kind f = true := fun kind hk => Bool.eq_false_iff.mp hf ((sipIs_iff kind f).mp hk).1
  rw [exec_sipFlitReceive hp hup (hnone 1) (hnone 2), State.sipSlotIn_fails hf]

theorem exec_sipFlitReceive_reduction (hf : sipOk f = true) (hj : leAt f 0 2 ≠ 0) :
    let x := s.port p
    let u := (s.check cSip 1 0 (b2n (decide (0 < x.sipNakWait))) 0).setPort p { x with sipNakWait := x.sipNakWait - 1 }
    let g := if sipClean f then sipOf f else { sipOf f with status := (sipOf f).status.join .malformed }
    exec (.sipFlitReceive p slot f faults) s =
      .next ((u.bump .lnkPort p Reg.LNK_SIP_FLITS_RX 1).sipFlitIn p g faults).settleStreams := by
  have hnone : ∀ kind, ¬ sipIs kind f = true := fun kind hk => hj ((sipIs_iff kind f).mp hk).2.1
  rw [exec_sipFlitReceive hp hup (hnone 1) (hnone 2), State.sipSlotIn_reduction hf hj]

theorem exec_sipFlitReceive_idle : exec (.sipFlitReceive p slot sipIdleFlit faults) s = .next (s.check cSip 1 0 0 0) := by
  have hzero : ∀ kind, sipIs kind sipIdleFlit = true → kind = 0 := fun kind hk =>
    ((sipIs_iff kind _).mp hk).2.2.symm.trans sipKind_sipIdleFlit
  rw [exec_sipFlitReceive hp hup (fun hk => nomatch hzero 1 hk) (fun hk => nomatch hzero 2 hk),
    State.sipSlotIn_idle sipOk_sipIdleFlit sipIdleFlit_job sipControlClean_sipIdleFlit sipKind_sipIdleFlit]

theorem exec_siphello (hk : sipIs 2 f = true) : exec (.siphello p slot f) s = .next (s.sipSlotIn p slot f 0) := by
  change execSiphello p slot f s = _
  simp [execSiphello, Nat.not_le.mpr hp, hup, hk]

theorem exec_sipNak (hk : sipIs 1 f = true) : exec (.sipNak p ⟨slot, f⟩) s = .next (s.sipSlotIn p slot f 0) := by
  change execSipNak p ⟨slot, f⟩ s = _
  simp [execSipNak, Nat.not_le.mpr hp, hup, hk]

end

/-! ### NAK of a slot that is kept (R360) -/

section
variable {k n : Nat} {g : SipFlit}
  (hkept : (s.port p).sipSent.find? (fun e => decide (e.1 % 256 = slot ∧ s.sipNext p ≤ e.1 + 64)) = some (k, g))
  (hn : Smap.get 0 (s.port p).sipNaks k + 1 = n)
include hkept hn

theorem State.sipNakIn_again (h : n < 4) :
    let x := s.port p
    let u := s.setPort p { x with sipSent := Smap.del x.sipSent k, sipNaks := Smap.del x.sipNaks k }
    s.sipNakIn p slot = (u.sendSip p g n).bump .lnkPort p Reg.LNK_SIP_NAKS 1 := by
  subst hn
  simp only [State.sipNakIn, hkept, h, if_true]

theorem State.sipNakIn_fourth (h : 4 ≤ n) :
    let x := s.port p
    let u := s.setPort p { x with sipSent := Smap.del x.sipSent k, sipNaks := Smap.del x.sipNaks k }
    s.sipNakIn p slot = ((u.check cSip 0 0 0 1).raise .lnkPort p Reg.LNK_EVENT 13).sipGoesDown p := by
  subst hn
  simp only [State.sipNakIn, hkept, Nat.not_lt.mpr h, if_false]

end
end

/-! ## A port that comes up (R358, R359, R440) -/

theorem exec_sipTrainComplete {s : State} {p : Nat} (hp : p < 16) (hn : s.sipNamed p = true) (hup : s.sipUp p = false)
    (hclk : s.tim.refclk = true) (hrail : (s.die (portDie p)).edgeReady = true) :
    let u := s.setPort p { s.port p with
      sipSlot := 0, sipUpAt := s.now, sipSent := [], sipNaks := [], sipNakWait := 0, sipPartner := 0 }
    let v := (u.rbit .lnkPort p Reg.LNK_STATUS 11 true).sendSlot p (sipHelloFlit s.blend.rank p)
    exec (.sipTrainComplete p) s = .next (v.funcReady 5 p .ok).settleStreams := by
  refine congrArg Host.Outcome.next (if_neg ?trains)
  case trains => simp [Nat.not_le.mpr hp, hn, hup, hclk, hrail]

/-! ## A port that goes down (R358) -/

/-- A word in which bit `n` has been cleared has it clear. -/
theorem flag_setFld_zero (w : Word) (n : Nat) : flag (setFld w n n 0) n = false := by
  have hlow : w.toNat % 2 ^ n < 2 ^ n := Nat.mod_lt _ (Nat.two_pow_pos n)
  have hlow' : w.toNat % 2 ^ n < 2 ^ (n + 1) := hlow.trans (Nat.pow_lt_pow_succ Nat.one_lt_two)
  rw [flag, setFld, BitVec.toNat_ofNat, Nat.testBit_mod_two_pow, Nat.zero_mod, Nat.zero_shiftLeft, Nat.add_zero, Nat.shiftLeft_eq,
    Nat.mul_comm, Nat.testBit_two_pow_mul_add _ hlow', if_pos (Nat.lt_succ_self n), Nat.testBit_lt_two_pow hlow, Bool.and_false]

section
variable {s : State} {p : Nat} (hup : s.sipUp p = true)
include hup

/-- What a port that goes down had sent and waited for is gone. -/
theorem State.port_sipGoesDown_self :
    (s.sipGoesDown p).port p = { s.port p with sipSent := [], sipNaks := [], sipNakWait := 0 } := by
  rw [State.sipGoesDown, if_neg (not_not_intro hup), State.port_setPort_self]

theorem State.port_sipGoesDown_ne {q : Nat} (h : q ≠ p) : (s.sipGoesDown p).port q = s.port q := by
  rw [State.sipGoesDown, if_neg (not_not_intro hup), State.port_setPort_ne _ h, State.port_of_calm (State.raise_calm ..),
    State.port_rbit]
  split
  · rfl
  · exact State.port_check ..

theorem State.sipUp_sipGoesDown : (s.sipGoesDown p).sipUp p = false := by
  rw [State.sipGoesDown, if_neg (not_not_intro hup), State.sipUp, State.rflag, State.peek_setPort,
    State.peek_raise_ne _ (by simp) (lnkPort_ne_trcMod _ _ (by decide)) (lnkPort_ne_trcMod _ _ (by decide)), State.rbit,
    State.rset, State.peek_poke_self]
  exact flag_setFld_zero _ 11

end

theorem exec_sipLaneLoss {s : State} {p : Nat} (hp : p < 16) : exec (.sipLaneLoss p) s = .next (s.sipGoesDown p) :=
  congrArg Host.Outcome.next (if_neg (Nat.not_le.mpr hp))

/-! ## A combine that lasts too long (R315) -/

/-- A combine is at the unit of port `p`. -/
def State.combineAt (s : State) (p : Nat) (c : Combine) : Bool :=
  match s.sipg c.group with
  | some g => decide (g.cfg.unit = p)
  | none => false

theorem exec_sipCombineTimeout {s : State} {p : Nat} {c : Combine} (h : s.coll.combines.find? (s.combineAt p) = some c) :
    let u : State := { s with coll := { s.coll with combines := s.coll.combines.erase c } }
    exec (.sipCombineTimeout p) s = .next ((u.bump .sipPort p Reg.SIP_TIMEOUTS 1).raise .sipPort p Reg.SIP_EVENT 2) := by
  change execSipCombineTimeout p s = _
  dsimp only [execSipCombineTimeout]
  split
  · next hnone => exact nomatch hnone.symm.trans h
  · next c' hc => cases hc.symm.trans h; rfl

/-- Settles O46: each clause is its row under the clause's conditions; what is counted and raised reaches no port's own state. -/
theorem sipPathTakesEffect : Obligations.SipPathTakesEffect := by
  unfold Obligations.SipPathTakesEffect
  refine ⟨fun s p hp hn hup hclk hrail => exec_sipTrainComplete hp hn hup hclk hrail,
    fun s p slot faults f hp hup => ⟨fun hf => ?fails, fun hf hj => exec_sipFlitReceive_reduction hp hup hf hj,
      fun hidle => hidle ▸ exec_sipFlitReceive_idle hp hup⟩,
    fun s p slot f hp hup => ⟨fun hk hc => ?hello, fun hk hc => ?uncleanHello, fun hk hc => ?uncleanNak,
      fun k g hk hc hkept => ⟨fun hn => ?again, fun hn => ?fourth⟩⟩,
    fun s p hp hup => ⟨_, exec_sipLaneLoss hp, State.sipUp_sipGoesDown hup, State.port_sipGoesDown_self hup,
      fun q hq => State.port_sipGoesDown_ne hup hq⟩,
    fun s p c h => exec_sipCombineTimeout h⟩
  case fails =>
    refine ⟨_, exec_sipFlitReceive_fails hp hup hf, ?sent, ?own, fun q hq => ?others⟩
    case sent => rw [State.out_sendSlot, State.sipNext_eq (s := s)] <;> simp
    case own => rw [State.port_sendSlot_self, State.port_setPort_self, State.sipNext_eq (s := s)] <;> simp
    case others => rw [State.port_sendSlot_ne _ hq, State.port_setPort_ne _ hq, State.port_bump, State.port_check]
  case hello =>
    obtain ⟨hok, hjob, hkind⟩ := (sipIs_iff 2 f).mp hk
    rw [exec_siphello hp hup hk, State.sipSlotIn_hello hok hjob hc hkind]
    exact ⟨_, rfl, State.port_setPort_self .., fun q hq => State.port_setPort_ne _ hq _⟩
  case uncleanHello =>
    obtain ⟨hok, hjob, -⟩ := (sipIs_iff 2 f).mp hk
    rw [exec_siphello hp hup hk, State.sipSlotIn_unclean hok hjob hc]
  case uncleanNak =>
    obtain ⟨hok, hjob, -⟩ := (sipIs_iff 1 f).mp hk
    rw [exec_sipNak hp hup hk, State.sipSlotIn_unclean hok hjob hc]
  case again =>
    obtain ⟨hok, hjob, hkind⟩ := (sipIs_iff 1 f).mp hk
    rw [exec_sipNak hp hup hk, State.sipSlotIn_nak hok hjob hc hkind, State.sipNakIn_again hkept rfl hn]
  case fourth =>
    obtain ⟨hok, hjob, hkind⟩ := (sipIs_iff 1 f).mp hk
    rw [exec_sipNak hp hup hk, State.sipSlotIn_nak hok hjob hc hkind, State.sipNakIn_fourth hkept rfl hn]

end Sys2Proof.Machine

/-! # Orders of the management port

O57: what the requests of R575 that order something do once R574 to R577 let them through. -/

namespace Sys2Proof.Machine

/-! ## A request that is heard (R574 to R577) -/

/-- Counting a request does not touch the module's state, on which R575 accepts it or not. -/
theorem State.gAccepts_counted (s : State) (t : Nat) : (s.add .mgtMod 0 Reg.MGT_RX 1).gAccepts t = s.gAccepts t := by
  have hword : (s.add .mgtMod 0 Reg.MGT_RX 1).peek .topMod 0 Reg.TOP_STATE = s.peek .topMod 0 Reg.TOP_STATE :=
    State.peek_add_ne _ (by decide) 1
  have hstate : (s.add .mgtMod 0 Reg.MGT_RX 1).topState = s.topState := congrArg (fld · 3 0) hword
  have hcause : (s.add .mgtMod 0 Reg.MGT_RX 1).safeCause = s.safeCause := congrArg (fld · 27 24) hword
  unfold State.gAccepts
  rw [hstate, hcause, State.add_job]

section
variable {s : State} {m : MgtMsg} {t : Nat} (h : s.MgtHears m t)
include h

/-- A request heard is not the one that the running JOB_FENCE will answer. -/
theorem State.MgtHears.not_fence {x : FenceRun} (hx : s.mgt.fence = some x) : decide (x.src = m.src ∧ x.seq = m.seq) = false :=
  decide_eq_false fun hsame => h.once x hx hsame.1 hsame.2

/-- None of the statuses of R577 applies to a request heard. -/
theorem State.MgtHears.status_ok (ht : t ∈ gRequests) : firstStatus
    [(m.rsvd || !decide (m.length = m.body.length) || decide (1200 < m.length) || !gRequests.contains m.type.toNat ||
        !gBodyOk m.type.toNat m.body, .malformed),
      (!decide (m.version = 1), .version), (s.gForeign m || !s.gAccepts m.type.toNat, .denied)] = .ok := by
  obtain ⟨hrsvd, hlen, hmax, hbody⟩ := h.form
  have hmax : m.body.length ≤ 1200 := hlen ▸ hmax
  simp [firstStatus, h.kind, hrsvd, hlen, hmax, hbody, ht, h.version, h.own, h.accepted]

/-- A request heard is carried out from the state counted and traced. -/
theorem State.MgtHears.arrive (ht : t ∈ gRequests) (handle : State → State) :
    s.mgtArrive m handle = handle (s.mgtHeard m) := by
  have hlink : ¬ (¬ s.powered = true ∨ ¬ s.mgtUp = true) := by simp [h.powered, h.up]
  have hfresh : (s.add .mgtMod 0 Reg.MGT_RX 1).keptReply m = none := h.fresh
  have hown : (s.add .mgtMod 0 Reg.MGT_RX 1).gForeign m = false := h.own
  have hok := h.status_ok ht
  rw [h.own] at hok
  unfold State.mgtArrive
  rw [if_neg hlink, if_neg (not_not_intro h.addressed)]
  simp only [hfresh, State.add_mgt, hown, State.gAccepts_counted, hok]
  cases hx : s.mgt.fence with
  | none => rfl
  | some x => simp only [h.not_fence hx]; rfl

/-- The row of a request heard carries it out. -/
theorem State.MgtHears.row (ht : t ∈ gRequests) (handle : State → State) : s.mgtRow m t handle = handle (s.mgtHeard m) := by
  rw [State.mgtRow, if_neg (not_not_intro h.kind), h.arrive ht]

end

/-! ## The orders (R575) -/

section
variable {s : State} {m : MgtMsg}

/-- The ports of a job, on which R581 fences it. -/
def State.jobPorts (s : State) (j : Nat) : List Nat :=
  (List.range 16).filter fun p => decide (j ≠ 0) && decide (s.portJob p = j)

/-- A JOB_FENCE is noted as running on its ports. -/
def State.noteFence (s : State) (m : MgtMsg) (ports : List Nat) : State :=
  { s with mgt := { s.mgt with fence := some { src := m.src, seq := m.seq, type := m.type, job := m.job.toNat, ports := ports } } }

theorem exec_preempt (h : s.MgtHears m gPreempt) :
    let u := s.mgtHeard m
    let d := leAt m.body 0 8
    exec (.preempt m) s =
      .next (((u.notice (if d = 0 then u.now + 30000000000 else max d u.now)).settleStreams.runQueues).gReply m .ok []) :=
  congrArg Host.Outcome.next (h.row (by decide) _)

theorem exec_reform (h : s.MgtHears m gReform) :
    let r := (s.mgtHeard m).wrGrpCmd (BitVec.ofNat 64 (leAt m.body 0 8))
    exec (.reform m) s = .next (r.2.settleStreams.gReply m r.1 []) :=
  congrArg Host.Outcome.next (h.row (by decide) _)

theorem exec_handover (h : s.MgtHears m gHandover) :
    let v := (s.mgtHeard m).poke .ckpMod 0 Reg.CKP_HANDOVER_STEP (BitVec.ofNat 64 (leAt m.body 0 8))
    let r := v.wrHandover (BitVec.ofNat 64 (leAt m.body 8 8))
    exec (.handover m) s = .next (r.2.settleStreams.gReply m r.1 []) :=
  congrArg Host.Outcome.next (h.row (by decide) _)

/-! ### JOB_FENCE (R581) -/

theorem exec_jobFence_busy (h : s.MgtHears m gJobFence) (hf : (s.mgtHeard m).mgt.fence ≠ none) :
    exec (.jobFence m) s = .next ((s.mgtHeard m).gReply m .busy []) :=
  congrArg Host.Outcome.next ((h.row (by decide) _).trans (if_pos (Option.isSome_iff_ne_none.mpr hf)))

section
variable {u : State} {j : Nat} (h : s.MgtHears m gJobFence) (hu : s.mgtHeard m = u) (hb : leAt m.body 0 2 = j)
  (hf : u.mgt.fence = none)
include h hu hb hf

/-- A job that is neither open nor on a port has nothing to fence. -/
theorem exec_jobFence_nothing (hp : u.jobPorts j = []) (hj : ¬ (u.job.isOpen = true ∧ u.job.id = j)) :
    exec (.jobFence m) s = .next (u.gReply m .ok []) := by
  subst hu hb
  have hidle := Option.not_isSome_iff_eq_none.mpr hf
  exact congrArg Host.Outcome.next ((h.row (by decide) _).trans ((if_neg hidle).trans (if_pos ⟨List.isEmpty_iff.mpr hp, hj⟩)))

/-- Any other job is fenced; what is noted, and whether the reply waits, turns on its ports. -/
theorem exec_jobFence_fences
    (hj : ¬ ((u.jobPorts j).isEmpty = true ∧ ¬ (u.job.isOpen = true ∧ u.job.id = j))) :
    let x := if (u.jobPorts j).isEmpty then u.fenceOpen j else (u.fenceOpen j).noteFence m (u.jobPorts j)
    let v := (x.fenceParts j (u.jobPorts j)).settleStreams.runQueues
    exec (.jobFence m) s = .next (if (u.jobPorts j).isEmpty then v.gReply m .ok [] else v) := by
  subst hu hb
  have hidle := Option.not_isSome_iff_eq_none.mpr hf
  exact congrArg Host.Outcome.next ((h.row (by decide) _).trans ((if_neg hidle).trans (if_neg hj)))

/-- An open job on no port is answered at once. -/
theorem exec_jobFence_noPort (hp : u.jobPorts j = []) (hopen : u.job.isOpen = true) (hid : u.job.id = j) :
    exec (.jobFence m) s = .next ((((u.fenceOpen j).fenceParts j (u.jobPorts j)).settleStreams.runQueues).gReply m .ok []) := by
  have hempty := List.isEmpty_iff.mpr hp
  rw [exec_jobFence_fences h hu hb hf fun hnothing => hnothing.2 ⟨hopen, hid⟩, if_pos hempty, if_pos hempty]

/-- The reply for a job on a port waits for its ports. -/
theorem exec_jobFence_ports (hp : u.jobPorts j ≠ []) : exec (.jobFence m) s =
    .next ((((u.fenceOpen j).noteFence m (u.jobPorts j)).fenceParts j (u.jobPorts j)).settleStreams.runQueues) := by
  have hsome : ¬ (u.jobPorts j).isEmpty = true := fun hempty => hp (List.isEmpty_iff.mp hempty)
  rw [exec_jobFence_fences h hu hb hf fun hnothing => hsome hnothing.1, if_neg hsome, if_neg hsome]

end

/-! ### ROLLBACK (R497, R498, R515) -/

section
variable (h : s.MgtHears m gRollback)
include h

theorem exec_rollback_denied
    (hj : (s.mgtHeard m).job.isOpen = false ∨ leAt m.body 0 2 ≠ (s.mgtHeard m).job.id ∨ leAt m.body 8 8 = 0) :
    exec (.rollback m) s = .next ((s.mgtHeard m).gReply m .denied []) :=
  congrArg Host.Outcome.next ((h.row (by decide) _).trans (if_pos (hj.imp_left Bool.eq_false_iff.mp)))

variable (hj : (s.mgtHeard m).job.isOpen = true) (hid : leAt m.body 0 2 = (s.mgtHeard m).job.id) (hr : leAt m.body 8 8 ≠ 0)
include hj hid hr

/-- A step that is not held cannot be gone back to. -/
theorem exec_rollback_notHeld (hh : ((s.mgtHeard m).holdsStep (leAt m.body 8 8 - 1)).1 = false) :
    exec (.rollback m) s = .next (((s.mgtHeard m).holdsStep (leAt m.body 8 8 - 1)).2.gReply m .denied []) := by
  refine congrArg Host.Outcome.next ((h.row (by decide) _).trans ((if_neg ?own).trans (if_pos (Bool.eq_false_iff.mp hh))))
  case own => simp [hj, hid, hr]

theorem exec_rollback_held (hh : ((s.mgtHeard m).holdsStep (leAt m.body 8 8 - 1)).1 = true) :
    let v := ((s.mgtHeard m).holdsStep (leAt m.body 8 8 - 1)).2.gReply m .ok []
    exec (.rollback m) s = .next
      ((State.settleOrder { v with mgt := { v.mgt with order := some (leAt m.body 8 8) } }).settleStreams.runQueues) := by
  refine congrArg Host.Outcome.next ((h.row (by decide) _).trans ((if_neg ?own).trans (if_neg (not_not_intro hh))))
  case own => simp [hj, hid, hr]

end

/-! ### Recovery (R548) -/

theorem exec_recoverWrite (h : s.MgtHears m gRecoverWrite) (hk : leAt m.body 0 4 % 1024 = 0)
    (hend : leAt m.body 0 4 + 1024 ≤ 16777216) :
    let u := s.mgtHeard m
    exec (.recoverWrite m) s = .next
      (State.gReply { u with mgt := { u.mgt with image := putBytes u.mgt.image (leAt m.body 0 4) (m.body.drop 8) } } m .ok []) := by
  refine congrArg Host.Outcome.next ((h.row (by decide) _).trans (if_neg ?whole))
  case whole => omega

section
variable (h : s.MgtHears m gRecoverCommit) (hlo : 4096 ≤ leAt m.body 0 4) (hhi : leAt m.body 0 4 ≤ 16777216)
include h hlo hhi

theorem exec_recoverCommit_verifies {x : FwSlot} (hx : (s.mgtHeard m).recovered (leAt m.body 0 4) = some x) :
    let u := s.mgtHeard m
    exec (.recoverCommit m) s = .next (((u.gReply m .ok []).putSlot 0 x).coldStart { u.top.boot with slot0Ok := true }) := by
  refine congrArg Host.Outcome.next ((h.row (by decide) _).trans ((if_neg ?size).trans ?commit))
  case size => omega
  case commit => rw [hx]

theorem exec_recoverCommit_fails (hx : (s.mgtHeard m).recovered (leAt m.body 0 4) = none) :
    exec (.recoverCommit m) s = .next ((s.mgtHeard m).gReply m .denied []) := by
  refine congrArg Host.Outcome.next ((h.row (by decide) _).trans ((if_neg ?size).trans ?commit))
  case size => omega
  case commit => rw [hx]

end
end

/-- Settles O57: each clause is its row behind the checks of R574 to R577, which a request that is heard passes, under the clause's
conditions. -/
theorem managementOrdersTakeEffect : Obligations.ManagementOrdersTakeEffect := by
  unfold Obligations.ManagementOrdersTakeEffect
  exact fun s m =>
    ⟨exec_preempt,
      fun h => ⟨exec_jobFence_busy h, exec_jobFence_nothing h rfl rfl, exec_jobFence_noPort h rfl rfl,
        exec_jobFence_ports h rfl rfl⟩,
      fun h => ⟨exec_rollback_held h, exec_rollback_notHeld h, exec_rollback_denied h⟩,
      exec_reform, exec_handover, exec_recoverWrite,
      fun h hlo hhi => ⟨fun _ => exec_recoverCommit_verifies h hlo hhi, exec_recoverCommit_fails h hlo hhi⟩⟩

end Sys2Proof.Machine

/-! # Messages that R349 stops

O43: where each row of R349 drops a message, and what the row of WDATA then answers. -/

namespace Sys2Proof.Machine

/-! ## The rows of R349 in order -/

section
variable {s : State} {p : Nat} {m : Msg} (handle : State → State)

/-- A port that is up with no binding agreed takes a HELLO alone. -/
theorem State.arrive_unbound (ht : m.type.toNat ≠ mHello)
    (hst : s.rxState p = psLinkUp ∨ s.rxState p = psNoVersion ∨ s.rxState p = psRoleMismatch) :
    s.arrive p m handle = s.bump .lnkPort p Reg.LNK_ROLE_DENIED 1 :=
  (if_pos hst).trans (if_pos ht)

/-- In every state but those of R349's rows nothing happens to a message. -/
theorem State.arrive_deaf (hst : s.rxState p ∉ [psLinkUp, psNoVersion, psRoleMismatch, psActive]) : s.arrive p m handle = s := by
  obtain ⟨hup, hversion, hrole, hactive⟩ : s.rxState p ≠ psLinkUp ∧ s.rxState p ≠ psNoVersion ∧ s.rxState p ≠ psRoleMismatch ∧
    s.rxState p ≠ psActive := by simpa using hst
  exact (if_neg (not_or.mpr ⟨hup, not_or.mpr ⟨hversion, hrole⟩⟩)).trans (if_pos hactive)

section
variable (hst : s.rxState p = psActive)
include hst

/-- On an ACTIVE port a message meets the checks of its form, job, role, topology and rank, in this order. -/
theorem State.arrive_active : s.arrive p m handle =
    if ¬ msgOk m = true then s.msgMalformed p m
    else if (m.job.toNat ≠ s.portJob p ∧ m.job ≠ 0) ∨ (m.job = 0 ∧ ¬ baseType m.type.toNat = true) then s.foreignJob p
    else if ¬ roleAllows (s.portRole p) m.type.toNat = true ∨
        (¬ s.topoMatch p = true ∧ ¬ baseType m.type.toNat = true ∧ m.type.toNat ≠ mCpl) then
      (s.bump .lnkPort p Reg.LNK_ROLE_DENIED 1).cplTo p m .denied
    else if m.dst.toNat ≠ s.rfield .lnkPort p Reg.LNK_ROLE 47 32 ∧ ¬ rankFree m.type.toNat = true then
      s.bump .lnkPort p Reg.LNK_MISROUTED 1
    else handle s := by
  have hbound : ¬ (s.rxState p = psLinkUp ∨ s.rxState p = psNoVersion ∨ s.rxState p = psRoleMismatch) := by rw [hst]; decide
  exact (if_neg hbound).trans (if_neg (not_not_intro hst))

theorem State.arrive_malformed (hok : msgOk m = false) : s.arrive p m handle = s.msgMalformed p m := by
  rw [State.arrive_active handle hst, if_pos (Bool.eq_false_iff.mp hok)]

variable (hok : msgOk m = true)
include hok

/-- A message of a type that needs a job is foreign on a port of another job, or with none. -/
theorem State.arrive_foreign (hbase : ¬ baseType m.type.toNat = true) (hmine : ¬ (m.job ≠ 0 ∧ m.job.toNat = s.portJob p)) :
    s.arrive p m handle = s.foreignJob p := by
  rw [State.arrive_active handle hst, if_neg (not_not_intro hok), if_pos ?foreign]
  case foreign => tauto

variable (hmine : m.job ≠ 0 ∧ m.job.toNat = s.portJob p)
include hmine

/-- A message of a type that needs a role and a topology is denied where one of them is missing. -/
theorem State.arrive_denied (hbase : ¬ baseType m.type.toNat = true) (hcpl : m.type.toNat ≠ mCpl)
    (hallowed : ¬ (roleAllows (s.portRole p) m.type.toNat = true ∧ s.topoMatch p = true)) :
    s.arrive p m handle = (s.bump .lnkPort p Reg.LNK_ROLE_DENIED 1).cplTo p m .denied := by
  rw [State.arrive_active handle hst, if_neg (not_not_intro hok), if_neg ?own, if_pos ?denied]
  case own => tauto
  case denied => tauto

/-- A message that these let through is misrouted where its type needs the port's rank and it has another. -/
theorem State.arrive_misrouted (hallowed : roleAllows (s.portRole p) m.type.toNat = true ∧ s.topoMatch p = true)
    (hrank : ¬ rankFree m.type.toNat = true) (hdst : m.dst.toNat ≠ s.rfield .lnkPort p Reg.LNK_ROLE 47 32) :
    s.arrive p m handle = s.bump .lnkPort p Reg.LNK_MISROUTED 1 := by
  rw [State.arrive_active handle hst, if_neg (not_not_intro hok), if_neg ?own, if_neg ?allowed,
    if_pos ⟨hdst, hrank⟩]
  case own => tauto
  case allowed => tauto

end
end

/-! ## The row of WDATA -/

theorem exec_wdata {s : State} {p : Nat} {m : Msg} (hp : p < 16) (hm : m.type.toNat = mWdata) :
    exec (.wdata p m) s = .next (s.arrive p m fun s => s.wdataIn p m).settleStreams := by
  change execWdata p m s = _
  simp [execWdata, State.message, hp, hm]

/-- Settles O43: a WDATA is of a type that needs job, role, topology and rank, so each clause is the row of R349 that stops it. -/
theorem messagesStoppedByR349 : Obligations.MessagesStoppedByR349 := by
  unfold Obligations.MessagesStoppedByR349
  intro s p m hp hm
  have hhello : m.type.toNat ≠ mHello := by rw [hm]; decide
  have hcpl : m.type.toNat ≠ mCpl := by rw [hm]; decide
  have hbase : ¬ baseType m.type.toNat = true := by rw [hm]; decide
  have hrank : ¬ rankFree m.type.toNat = true := by rw [hm]; decide
  rw [exec_wdata hp hm, ← hm]
  refine ⟨fun hst => ?unbound, fun hst hok => ?malformed, fun hst hok hmine => ?foreign, fun hst hok hmine hallowed => ?denied,
    fun hst hok hmine hallowed hdst => ?misrouted, fun hst => ?deaf⟩
  case unbound => rw [State.arrive_unbound _ hhello hst]
  case malformed => rw [State.arrive_malformed _ hst hok]
  case foreign => rw [State.arrive_foreign _ hst hok hbase hmine]
  case denied => rw [State.arrive_denied _ hst hok hmine hbase hcpl hallowed]
  case misrouted => rw [State.arrive_misrouted _ hst hok hmine hallowed hrank hdst]
  case deaf => rw [State.arrive_deaf _ hst]

end Sys2Proof.Machine

/-! # The stores in canonical form

O6: memory, symbol errors and critical words are written by a few operations only, and each of them keeps the canonical form. One
lemma for every other operation that runs through them carries this up to the commands. -/

namespace Sys2Proof.Machine

/-- What the stores of a state hold, in canonical form. -/
def CanonStores (x : Smap Byte × Smap Byte × Smap CritWord) : Prop :=
  Smap.Canon (fun _ => 0) x.1 ∧ Smap.Canon (fun _ => 0) x.2.1 ∧ Smap.Canon (fun _ => CritWord.zero) x.2.2

/-- Memory, symbol errors and critical words are in canonical form. It unfolds to State.store, so that what is known of
operations that store nothing serves here too. -/
@[simp, reducible] def State.Canon (s : State) : Prop := CanonStores s.store

theorem State.storesWf_iff (s : State) : s.storesWf = true ↔ s.Canon := by
  simp only [State.storesWf, State.memWf, State.errWf, State.critWf, Bool.and_eq_true, Smap.wf_iff, and_assoc]
  rfl

/-- The canonical form again, under a name that simp knows nothing of. -/
def State.Regained (s : State) : Prop := s.Canon
@[congr] theorem State.regained_congr (s : State) : s.Regained = s.Regained := rfl

/-- If the stores of `s` are in canonical form, so are those of `t` (State.canonTo). As an equivalence, so that simp goes
back over any number of operations to the state they began with; a condition it would follow only two deep. -/
abbrev State.CanonTo (s t : State) : Prop := t.Canon ↔ s.Canon ∨ t.Regained

theorem State.canonTo {s t : State} (h : s.Canon → t.Canon) : s.CanonTo t := ⟨.inr, (·.elim h id)⟩

/-- A state whose stores are in canonical form. -/
abbrev CanonState := { s : State // s.Canon }

@[simp] theorem CanonState.canon (s : CanonState) : s.1.Canon := s.2
/-- What an operation given as an argument does to any state of canonical form. -/
theorem canon_apply {f : State → State} (h : ∀ s : CanonState, (f s).Canon) {s : State} (hs : s.Canon) : (f s).Canon :=
  h ⟨s, hs⟩
@[simp] theorem canonStores_ite {c : Prop} [Decidable c] {x y} :
    CanonStores (if c then x else y) ↔ if c then CanonStores x else CanonStores y := by
  split <;> rfl
/-- A fold keeps the canonical form if each of its steps does. -/
@[simp] theorem foldl_canon {α : Type} {f : State → α → State} (h : ∀ (s : CanonState) a, (f s a).Canon) {l : List α}
    {s : State} : s.CanonTo (l.foldl f s) :=
  State.canonTo (foldl_keeps f (fun s a hs => h ⟨s, hs⟩ a) l s)

/-! ### What the commands write into a store -/

section
variable {m e : Smap Byte} {c : Smap CritWord} (h : CanonStores (m, e, c))
include h

theorem canonStores_putBytes {a bs} : CanonStores (putBytes m a bs, e, c) := ⟨h.1.putBytes a bs, h.2⟩
theorem canonStores_putElems {ws : List ElemWrite} :
    CanonStores (ws.foldl (fun m x => putBits m x.1 x.2.1 x.2.2.1 x.2.2.2) m, e, c) :=
  ⟨foldl_keeps _ (fun _ _ hm => hm.putBits _ _ _ _) ws m h.1, h.2⟩
theorem canonStores_copied {mine : Smap Byte} {moved : Nat → Nat} :
    CanonStores (mine.foldl (fun m x => Smap.set 0 m (moved x.1) x.2) m, e, c) :=
  ⟨foldl_keeps _ (fun _ _ hm => hm.set _ _) mine m h.1, h.2⟩
theorem canonStores_filterMem {p : Nat × Byte → Bool} : CanonStores (m.filter p, e, c) := ⟨h.1.filter p, h.2⟩
theorem canonStores_setErr {k v} : CanonStores (m, Smap.set 0 e k v, c) := ⟨h.1, h.2.1.set k v, h.2.2⟩
theorem canonStores_filterErr {p : Nat × Byte → Bool} : CanonStores (m, e.filter p, c) := ⟨h.1, h.2.1.filter p, h.2.2⟩
theorem canonStores_delErrs {ks : List Nat} {k : Nat → Nat} :
    CanonStores (m, ks.foldl (fun e i => Smap.del e (k i)) e, c) :=
  ⟨h.1, foldl_keeps _ (fun _ _ he => he.del _) ks e h.2.1, h.2.2⟩
theorem canonStores_setCrit {k w} : CanonStores (m, e, Smap.set CritWord.zero c k w) := ⟨h.1, h.2.1, h.2.2.set k w⟩
end

section
variable {s : State}

/-! ### Bonded memory and critical words (R380, R383) -/

@[simp] theorem State.disturb_canon {g j i v} : s.CanonTo (s.disturb g j i v) := State.canonTo fun hs => canonStores_setErr hs
@[simp] theorem State.upset_canon {g u} : s.CanonTo (s.upset g u) := State.canonTo fun hs => by simp [State.upset, hs]
@[simp] theorem State.storeGranule_canon {g bs} : s.CanonTo (s.storeGranule g bs) := State.canonTo fun hs => by
  have h : CanonStores (putBytes s.mem g (bs.take 64),
      (List.range 72).foldl (fun e k => Smap.del e (72 * (g / 64) + k)) s.memErr, s.crit) :=
    canonStores_putBytes (canonStores_delErrs hs)
  simp [State.storeGranule, h]
@[simp] theorem State.writeGranule_canon {g a bs} : s.CanonTo (s.writeGranule g a bs).2 := State.canonTo fun hs => by
  simp [State.writeGranule, hs]
@[simp] theorem State.memWrite_canon {a bs} : s.CanonTo (s.memWrite a bs).2 := State.canonTo fun hs => by
  have h : ((granules a bs.length).foldl (fun (acc : Bool × State) g =>
      (acc.1 && (acc.2.writeGranule g a bs).1, (acc.2.writeGranule g a bs).2)) (true, s)).2.Canon :=
    foldl_keeps (P := fun acc : Bool × State => acc.2.Canon) _ (fun acc g h => by simp [h]) _ _ hs
  simp [State.memWrite, hs, h]
@[simp] theorem State.setCrit_canon {a w} : s.CanonTo (s.setCrit a w) := State.canonTo fun hs => canonStores_setCrit hs
@[simp] theorem State.critWrite_canon {a v} : s.CanonTo (s.critWrite a v).2 := State.canonTo fun hs => by
  simp [State.critWrite, hs]
@[simp] theorem State.critUpset_canon {a u} : s.CanonTo (s.critUpset a u) := State.canonTo fun hs => by
  simp [State.critUpset, hs]

/-! ### What critical words keep -/

@[simp] theorem State.keepWord_canon {w v} : s.CanonTo (s.keepWord w v) := State.canonTo fun hs => by simp [State.keepWord, hs]
@[simp] theorem State.keepWords_canon {w vs} : s.CanonTo (s.keepWords w vs) := State.canonTo fun hs => by
  induction vs generalizing s w with
  | nil => exact hs
  | cons v vs ih => exact ih (by simp [hs])
@[simp] theorem State.keepJob_canon : s.CanonTo s.keepJob := State.canonTo fun hs => by simp [State.keepJob, hs]
@[simp] theorem State.markArea_canon {g step} : s.CanonTo (s.markArea g step) := State.canonTo fun hs => by
  simp [State.markArea, hs]
@[simp] theorem State.markVersion_canon {g v} : s.CanonTo (s.markVersion g v) := State.canonTo fun hs => by
  simp [State.markVersion, hs]
@[simp] theorem State.keepChain_canon : s.CanonTo s.keepChain := State.canonTo fun hs => by simp [State.keepChain, hs]
@[simp] theorem State.keepPointers_canon : s.CanonTo s.keepPointers := State.canonTo fun hs => by simp [State.keepPointers, hs]
@[simp] theorem State.keepHold_canon : s.CanonTo s.keepHold := State.canonTo fun hs => by simp [State.keepHold, hs]
@[simp] theorem State.keepBuddy_canon : s.CanonTo s.keepBuddy := State.canonTo fun hs => by simp [State.keepBuddy, hs]
@[simp] theorem State.keepCkp_canon : s.CanonTo s.keepCkp := State.canonTo fun hs => by simp [State.keepCkp, hs]
@[simp] theorem State.keepEpochs_canon {k} : s.CanonTo (s.keepEpochs k) := State.canonTo fun hs => by
  simp [State.keepEpochs, hs]
@[simp] theorem State.keepGroup_canon {n} : s.CanonTo (s.keepGroup n) := State.canonTo fun hs => by
  dsimp only [State.keepGroup]
  repeat' split
  all_goals simp [hs]
@[simp] theorem State.keepSip_canon {n} : s.CanonTo (s.keepSip n) := State.canonTo fun hs => by
  dsimp only [State.keepSip]
  repeat' split
  all_goals simp [hs]

/-! ### The end of a step -/

@[simp] theorem State.cut_canon {outcome st} : s.CanonTo (s.cut outcome st) := State.canonTo fun hs => by simp [State.cut, hs]
@[simp] theorem State.stepFail_canon {cause level st item} : s.CanonTo (s.stepFail cause level st item) :=
  State.canonTo fun hs => by simp [State.stepFail, hs]
@[simp] theorem State.known_canon {w held} : s.CanonTo (s.known w held).2 := State.canonTo fun hs => by simp [State.known, hs]
@[simp] theorem State.epochKept_canon {k e} : s.CanonTo (s.epochKept k e).2 := State.canonTo fun hs => by
  simp [State.epochKept, hs]
@[simp] theorem State.holdsStep_canon {k} : s.CanonTo (s.holdsStep k).2 := State.canonTo fun hs => by simp [State.holdsStep, hs]
@[simp] theorem State.abandonStep_canon : s.CanonTo s.abandonStep := State.canonTo fun hs => by simp [State.abandonStep, hs]

/-! ### What every instruction of a core shares -/

@[simp] theorem State.tsWrite_canon {i a bs} : s.CanonTo (s.tsWrite i a bs) := State.canonTo fun hs => by
  dsimp only [State.tsWrite]
  split <;> exact canonStores_putBytes hs
@[simp] theorem State.exception_canon {i src word pc seq st area} : s.CanonTo (s.exception i src word pc seq st area) :=
  State.canonTo fun hs => by simp [State.exception, hs]
@[simp] theorem State.addToken_canon {i t n} : s.CanonTo (s.addToken i t n) := State.canonTo fun hs => by
  simp [State.addToken, hs]
@[simp] theorem State.fenceCore_canon {i cause} : s.CanonTo (s.fenceCore i cause) := State.canonTo fun hs => by
  dsimp only [State.fenceCore]
  repeat' split
  all_goals simp [hs]
@[simp] theorem State.seqDone_canon {i st next} : s.CanonTo (s.seqDone i st next) := State.canonTo fun hs => by
  simp [State.seqDone, hs]
@[simp] theorem State.issueWith_canon {op i o run} (h : ∀ s : CanonState, (run s).Canon) :
    s.CanonTo (s.issueWith op i o run) :=
  State.canonTo fun hs => by
    unfold State.issueWith
    repeat' split
    all_goals simp [hs, canon_apply h]
@[simp] theorem State.enqueue_canon {op check i} : s.CanonTo (s.enqueue op check i) := State.canonTo fun hs => by
  simp [State.enqueue, hs]
@[simp] theorem State.issueQ_canon {op check i o} : s.CanonTo (s.issueQ op check i o) := State.canonTo fun hs => by
  simp [State.issueQ, hs]
@[simp] theorem State.retire_canon {i q st area} : s.CanonTo (s.retire i q st area) := State.canonTo fun hs => by
  dsimp only [State.retire]
  repeat' split
  all_goals simp [hs]

/-! ### Areas of the memory layout -/

@[simp] theorem State.putRuns_canon {rs bs} : s.CanonTo (s.putRuns rs bs).2 := State.canonTo fun hs => by
  induction rs generalizing s bs with
  | nil => exact hs
  | cons r rs ih => exact ih (by simp [hs])
@[simp] theorem State.writeArea_canon {kind off bs} : s.CanonTo (s.writeArea kind off bs).2 := State.canonTo fun hs => by
  simp [State.writeArea, hs]
@[simp] theorem State.zeroRun_canon {a n} : s.CanonTo (s.zeroRun a n) := State.canonTo fun hs => by
  dsimp only [State.zeroRun]
  split
  · exact hs
  · have h : (s.storeGranule a (zeros 64)).Canon := by simp [hs]
    rw [State.Canon, State.bump_store]
    exact canonStores_filterMem (canonStores_filterErr h)
@[simp] theorem State.zeroArea_canon {kind off n} : s.CanonTo (s.zeroArea kind off n) := State.canonTo fun hs => by
  simp [State.zeroArea, hs]

/-! ### The bus (R149) -/

@[simp] theorem State.busRead_canon {a n o} : s.CanonTo (s.busRead a n o).2.2 := State.canonTo fun hs => by
  have h : ∀ ks : List Nat, (ks.foldl (fun (acc : Status × List Byte × State) k =>
      (acc.1.join (acc.2.2.critRead (a + 8 * k)).1, acc.2.1 ++ leBytes 8 (acc.2.2.critRead (a + 8 * k)).2.1.toNat,
        (acc.2.2.critRead (a + 8 * k)).2.2)) (Status.ok, [], s)).2.2.Canon := fun ks =>
    foldl_keeps (P := fun acc : Status × List Byte × State => acc.2.2.Canon) _ (fun acc k h => by simp [h]) _ _ hs
  dsimp only [State.busRead]
  repeat' split
  all_goals simp [hs, h]
@[simp] theorem State.urnWrite_canon {c o bs} : s.CanonTo (s.urnWrite c o bs) := by
  unfold State.urnWrite
  refine foldl_canon fun t k => ?_
  extract_lets e new
  clear_value new
  split
  · simp
  · rw [State.Canon, State.setCluster_store]
    exact canonStores_putBytes t.canon
@[simp] theorem State.dmaWrite_canon {a bs o} : s.CanonTo (s.dmaWrite a bs o).2 := State.canonTo fun hs => by
  dsimp only [State.dmaWrite]
  repeat' split
  all_goals simp [hs]

/-! ### The mesh -/

@[simp] theorem State.fenceLink_canon {d p} : s.CanonTo (s.fenceLink d p) := State.canonTo fun hs => by
  dsimp only [State.fenceLink]
  repeat' split
  all_goals simp [hs]
@[simp] theorem State.ctlFlitFails_canon {die port} : s.CanonTo (s.ctlFlitFails die port) := State.canonTo fun hs => by
  simp [State.ctlFlitFails, hs]

/-! ### Copies -/

@[simp] theorem State.genTouch_canon {a} : s.CanonTo (s.genTouch a) := State.canonTo fun hs => by
  dsimp only [State.genTouch]
  repeat' split
  all_goals simp [hs]
@[simp] theorem State.issueCopy_canon {op check i o} : s.CanonTo (s.issueCopy op check i o) := State.canonTo fun hs => by
  simp [State.issueCopy, hs]
@[simp] theorem State.readRuns_canon {o rs} : s.CanonTo (s.readRuns o rs).2.2 := State.canonTo fun hs => by
  induction rs generalizing s o with
  | nil => exact hs
  | cons r rs ih =>
    dsimp only [State.readRuns]
    repeat' split
    · exact ih hs
    · simp [hs]
    · exact ih (by simp [hs])
@[simp] theorem State.writeRuns_canon {o rs} : s.CanonTo (s.writeRuns o rs).2 := State.canonTo fun hs => by
  induction rs generalizing s o with
  | nil => exact hs
  | cons r rs ih =>
    dsimp only [State.writeRuns]
    split
    · exact ih hs
    · exact ih (by split <;> simp [hs])
@[simp] theorem State.copyDone_canon {i e o} : s.CanonTo (s.copyDone i e o) := State.canonTo fun hs => by
  dsimp only [State.copyDone]
  repeat' split
  all_goals simp [hs]
@[simp] theorem State.copyStep_canon {i e o} : s.CanonTo (s.copyStep i e o) := State.canonTo fun hs => by
  simp [State.copyStep, hs]

/-! ### Tensors in tile stores -/

@[simp] theorem State.putElems_canon {i ws} : s.CanonTo (s.putElems i ws) := State.canonTo fun hs => by
  dsimp only [State.putElems]
  split <;> exact canonStores_putElems hs
@[simp] theorem State.storeTile_canon {i w t gov r0 c0 vals} : s.CanonTo (s.storeTile i w t gov r0 c0 vals) :=
  State.canonTo fun hs => by simp [State.storeTile, hs]

/-! ### Urns -/

@[simp] theorem State.spill_canon {c n e fails} : s.CanonTo (s.spill c n e fails).2 := State.canonTo fun hs => by
  simp [State.spill, hs]
@[simp] theorem UrnRun.spill_canon {r : UrnRun} {c n e} : r.s.CanonTo (r.spill c n e).s := State.canonTo fun hs => by
  simp [UrnRun.spill, hs]
@[simp] theorem UrnRun.spillDown_canon {r : UrnRun} {c n} : r.s.CanonTo (r.spillDown c n).s := State.canonTo fun hs => by
  induction n generalizing r with
  | zero => exact hs
  | succ n ih =>
    dsimp only [UrnRun.spillDown]
    repeat' split
    all_goals simp [hs, ih]
@[simp] theorem UrnRun.insert_canon {r : UrnRun} {c row line vals fr} : r.s.CanonTo (r.insert c row line vals fr).s :=
  State.canonTo fun hs => by
    dsimp only [UrnRun.insert]
    repeat' split
    all_goals simp [hs]
@[simp] theorem UrnRun.rows_canon {r : UrnRun} {c row line fr vs} :
    r.s.CanonTo (r.rows c row line fr vs).s := State.canonTo fun hs => by
  induction vs generalizing r row fr with
  | nil => exact hs
  | cons v vs ih =>
    dsimp only [UrnRun.rows]
    split
    · simp [hs]
    · exact ih (by simp [hs])
@[simp] theorem State.urnTile_canon {i row line vals fails} : s.CanonTo (s.urnTile i row line vals fails).2 :=
  State.canonTo fun hs => by simp [State.urnTile, hs]
@[simp] theorem State.putFp32_canon {i t val} : s.CanonTo (s.putFp32 i t val) := State.canonTo fun hs => by
  simp [State.putFp32, hs]
@[simp] theorem State.mergeLog_canon {i c t row0 es last} : s.CanonTo (s.mergeLog i c t row0 es last).2 :=
  State.canonTo fun hs => by simp [State.mergeLog, hs]
@[simp] theorem State.urnMerge_canon {i w d o} : s.CanonTo (s.urnMerge i w d o).2 := State.canonTo fun hs => by
  dsimp only [State.urnMerge]
  repeat' split
  all_goals simp [hs]

/-! ### The engine -/

@[simp] theorem State.issueMask_canon {op check i o} : s.CanonTo (s.issueMask op check i o) := State.canonTo fun hs => by
  dsimp only [State.issueMask]
  repeat' split
  all_goals simp [hs]
@[simp] theorem State.retireUrn_canon {i st} : s.CanonTo (s.retireUrn i st) := State.canonTo fun hs => by
  simp [State.retireUrn, hs]
@[simp] theorem State.nextItem_canon {i e data} : s.CanonTo (s.nextItem i e data) := State.canonTo fun hs => by
  simp [State.nextItem, hs]
@[simp] theorem State.releasePred_canon {i e t} : s.CanonTo (s.releasePred i e t) := State.canonTo fun hs => by
  dsimp only [State.releasePred]
  repeat' split
  all_goals simp [hs]
@[simp] theorem State.releaseSmmp_canon {i e p t} : s.CanonTo (s.releaseSmmp i e p t) := State.canonTo fun hs => by
  dsimp only [State.releaseSmmp]
  repeat' split
  all_goals simp [hs, -List.reduceReplicate]
@[simp] theorem State.releaseUrn_canon {i e p t fails} : s.CanonTo (s.releaseUrn i e p t fails) := State.canonTo fun hs => by
  dsimp only [State.releaseUrn]
  repeat' split
  all_goals simp [hs]
@[simp] theorem State.releasePass_canon {i e p t} : s.CanonTo (s.releasePass i e p t) := State.canonTo fun hs => by
  dsimp only [State.releasePass]
  repeat' split
  all_goals simp [hs]
@[simp] theorem State.beginPasses_canon {i e} : s.CanonTo (s.beginPasses i e).2 := State.canonTo fun hs => by
  dsimp only [State.beginPasses]
  repeat' split
  all_goals simp [hs]
@[simp] theorem State.judge_canon {i e p o first} : s.CanonTo (s.judge i e p o first).2 := State.canonTo fun hs => by
  simp [State.judge, hs]
@[simp] theorem State.limitFence_canon {i k} : s.CanonTo (s.limitFence i k) := State.canonTo fun hs => by
  simp [State.limitFence, hs]
@[simp] theorem State.failPass_canon {i e kind row col} : s.CanonTo (s.failPass i e kind row col) := State.canonTo fun hs => by
  simp [State.failPass, hs]
@[simp] theorem State.failAhead_canon {i e kind row col} : s.CanonTo (s.failAhead i e kind row col) :=
  State.canonTo fun hs => by simp [State.failAhead, hs]
@[simp] theorem State.releaseAhead_canon {i seq} : s.CanonTo (s.releaseAhead i seq) := State.canonTo fun hs => by
  dsimp only [State.releaseAhead]
  repeat' split
  all_goals simp [hs]
@[simp] theorem State.urnAdd_canon {i e p t o} : s.CanonTo (s.urnAdd i e p t o) := State.canonTo fun hs => by
  simp [State.urnAdd, hs]
@[simp] theorem State.passPass_canon {i e p t o} : s.CanonTo (s.passPass i e p t o) := State.canonTo fun hs => by
  simp [State.passPass, hs]
@[simp] theorem State.judgePass_canon {i e o} : s.CanonTo (s.judgePass i e o) := State.canonTo fun hs => by
  dsimp only [State.judgePass]
  repeat' split
  all_goals simp [hs]
@[simp] theorem State.judgeAhead_canon {i e o} : s.CanonTo (s.judgeAhead i e o) := State.canonTo fun hs => by
  dsimp only [State.judgeAhead]
  repeat' split
  all_goals simp [hs]
@[simp] theorem State.passVerdict_canon {i o} : s.CanonTo (s.passVerdict i o) := State.canonTo fun hs => by
  dsimp only [State.passVerdict]
  repeat' split
  all_goals simp [hs]

/-! ### Control instructions -/

@[simp] theorem State.loadRead_canon {i a n o} : s.CanonTo (s.loadRead i a n o).2 := State.canonTo fun hs => by
  simp [State.loadRead, hs]
@[simp] theorem State.seqFail_canon {i st area} : s.CanonTo (s.seqFail i st area) := State.canonTo fun hs => by
  simp [State.seqFail, hs]
@[simp] theorem State.signalDone_canon {g st} : s.CanonTo (s.signalDone g st) := State.canonTo fun hs => by
  dsimp only [State.signalDone]
  repeat' split
  all_goals simp [hs]
@[simp] theorem State.signalAt_canon {g i} : s.CanonTo (s.signalAt g i) := State.canonTo fun hs => by simp [State.signalAt, hs]
@[simp] theorem State.passBarrier_canon {i} : s.CanonTo (s.passBarrier i) := State.canonTo fun hs => by
  simp [State.passBarrier, hs]
@[simp] theorem State.arriveCluster_canon {i id} : s.CanonTo (s.arriveCluster i id) := State.canonTo fun hs => by
  simp [State.arriveCluster, hs]
@[simp] theorem State.arriveRegion_canon {i id} : s.CanonTo (s.arriveRegion i id) := State.canonTo fun hs => by
  simp [State.arriveRegion, hs]
@[simp] theorem State.waitOver_canon {i} : s.CanonTo (s.waitOver i) := State.canonTo fun hs => by simp [State.waitOver, hs]

/-! ### The arrival of a message -/

@[simp] theorem State.arrive_canon {p m handle} (h : ∀ s : CanonState, (handle s).Canon) : s.CanonTo (s.arrive p m handle) :=
  State.canonTo fun hs => by
    unfold State.arrive
    repeat' split
    all_goals simp [hs, canon_apply h]

/-! ### Weight versions -/

@[simp] theorem State.setStage_canon {st reason version root} : s.CanonTo (s.setStage st reason version root) :=
  State.canonTo fun hs => by simp [State.setStage, hs]
@[simp] theorem State.wrStage_canon {v} : s.CanonTo (s.wrStage v).2 := State.canonTo fun hs => by simp [State.wrStage, hs]
@[simp] theorem State.releasePrior_canon : s.CanonTo s.releasePrior := State.canonTo fun hs => by
  dsimp only [State.releasePrior]
  repeat' split
  all_goals simp [hs]
@[simp] theorem State.switch_canon : s.CanonTo s.switch := State.canonTo fun hs => by simp [State.switch, hs]
@[simp] theorem State.failWaiting_canon : s.CanonTo s.failWaiting := State.canonTo fun hs => by simp [State.failWaiting, hs]
@[simp] theorem State.tryDecide_canon : s.CanonTo s.tryDecide := State.canonTo fun hs => by
  dsimp only [State.tryDecide]
  repeat' split
  all_goals simp [hs]
@[simp] theorem State.manRefused_canon {f reason} : s.CanonTo (s.manRefused f reason) := State.canonTo fun hs => by
  simp [State.manRefused, hs]
@[simp] theorem State.storeManifest_canon {m bs} : s.CanonTo (s.storeManifest m bs) := State.canonTo fun hs => by
  simp [State.storeManifest, hs]
@[simp] theorem State.manReply_canon {f b} : s.CanonTo (s.manReply f b) := State.canonTo fun hs => by
  dsimp only [State.manReply]
  repeat' split
  all_goals simp [hs]

/-! ### Infusers -/

@[simp] theorem State.dropReq_canon {p core seq} : s.CanonTo (s.dropReq p core seq) := State.canonTo fun hs => by
  simp [State.dropReq, hs]
@[simp] theorem State.cancelWreqs_canon {f} : s.CanonTo (s.cancelWreqs f) := State.canonTo fun hs => by
  simp [State.cancelWreqs, hs]
@[simp] theorem State.chunkLost_canon {p c} : s.CanonTo (s.chunkLost p c) := State.canonTo fun hs => by
  dsimp only [State.chunkLost]
  repeat' split
  all_goals simp [hs]
@[simp] theorem State.nextAttempt_canon {p c} : s.CanonTo (s.nextAttempt p c) := State.canonTo fun hs => by
  dsimp only [State.nextAttempt]
  repeat' split
  all_goals simp [hs]
@[simp] theorem State.hashFail_canon {p c} : s.CanonTo (s.hashFail p c) := State.canonTo fun hs => by simp [State.hashFail, hs]
@[simp] theorem State.hashPass_canon {p c bs} : s.CanonTo (s.hashPass p c bs) := State.canonTo fun hs => by
  dsimp only [State.hashPass]
  repeat' split
  all_goals simp [hs]
@[simp] theorem State.verifyAll_canon {p n} : s.CanonTo (s.verifyAll p n) := State.canonTo fun hs => by
  induction n generalizing s with
  | zero => exact hs
  | succ n ih =>
    dsimp only [State.verifyAll]
    split
    · exact hs
    · exact ih (by split <;> simp [hs])
@[simp] theorem State.verify_canon {p} : s.CanonTo (s.verify p) := State.canonTo fun hs => by simp [State.verify, hs]
@[simp] theorem State.begin__canon {p c} : s.CanonTo (s.begin_ p c) := State.canonTo fun hs => by
  dsimp only [State.begin_]
  repeat' split
  all_goals simp [hs]
@[simp] theorem State.wget_canon {p} : s.CanonTo (s.wget p) := State.canonTo fun hs => by
  dsimp only [State.wget]
  repeat' split
  all_goals simp [hs]
@[simp] theorem State.land_canon {p q bs x} : s.CanonTo (s.land p q bs x) := State.canonTo fun hs => by simp [State.land, hs]
@[simp] theorem State.deliverNext_canon {p fails} : s.CanonTo (s.deliverNext p fails) := State.canonTo fun hs => by
  dsimp only [State.deliverNext]
  repeat' split
  all_goals simp [hs]
@[simp] theorem State.chunkReply_canon {inf c b} : s.CanonTo (s.chunkReply inf c b) := State.canonTo fun hs => by
  simp [State.chunkReply, hs]
@[simp] theorem State.fetchFailed_canon {p tag timedOut} : s.CanonTo (s.fetchFailed p tag timedOut) :=
  State.canonTo fun hs => by
    dsimp only [State.fetchFailed]
    repeat' split
    all_goals simp [hs]
@[simp] theorem State.endPublish_canon {core seq st} : s.CanonTo (s.endPublish core seq st) := State.canonTo fun hs => by
  dsimp only [State.endPublish]
  repeat' split
  all_goals simp [hs]
@[simp] theorem State.pushPub_canon {w} : s.CanonTo (s.pushPub w) := State.canonTo fun hs => by simp [State.pushPub, hs]
@[simp] theorem State.pumpPubs_canon : s.CanonTo s.pumpPubs := State.canonTo fun hs => by simp [State.pumpPubs, hs]
@[simp] theorem State.pubAcked_canon {w} : s.CanonTo (s.pubAcked w) := State.canonTo fun hs => by simp [State.pubAcked, hs]
@[simp] theorem State.publishBytes_canon {w t} : s.CanonTo (s.publishBytes w t).2.2 := State.canonTo fun hs => by
  simp [State.publishBytes, hs]
@[simp] theorem State.startPublish_canon {i e} : s.CanonTo (s.startPublish i e) := State.canonTo fun hs => by
  dsimp only [State.startPublish]
  repeat' split
  all_goals simp [hs]
@[simp] theorem State.startWreq_canon {i e} : s.CanonTo (s.startWreq i e) := State.canonTo fun hs => by
  dsimp only [State.startWreq]
  repeat' split
  all_goals simp [hs]
@[simp] theorem State.acceptWreq_canon {p} : s.CanonTo (s.acceptWreq p) := State.canonTo fun hs => by
  dsimp only [State.acceptWreq]
  repeat' split
  all_goals simp [hs]

/-! ### Vector groups -/

@[simp] theorem State.writeCells_canon {i w t vals quiet k0 n} : s.CanonTo (s.writeCells i w t vals quiet k0 n) :=
  State.canonTo fun hs => by simp [State.writeCells, hs]
@[simp] theorem State.writeGroup_canon {i e} : s.CanonTo (s.writeGroup i e) := State.canonTo fun hs => by
  dsimp only [State.writeGroup]
  repeat' split
  all_goals simp [hs]
@[simp] theorem State.failBeat_canon {i e lane kind} : s.CanonTo (s.failBeat i e lane kind) := State.canonTo fun hs => by
  simp [State.failBeat, hs]
@[simp] theorem State.passBeat_canon {i e o} : s.CanonTo (s.passBeat i e o) := State.canonTo fun hs => by
  simp [State.passBeat, hs]
@[simp] theorem State.beatVerdict_canon {i o} : s.CanonTo (s.beatVerdict i o) := State.canonTo fun hs => by
  dsimp only [State.beatVerdict]
  repeat' split
  all_goals simp [hs]

/-! ### Samovars -/

@[simp] theorem State.holdEpoch_canon {k e} : s.CanonTo (s.holdEpoch k e) := State.canonTo fun hs => by
  simp [State.holdEpoch, hs]
@[simp] theorem State.writeErr_canon {p r} : s.CanonTo (s.writeErr p r).2 := State.canonTo fun hs => by
  dsimp only [State.writeErr]
  repeat' split
  all_goals simp [hs]
@[simp] theorem State.chunkDone_canon {k st} : s.CanonTo (s.chunkDone k st) := State.canonTo fun hs => by
  dsimp only [State.chunkDone]
  repeat' split
  all_goals simp [hs]
@[simp] theorem State.flushErr_canon : s.CanonTo s.flushErr := State.canonTo fun hs => by simp [State.flushErr, hs]
@[simp] theorem State.sliceDone_canon {g n slice} : s.CanonTo (s.sliceDone g n slice) := State.canonTo fun hs => by
  dsimp only [State.sliceDone]
  repeat' split
  all_goals simp [hs]
@[simp] theorem State.endChunk_canon {p g c st} : s.CanonTo (s.endChunk p g c st) := State.canonTo fun hs => by
  dsimp only [State.endChunk]
  repeat' split
  all_goals simp [hs]
@[simp] theorem State.ownerActs_canon {p g c} : s.CanonTo (s.ownerActs p g c).2 := State.canonTo fun hs => by
  dsimp only [State.ownerActs]
  repeat' split
  all_goals simp [hs]
@[simp] theorem State.judgeCtx_canon {g k mismatch} : s.CanonTo (s.judgeCtx g k mismatch).2 := State.canonTo fun hs => by
  dsimp only [State.judgeCtx]
  repeat' split
  all_goals simp [hs]
@[simp] theorem State.samInput_canon {p g k src st body} : s.CanonTo (s.samInput p g k src st body).2 :=
  State.canonTo fun hs => by
    dsimp only [State.samInput]
    repeat' split
    all_goals simp [hs]
@[simp] theorem State.samFuel_canon {p g k src st body n} :
    s.CanonTo (s.samFuel p g k src st body n) := State.canonTo fun hs => by
  induction n generalizing s src st body with
  | zero => exact hs
  | succ n ih =>
    dsimp only [State.samFuel]
    split
    · simp [hs]
    · exact ih (by simp [hs])
@[simp] theorem State.samWaits_canon {p n} : s.CanonTo (s.samWaits p n) := State.canonTo fun hs => by
  induction n generalizing s with
  | zero => exact hs
  | succ n ih =>
    dsimp only [State.samWaits]
    repeat' split
    all_goals first | exact hs | exact ih (by simp [hs])
@[simp] theorem State.samServe_canon : s.CanonTo s.samServe := State.canonTo fun hs => by simp [State.samServe, hs]
@[simp] theorem State.redInput_canon {p g k src st body} : s.CanonTo (s.redInput p g k src st body) :=
  State.canonTo fun hs => by simp [State.redInput, hs]
@[simp] theorem State.keepChunk_canon {g x chunk vals role h slot dst} :
    s.CanonTo (s.keepChunk g x chunk vals role h slot dst).2 :=
  State.canonTo fun hs => by
    dsimp only [State.keepChunk]
    repeat' split
    all_goals simp [hs]
@[simp] theorem State.contribute_canon {x chunk vals} : s.CanonTo (s.contribute x chunk vals).2 := State.canonTo fun hs => by
  dsimp only [State.contribute]
  repeat' split
  all_goals simp [hs]
@[simp] theorem State.offerDone_canon {i q e} : s.CanonTo (s.offerDone i q e) := State.canonTo fun hs => by
  simp [State.offerDone, hs]
@[simp] theorem State.samovarAccept_canon {i o} : s.CanonTo (s.samovarAccept i o) := State.canonTo fun hs => by
  dsimp only [State.samovarAccept]
  repeat' split
  all_goals simp [hs]
@[simp] theorem State.dropHead_canon {i q hit} : s.CanonTo (s.dropHead i q hit) := State.canonTo fun hs => by
  dsimp only [State.dropHead]
  repeat' split
  all_goals simp [hs]
@[simp] theorem State.dropHeads_canon {n i} : s.CanonTo (State.dropHeads n s i) := State.canonTo fun hs => by
  simp [State.dropHeads, hs]
@[simp] theorem State.dropGroup_canon {n} : s.CanonTo (s.dropGroup n) := State.canonTo fun hs => by simp [State.dropGroup, hs]
@[simp] theorem State.newEpoch_canon {n epoch cfg} : s.CanonTo (s.newEpoch n epoch cfg) := State.canonTo fun hs => by
  simp [State.newEpoch, hs]

/-! ### Sip units -/

@[simp] theorem State.sipNewEpoch_canon {n epoch} : s.CanonTo (s.sipNewEpoch n epoch) := State.canonTo fun hs => by
  dsimp only [State.sipNewEpoch]
  repeat' split
  all_goals simp [hs]
@[simp] theorem State.sipredDone_canon {i seq st payload} : s.CanonTo (s.sipredDone i seq st payload) :=
  State.canonTo fun hs => by
    dsimp only [State.sipredDone]
    repeat' split
    all_goals simp [hs]
@[simp] theorem State.sipResult_canon {group seq st payload} : s.CanonTo (s.sipResult group seq st payload) :=
  State.canonTo fun hs => (foldl_canon fun t w => by dsimp only; (repeat' split) <;> simp).2 (.inl hs)
@[simp] theorem State.sipDown_canon {g f} : s.CanonTo (s.sipDown g f) := State.canonTo fun hs => by simp [State.sipDown, hs]
@[simp] theorem State.sipComplete_canon {g c faults} : s.CanonTo (s.sipComplete g c faults) := State.canonTo fun hs => by
  simp [State.sipComplete, hs]
@[simp] theorem State.sipInput_canon {n src f faults} : s.CanonTo (s.sipInput n src f faults) := State.canonTo fun hs => by
  dsimp only [State.sipInput]
  repeat' split
  all_goals simp [hs]
@[simp] theorem State.startSipred_canon {i e} : s.CanonTo (s.startSipred i e) := State.canonTo fun hs => by
  dsimp only [State.startSipred]
  repeat' split
  all_goals simp [hs]
@[simp] theorem State.exchangeFail_canon {st} : s.CanonTo (s.exchangeFail st) := State.canonTo fun hs => by
  simp [State.exchangeFail, hs]
@[simp] theorem State.pumpExchange_canon {n} : s.CanonTo (s.pumpExchange n) := State.canonTo fun hs => by
  induction n generalizing s with
  | zero => exact hs
  | succ n ih =>
    dsimp only [State.pumpExchange]
    repeat' split
    · exact hs
    · exact hs
    · simp [hs]
    · exact ih (by simp [hs])
@[simp] theorem State.enterLog_canon {x} : s.CanonTo (s.enterLog x).2 := State.canonTo fun hs => by
  dsimp only [State.enterLog]
  repeat' split
  all_goals simp [hs]
@[simp] theorem State.exchangeEnd_canon {k st payload} : s.CanonTo (s.exchangeEnd k st payload) := State.canonTo fun hs => by
  dsimp only [State.exchangeEnd]
  repeat' split
  all_goals simp [hs]

/-! ### Bias and tail areas -/

@[simp] theorem State.writeParts_canon {kind base at_ ps} :
    s.CanonTo (s.writeParts kind base at_ ps) := State.canonTo fun hs => by
  induction ps generalizing s at_ with
  | nil => simp [State.writeParts, hs]
  | cons p ps ih => exact ih (by simp [hs])
@[simp] theorem State.writeTail_canon {g t} : s.CanonTo (s.writeTail g t) := State.canonTo fun hs => by
  dsimp only [State.writeTail]
  repeat' split
  all_goals simp [hs]

/-! ### The stream queues -/

@[simp] theorem State.startStream_canon {i} : s.CanonTo (s.startStream i) := State.canonTo fun hs => by
  dsimp only [State.startStream]
  repeat' split
  all_goals simp [hs]
@[simp] theorem State.startStreams_canon {n} : s.CanonTo (s.startStreams n) := State.canonTo fun hs => by
  induction n generalizing s with
  | zero => exact hs
  | succ n ih =>
    dsimp only [State.startStreams]
    split
    · exact hs
    · exact ih (by simp [hs])
@[simp] theorem State.settleStreams_canon : s.CanonTo s.settleStreams := State.canonTo fun hs => by
  simp [State.settleStreams, hs]
@[simp] theorem State.message_canon {p m types handle} (h : ∀ s : CanonState, (handle s).Canon) :
    s.CanonTo (s.message p m types handle) := State.canonTo fun hs => by
  unfold State.message
  split <;> simp [hs, h]

/-! ### The governor -/

@[simp] theorem State.boundaryFault_canon {level st item} : s.CanonTo (s.boundaryFault level st item) :=
  State.canonTo fun hs => by simp [State.boundaryFault, hs]
@[simp] theorem State.choose_canon {k} : s.CanonTo (s.choose k) := State.canonTo fun hs => by simp [State.choose, hs]
@[simp] theorem State.writeBias_canon {k a} : s.CanonTo (s.writeBias k a) := State.canonTo fun hs => by
  simp [State.writeBias, hs]
@[simp] theorem State.openStep_canon {k} : s.CanonTo (s.openStep k) := State.canonTo fun hs => by simp [State.openStep, hs]
@[simp] theorem State.cutStep_canon {summaries log} : s.CanonTo (s.cutStep summaries log) := State.canonTo fun hs => by
  simp [State.cutStep, hs]
@[simp] theorem State.closeStep_canon : s.CanonTo s.closeStep := State.canonTo fun hs => by simp [State.closeStep, hs]

/-! ### Going on from a step -/

@[simp] theorem State.beginJob_canon {step seed epoch entered} : s.CanonTo (s.beginJob step seed epoch entered) :=
  State.canonTo fun hs => by simp [State.beginJob, hs]
@[simp] theorem State.clearLog_canon : s.CanonTo s.clearLog := State.canonTo fun hs => by simp [State.clearLog, hs]
@[simp] theorem State.openJob_canon {f seed} : s.CanonTo (s.openJob f seed) := State.canonTo fun hs => by
  simp [State.openJob, hs]
@[simp] theorem State.endJob_canon : s.CanonTo s.endJob := State.canonTo fun hs => by simp [State.endJob, hs]
@[simp] theorem State.setActive_canon {version root} : s.CanonTo (s.setActive version root) := State.canonTo fun hs => by
  simp [State.setActive, hs]
@[simp] theorem State.joinEpochs_canon {sets} : s.CanonTo (s.joinEpochs sets) := State.canonTo fun hs => by
  simp [State.joinEpochs, hs]
@[simp] theorem State.resumeAt_canon {r t} : s.CanonTo (s.resumeAt r t) := State.canonTo fun hs => by simp [State.resumeAt, hs]
@[simp] theorem State.trimLog_canon {r} : s.CanonTo (s.trimLog r) := State.canonTo fun hs => by simp [State.trimLog, hs]
@[simp] theorem State.reformAll_canon : s.CanonTo s.reformAll := State.canonTo fun hs =>
  (foldl_canon fun t e => by (repeat' split) <;> simp).2 <| .inl <|
    (foldl_canon fun t e => by (repeat' split) <;> simp).2 <| .inl hs
@[simp] theorem State.rollback_canon {r} : s.CanonTo (s.rollback r) := State.canonTo fun hs => by simp [State.rollback, hs]

/-! ### Buddy copies -/

@[simp] theorem State.goCopy_canon {x} : s.CanonTo (s.goCopy x) := State.canonTo fun hs => by simp [State.goCopy, hs]
@[simp] theorem State.beginCopy_canon {n} : s.CanonTo (s.beginCopy n) := State.canonTo fun hs => by simp [State.beginCopy, hs]
@[simp] theorem State.boundaryCopy_canon {n} : s.CanonTo (s.boundaryCopy n) := State.canonTo fun hs => by
  simp [State.boundaryCopy, hs]
@[simp] theorem State.nextCopy_canon : s.CanonTo s.nextCopy := State.canonTo fun hs => by
  dsimp only [State.nextCopy]
  repeat' split
  all_goals simp [hs]
@[simp] theorem State.copyAcked_canon {x} : s.CanonTo (s.copyAcked x) := State.canonTo fun hs => by simp [State.copyAcked, hs]
@[simp] theorem State.copyFailed_canon {x} : s.CanonTo (s.copyFailed x) := State.canonTo fun hs => by
  simp [State.copyFailed, hs]
@[simp] theorem State.handEnds_canon {st} : s.CanonTo (s.handEnds st) := State.canonTo fun hs => by simp [State.handEnds, hs]
@[simp] theorem State.goHand_canon {x} : s.CanonTo (s.goHand x) := State.canonTo fun hs => by simp [State.goHand, hs]
@[simp] theorem State.handAcked_canon {x} : s.CanonTo (s.handAcked x) := State.canonTo fun hs => by simp [State.handAcked, hs]
@[simp] theorem State.wrHandover_canon {v} : s.CanonTo (s.wrHandover v).2 := State.canonTo fun hs => by
  simp [State.wrHandover, hs]
@[simp] theorem State.bcopyEnds_canon {p tag st} : s.CanonTo (s.bcopyEnds p tag st) := State.canonTo fun hs => by
  dsimp only [State.bcopyEnds]
  repeat' split
  all_goals simp [hs]
@[simp] theorem State.backIn_canon {p m} : s.CanonTo (s.backIn p m) := State.canonTo fun hs => by simp [State.backIn, hs]
@[simp] theorem State.bcopyLate_canon {p} : s.CanonTo (s.bcopyLate p) := State.canonTo fun hs => by
  dsimp only [State.bcopyLate]
  repeat' split
  all_goals simp [hs]
@[simp] theorem State.holdIn_canon {p m} : s.CanonTo (s.holdIn p m) := State.canonTo fun hs => by simp [State.holdIn, hs]
@[simp] theorem State.openFrom_canon {r t} : s.CanonTo (s.openFrom r t) := State.canonTo fun hs => by simp [State.openFrom, hs]
@[simp] theorem State.takeJob_canon {p m step} : s.CanonTo (s.takeJob p m step) := State.canonTo fun hs => by
  simp [State.takeJob, hs]
@[simp] theorem State.handIn_canon {p m} : s.CanonTo (s.handIn p m) := State.canonTo fun hs => by simp [State.handIn, hs]
@[simp] theorem State.bcopyIn_canon {p m} : s.CanonTo (s.bcopyIn p m) := State.canonTo fun hs => by simp [State.bcopyIn, hs]

/-! ### Groups -/

@[simp] theorem State.rchunkIn_canon {p m} : s.CanonTo (s.rchunkIn p m) := State.canonTo fun hs => by
  dsimp only [State.rchunkIn]
  repeat' split
  all_goals simp [hs]
@[simp] theorem State.rresendIn_canon {p m} : s.CanonTo (s.rresendIn p m) := State.canonTo fun hs => by
  dsimp only [State.rresendIn]
  repeat' split
  all_goals simp [hs]
@[simp] theorem State.rdoneIn_canon {p m} : s.CanonTo (s.rdoneIn p m) := State.canonTo fun hs => by
  dsimp only [State.rdoneIn]
  repeat' split
  all_goals simp [hs]
@[simp] theorem State.ctxLate_canon {p c} : s.CanonTo (s.ctxLate p c) := State.canonTo fun hs => by
  dsimp only [State.ctxLate]
  repeat' split
  all_goals simp [hs]
@[simp] theorem State.wrGrpCmd_canon {v} : s.CanonTo (s.wrGrpCmd v).2 := State.canonTo fun hs => by
  dsimp only [State.wrGrpCmd]
  repeat' split
  all_goals simp [hs]
@[simp] theorem State.sipFlitIn_canon {p f faults} : s.CanonTo (s.sipFlitIn p f faults) := State.canonTo fun hs => by
  dsimp only [State.sipFlitIn]
  repeat' split
  all_goals simp [hs]
@[simp] theorem State.sipSlotIn_canon {p slot b faults} : s.CanonTo (s.sipSlotIn p slot b faults) := State.canonTo fun hs => by
  simp [State.sipSlotIn, hs]

/-! ### Weight messages -/

@[simp] theorem State.wdataIn_canon {p m} : s.CanonTo (s.wdataIn p m) := State.canonTo fun hs => by
  dsimp only [State.wdataIn]
  repeat' split
  all_goals simp [hs]
@[simp] theorem State.pushIn_canon {p b} : s.CanonTo (s.pushIn p b) := State.canonTo fun hs => by
  dsimp only [State.pushIn]
  repeat' split
  all_goals simp [hs]
@[simp] theorem State.wpushIn_canon {q m} : s.CanonTo (s.wpushIn q m) := State.canonTo fun hs => by
  dsimp only [State.wpushIn]
  repeat' split
  all_goals simp [hs]
@[simp] theorem State.wackIn_canon {p m} : s.CanonTo (s.wackIn p m) := State.canonTo fun hs => by
  dsimp only [State.wackIn]
  repeat' split
  all_goals simp [hs]

/-! ### Stream ports -/

@[simp] theorem State.endRequest_canon {p t st} : s.CanonTo (s.endRequest p t st) := State.canonTo fun hs => by
  dsimp only [State.endRequest]
  repeat' split
  all_goals simp [hs]
@[simp] theorem State.endWaiting_canon {p q st} : s.CanonTo (s.endWaiting p q st) := State.canonTo fun hs => by
  dsimp only [State.endWaiting]
  repeat' split
  all_goals simp [hs]
@[simp] theorem State.endPending_canon {p st} : s.CanonTo (s.endPending p st) := State.canonTo fun hs => by
  simp [State.endPending, hs]
@[simp] theorem State.closePort_canon {p v} : s.CanonTo (s.closePort p v) := State.canonTo fun hs => by
  simp [State.closePort, hs]
@[simp] theorem State.portFailed_canon {p} : s.CanonTo (s.portFailed p) := State.canonTo fun hs => by
  simp [State.portFailed, hs]
@[simp] theorem State.fencePort_canon {p} : s.CanonTo (s.fencePort p) := State.canonTo fun hs => by simp [State.fencePort, hs]
@[simp] theorem State.helloIn_canon {p m} : s.CanonTo (s.helloIn p m) := State.canonTo fun hs => by simp [State.helloIn, hs]
@[simp] theorem State.cplIn_canon {p m} : s.CanonTo (s.cplIn p m) := State.canonTo fun hs => by
  dsimp only [State.cplIn]
  repeat' split
  all_goals simp [hs]
@[simp] theorem State.handleMsg_canon {p m} : s.CanonTo (s.handleMsg p m) := State.canonTo fun hs => by
  simp [State.handleMsg, hs]
@[simp] theorem State.takeFlit_canon {p f} : s.CanonTo (s.takeFlit p f) := State.canonTo fun hs => by
  dsimp only [State.takeFlit]
  repeat' split
  all_goals simp [hs]
theorem takePairFlit_canon {p f} {acc : Nat × List Nat × State} : acc.2.2.CanonTo (takePairFlit p acc f).2.2 :=
  State.canonTo fun hs => by
    dsimp only [takePairFlit]
    repeat' split
    all_goals simp [hs]
@[simp] theorem State.pairIn_canon {p o} : s.CanonTo (s.pairIn p o) := State.canonTo fun hs => by
  have h : ∀ (fs : List FlitBytes) (acc : Nat × List Nat × State), acc.2.2.Canon →
      (fs.foldl (takePairFlit p) acc).2.2.Canon :=
    foldl_keeps (P := fun acc : Nat × List Nat × State => acc.2.2.Canon) _ fun acc f h => takePairFlit_canon.2 (.inl h)
  dsimp only [State.pairIn]
  repeat' split
  all_goals simp [hs, h]
@[simp] theorem State.wrPortCmd_canon {p v} : s.CanonTo (s.wrPortCmd p v).2 := State.canonTo fun hs => by
  dsimp only [State.wrPortCmd]
  repeat' split
  all_goals simp [hs]
@[simp] theorem State.portRow_canon {p v mine} : s.CanonTo (s.portRow p v mine) := State.canonTo fun hs => by
  simp [State.portRow, hs]
@[simp] theorem State.wrLnkTest_canon {p v} : s.CanonTo (s.wrLnkTest p v).2 := State.canonTo fun hs => by
  simp [State.wrLnkTest, hs]

/-! ### The caddy -/

@[simp] theorem State.ckpFails_canon {st} : s.CanonTo (s.ckpFails st) := State.canonTo fun hs => by
  dsimp only [State.ckpFails]
  repeat' split
  all_goals simp [hs]
@[simp] theorem State.ckpData_canon {w} : s.CanonTo (s.ckpData w) := State.canonTo fun hs => by simp [State.ckpData, hs]
@[simp] theorem State.ckpReference_canon {w} : s.CanonTo (s.ckpReference w) := State.canonTo fun hs => by
  simp [State.ckpReference, hs]
@[simp] theorem State.beginCkp_canon {req} : s.CanonTo (s.beginCkp req) := State.canonTo fun hs => by simp [State.beginCkp, hs]
@[simp] theorem State.takeCkp_canon : s.CanonTo s.takeCkp := State.canonTo fun hs => by
  dsimp only [State.takeCkp]
  repeat' split
  all_goals simp [hs]
@[simp] theorem State.settleCkp_canon : s.CanonTo s.settleCkp := State.canonTo fun hs => by simp [State.settleCkp, hs]
@[simp] theorem State.askCkp_canon {queues preempt stop} : s.CanonTo (s.askCkp queues preempt stop) :=
  State.canonTo fun hs => by simp [State.askCkp, hs]
@[simp] theorem State.abandonForPreempt_canon : s.CanonTo s.abandonForPreempt := State.canonTo fun hs => by
  dsimp only [State.abandonForPreempt]
  repeat' split
  all_goals simp [hs]
@[simp] theorem State.notice_canon {deadline} : s.CanonTo (s.notice deadline) := State.canonTo fun hs => by
  simp [State.notice, hs]
@[simp] theorem State.closeJob_canon : s.CanonTo s.closeJob := State.canonTo fun hs => by
  dsimp only [State.closeJob]
  repeat' split
  all_goals simp [hs]
@[simp] theorem State.ckpSigned_canon {sig} : s.CanonTo (s.ckpSigned sig) := State.canonTo fun hs => by
  dsimp only [State.ckpSigned]
  repeat' split
  all_goals simp [hs]
@[simp] theorem State.ckpDone_canon {w} : s.CanonTo (s.ckpDone w) := State.canonTo fun hs => by simp [State.ckpDone, hs]
@[simp] theorem State.groupsNone_canon {f} : s.CanonTo (s.groupsNone f) :=
  foldl_canon fun t e => by
    repeat' split
    all_goals simp
@[simp] theorem State.dropHeldEpochs_canon {sets} : s.CanonTo (s.dropHeldEpochs sets) := State.canonTo fun hs => by
  simp [State.dropHeldEpochs, hs]
@[simp] theorem State.restoreApply_canon {r} : s.CanonTo (s.restoreApply r) := State.canonTo fun hs => by
  simp [State.restoreApply, hs]
@[simp] theorem State.restoreHash_canon {r} : s.CanonTo (s.restoreHash r) := State.canonTo fun hs => by
  simp [State.restoreHash, hs]
@[simp] theorem State.restoreGo_canon {r} : s.CanonTo (s.restoreGo r) := State.canonTo fun hs => by simp [State.restoreGo, hs]
@[simp] theorem State.restorePick_canon {r} : s.CanonTo (s.restorePick r).2 := State.canonTo fun hs => by
  dsimp only [State.restorePick]
  repeat' split
  all_goals simp [hs]
@[simp] theorem State.restoreHead_canon {r h} : s.CanonTo (s.restoreHead r h) := State.canonTo fun hs => by
  simp [State.restoreHead, hs]
@[simp] theorem State.restoreData_canon {r bs} : s.CanonTo (s.restoreData r bs) := State.canonTo fun hs => by
  simp [State.restoreData, hs]
@[simp] theorem State.caddyDown_canon : s.CanonTo s.caddyDown := State.canonTo fun hs => by
  dsimp only [State.caddyDown]
  repeat' split
  all_goals simp [hs]
@[simp] theorem State.nvOk_canon {c data} : s.CanonTo (s.nvOk c data) := State.canonTo fun hs => by
  dsimp only [State.nvOk]
  repeat' split
  all_goals simp [hs]
@[simp] theorem State.nvFailed_canon {c} : s.CanonTo (s.nvFailed c) := State.canonTo fun hs => by
  dsimp only [State.nvFailed]
  repeat' split
  all_goals simp [hs]
@[simp] theorem State.nvNext_canon {rest f} (h : ∀ s : CanonState, (f s).Canon) : s.CanonTo (s.nvNext rest f) :=
  State.canonTo fun hs => by
    dsimp only [State.nvNext]
    repeat' split
    all_goals simp [hs, canon_apply h]
@[simp] theorem State.nvDone_canon {ok data} : s.CanonTo (s.nvDone ok data) := State.canonTo fun hs => by
  unfold State.nvDone
  repeat' split
  all_goals simp [hs, -List.reduceReplicate]
@[simp] theorem State.nvLate_canon : s.CanonTo s.nvLate := State.canonTo fun hs => by
  dsimp only [State.nvLate]
  repeat' split
  all_goals simp [hs]
@[simp] theorem State.obeyRollback_canon {r} : s.CanonTo (s.obeyRollback r) := State.canonTo fun hs => by
  dsimp only [State.obeyRollback]
  repeat' split
  all_goals simp [hs]
@[simp] theorem State.settleOrder_canon : s.CanonTo s.settleOrder := State.canonTo fun hs => by
  dsimp only [State.settleOrder]
  repeat' split
  all_goals simp [hs]

/-! ### Regions -/

@[simp] theorem State.dropCores_canon {is} : s.CanonTo (s.dropCores is) := State.canonTo fun hs => by
  have h : ((is.foldl State.giveUp s).cancelWreqs fun q => is.contains q.core).Canon := by simp [hs]
  exact canonStores_filterMem h
@[simp] theorem State.dropClusters_canon {cs} :
    s.CanonTo (s.dropClusters cs) := State.canonTo fun hs => canonStores_filterMem hs
@[simp] theorem State.refuseHeld_canon {cs} : s.CanonTo (s.refuseHeld cs) := State.canonTo fun hs => by
  simp [State.refuseHeld, hs]
@[simp] theorem State.clearRegion_canon {r} : s.CanonTo (s.clearRegion r) := State.canonTo fun hs => by
  simp [State.clearRegion, hs]
@[simp] theorem State.tripRegion_canon {r} : s.CanonTo (s.tripRegion r) := State.canonTo fun hs => by
  simp [State.tripRegion, hs]
@[simp] theorem State.tripDies_canon {ds} : s.CanonTo (s.tripDies ds) := State.canonTo fun hs => by simp [State.tripDies, hs]

/-! ### The Blend -/

@[simp] theorem State.applyPort_canon {p e job rank} : s.CanonTo (s.applyPort p e job rank) := State.canonTo fun hs => by
  simp [State.applyPort, hs]
@[simp] theorem State.applyPorts_canon {b} : s.CanonTo (s.applyPorts b) := State.canonTo fun hs => by
  simp [State.applyPorts, hs]
@[simp] theorem State.applyGroups_canon {b} : s.CanonTo (s.applyGroups b) := State.canonTo fun hs => by
  simp [State.applyGroups, hs]
@[simp] theorem State.applyBuddy_canon {old was} : s.CanonTo (s.applyBuddy old was) := State.canonTo fun hs => by
  simp [State.applyBuddy, hs]
@[simp] theorem State.applyBlend_canon {p} : s.CanonTo (s.applyBlend p) := State.canonTo fun hs => by
  simp [State.applyBlend, hs]
@[simp] theorem State.takeBlend_canon {p check signed default_} : s.CanonTo (s.takeBlend p check signed default_) :=
  State.canonTo fun hs => by simp [State.takeBlend, hs]
@[simp] theorem State.takeDefault_canon : s.CanonTo s.takeDefault := State.canonTo fun hs => by simp [State.takeDefault, hs]
@[simp] theorem State.loadFailed_canon {f partial_} : s.CanonTo (s.loadFailed f partial_) := State.canonTo fun hs => by
  simp [State.loadFailed, hs]
@[simp] theorem State.loadDone_canon {img p} : s.CanonTo (s.loadDone img p) := State.canonTo fun hs => by
  simp [State.loadDone, hs]
@[simp] theorem State.fullLoad_canon {addr length} : s.CanonTo (s.fullLoad addr length).2 := State.canonTo fun hs => by
  dsimp only [State.fullLoad]
  repeat' split
  all_goals simp [hs]
@[simp] theorem State.earlyLoad_canon {q addr length} : s.CanonTo (s.earlyLoad q addr length).2 := State.canonTo fun hs => by
  dsimp only [State.earlyLoad]
  repeat' split
  all_goals simp [hs]
@[simp] theorem State.partialLoad_canon {addr length} : s.CanonTo (s.partialLoad addr length).2 := State.canonTo fun hs => by
  dsimp only [State.partialLoad]
  repeat' split
  all_goals simp [hs]

/-! ### Power and bring-up -/

/-- Power off empties the stores. -/
@[simp] theorem State.powerOff_canon {pwrEn inRange} : (s.powerOff pwrEn inRange).Canon := ⟨.nil _, .nil _, .nil _⟩
@[simp] theorem State.coldStart_canon {b} : (s.coldStart b).Canon := by
  dsimp only [State.coldStart]
  repeat' split
  all_goals simp
@[simp] theorem State.stackLost_canon {d} : s.CanonTo (s.stackLost d) := State.canonTo fun hs => by simp [State.stackLost, hs]
@[simp] theorem State.fenceFailed_canon {i} : s.CanonTo (s.fenceFailed i) := State.canonTo fun hs => by
  simp [State.fenceFailed, hs]
@[simp] theorem State.coreFailed_canon {i} : s.CanonTo (s.coreFailed i) := State.canonTo fun hs => by
  simp [State.coreFailed, hs]
@[simp] theorem State.coreTested_canon {failed i} : s.CanonTo (s.coreTested failed i) := State.canonTo fun hs => by
  simp [State.coreTested, hs]
@[simp] theorem State.waveDone_canon {failed} : s.CanonTo (s.waveDone failed) := State.canonTo fun hs => by
  dsimp only [State.waveDone]
  repeat' split
  all_goals simp [hs]
@[simp] theorem State.bringupDone_canon : s.CanonTo s.bringupDone := State.canonTo fun hs => by simp [State.bringupDone, hs]
@[simp] theorem State.startReset_canon {r} : s.CanonTo (s.startReset r) := State.canonTo fun hs => by
  simp [State.startReset, hs]

/-! ### Takeovers -/

@[simp] theorem State.copyStores_canon {i j tile wgb} : s.CanonTo (s.copyStores i j tile wgb) := State.canonTo fun hs => by
  have h : ((s.tsReads i 2097152 tile false).wgbReads i 262144 wgb false).Canon := by simp [hs]
  dsimp only [State.copyStores]
  rw [State.Canon, State.setCore_store]
  exact canonStores_copied (canonStores_filterMem h)
@[simp] theorem State.resumeOn_canon {i j} : s.CanonTo (s.resumeOn i j) := State.canonTo fun hs => by simp [State.resumeOn, hs]
@[simp] theorem State.releaseHeld_canon {i j} : s.CanonTo (s.releaseHeld i j) := State.canonTo fun hs => by
  simp [State.releaseHeld, hs]
@[simp] theorem State.tookOver_canon {i j} : s.CanonTo (s.tookOver i j) := State.canonTo fun hs => by simp [State.tookOver, hs]
@[simp] theorem State.takeoverOnly_canon {i j borrowed} : s.CanonTo (s.takeoverOnly i j borrowed) := State.canonTo fun hs => by
  simp [State.takeoverOnly, hs]
@[simp] theorem State.migrated_canon {core ok} : s.CanonTo (s.migrated core ok) := State.canonTo fun hs => by
  dsimp only [State.migrated]
  repeat' split
  all_goals simp [hs]

/-! ### Writes of registers -/

theorem State.wrAction_canon {b i o w x} (h : s.wrAction b i o w = some x) : s.CanonTo x.2 := State.canonTo fun hs => by
  dsimp only [State.wrAction] at h
  repeat' split at h
  all_goals cases h
  all_goals simp [hs]
@[simp] theorem State.regWrite_canon {b i o n v} : s.CanonTo (s.regWrite b i o n v).2 := State.canonTo fun hs => by
  unfold State.regWrite
  dsimp only
  split
  · exact hs
  · split
    · exact hs
    · split
      · simp [hs]
      · split
        · dsimp only; split <;> simp [hs]
        · split
          · exact (State.wrAction_canon ‹_›).2 (.inl hs)
          · split
            · exact hs
            · dsimp only; split <;> simp [hs]
@[simp] theorem State.regBytes_canon {b i o bs} : s.CanonTo (s.regBytes b i o bs).2 := State.canonTo fun hs => by
  simp [State.regBytes, hs]
@[simp] theorem State.regRow_canon {b i o v} : s.CanonTo (s.regRow b i o v) := State.canonTo fun hs => by
  simp [State.regRow, hs]

/-! ### Commands of the host -/

@[simp] theorem State.hostArrive_canon {m f} (h : ∀ s : CanonState, (f s).Canon) : s.CanonTo (s.hostArrive m f) :=
  State.canonTo fun hs => by
    unfold State.hostArrive
    repeat' split
    all_goals simp [hs, canon_apply h]
@[simp] theorem State.hostRead_canon {a n o} : s.CanonTo (s.hostRead a n o).2.2 := State.canonTo fun hs => by
  simp [State.hostRead, hs]
@[simp] theorem State.hostWrite_canon {a bs o} : s.CanonTo (s.hostWrite a bs o).2 := State.canonTo fun hs => by
  dsimp only [State.hostWrite]
  repeat' split
  all_goals simp [hs]
@[simp] theorem State.startJobOpen_canon {q c} : s.CanonTo (s.startJobOpen q c).2 := State.canonTo fun hs => by
  simp [State.startJobOpen, hs]
@[simp] theorem State.startBlendLoad_canon {q c} : s.CanonTo (s.startBlendLoad q c).2 := State.canonTo fun hs => by
  simp [State.startBlendLoad, hs]
@[simp] theorem State.startDrain_canon {q c} : s.CanonTo (s.startDrain q c).2 := State.canonTo fun hs => by
  simp [State.startDrain, hs]
@[simp] theorem State.startRegionReset_canon {q c} : s.CanonTo (s.startRegionReset q c).2 := State.canonTo fun hs => by
  simp [State.startRegionReset, hs]
@[simp] theorem State.startCheckpoint_canon {q c} : s.CanonTo (s.startCheckpoint q c).2 := State.canonTo fun hs => by
  simp [State.startCheckpoint, hs]
@[simp] theorem State.settleClose_canon : s.CanonTo s.settleClose := State.canonTo fun hs => by simp [State.settleClose, hs]
@[simp] theorem State.startJobClose_canon {q c} : s.CanonTo (s.startJobClose q c).2 := State.canonTo fun hs => by
  simp [State.startJobClose, hs]
@[simp] theorem State.startCmd_canon {q c} : s.CanonTo (s.startCmd q c).2 := State.canonTo fun hs => by
  unfold State.startCmd
  repeat' split
  all_goals simp [hs, -List.reduceReplicate]
@[simp] theorem State.runHead_canon {q} : s.CanonTo (s.runHead q) := State.canonTo fun hs => by
  dsimp only [State.runHead]
  repeat' split
  all_goals simp [hs]
@[simp] theorem State.runFuel_canon {n} : s.CanonTo (State.runFuel n s) := State.canonTo fun hs => by
  induction n generalizing s with
  | zero => exact hs
  | succ n ih =>
    dsimp only [State.runFuel]
    split
    · exact hs
    · exact ih (by simp [hs])
@[simp] theorem State.runQueues_canon : s.CanonTo s.runQueues := State.canonTo fun hs => by simp [State.runQueues, hs]
@[simp] theorem State.enqueueCmd_canon {m} : s.CanonTo (s.enqueueCmd m) := State.canonTo fun hs => by
  simp [State.enqueueCmd, hs]
@[simp] theorem State.command_canon {m code} : s.CanonTo (s.command m code) := State.canonTo fun hs => by
  simp [State.command, hs]
@[simp] theorem State.selfTested_canon {q c failed unitsFailed} : s.CanonTo (s.selfTested q c failed unitsFailed) :=
  State.canonTo fun hs => by
    have h : CanonStores (s.mem.filter fun e => !inTiles (s.regionCores c.region) e.1, s.memErr, s.crit) :=
      canonStores_filterMem hs
    simp [State.selfTested, h]
@[simp] theorem State.heldLoad_canon {q img} : s.CanonTo (s.heldLoad q img) := State.canonTo fun hs => by
  dsimp only [State.heldLoad]
  repeat' split
  all_goals simp [hs]
@[simp] theorem State.applyWaiting_canon : s.CanonTo s.applyWaiting := State.canonTo fun hs => by
  dsimp only [State.applyWaiting]
  repeat' split
  all_goals simp [hs]

/-! ### Steps and signatures -/

@[simp] theorem State.recordSigned_canon {r} : s.CanonTo (s.recordSigned r) := State.canonTo fun hs => by
  simp [State.recordSigned, hs]
@[simp] theorem State.recordUnsigned_canon {r} : s.CanonTo (s.recordUnsigned r) := State.canonTo fun hs => by
  simp [State.recordUnsigned, hs]
@[simp] theorem State.attestSigned_canon {ok q body a} : s.CanonTo (s.attestSigned ok q body a) := State.canonTo fun hs => by
  simp [State.attestSigned, hs]
@[simp] theorem State.headerSigned_canon {ok} : s.CanonTo (s.headerSigned ok) := State.canonTo fun hs => by
  dsimp only [State.headerSigned]
  repeat' split
  all_goals simp [hs]
@[simp] theorem State.signed_canon {ok} : s.CanonTo (s.signed ok) := State.canonTo fun hs => by
  dsimp only [State.signed]
  repeat' split
  all_goals simp [hs]

/-! ### Heads of queues -/

@[simp] theorem State.engineItem_canon {i e o} : s.CanonTo (s.engineItem i e o) := State.canonTo fun hs => by
  dsimp only [State.engineItem]
  repeat' split
  all_goals simp [hs]
@[simp] theorem State.vectorItem_canon {i e o} : s.CanonTo (s.vectorItem i e o) := State.canonTo fun hs => by
  simp [State.vectorItem, hs]
@[simp] theorem State.runItems_canon {i q seq o n} : s.CanonTo (s.runItems i q seq o n) := State.canonTo fun hs => by
  induction n generalizing s o with
  | zero => exact hs
  | succ n ih =>
    have hnext : ∀ e (t : State), t.Canon →
        (if t.headOf i q = some e then t else t.runItems i q seq ItemObs.clean n).Canon :=
      fun e t ht => by split; exacts [ht, ih ht]
    unfold State.runItems
    split
    · exact hs
    · split
      · exact hs
      · exact hnext _ _ (by split <;> simp [hs])
@[simp] theorem State.rxwaitDone_canon {i e o} : s.CanonTo (s.rxwaitDone i e o) := State.canonTo fun hs => by
  dsimp only [State.rxwaitDone]
  repeat' split
  all_goals simp [hs]
@[simp] theorem State.streamItem_canon {i e o} : s.CanonTo (s.streamItem i e o) := State.canonTo fun hs => by
  dsimp only [State.streamItem]
  repeat' split
  all_goals simp [hs]
@[simp] theorem State.copyRun_canon {i seq o n} : s.CanonTo (s.copyRun i seq o n) := State.canonTo fun hs => by
  induction n generalizing s with
  | zero => exact hs
  | succ n ih =>
    dsimp only [State.copyRun]
    repeat' split
    · exact hs
    · exact hs
    · exact ih (by simp [hs])

/-! ### The management port -/

@[simp] theorem State.mgtArrive_canon {m f} (h : ∀ s : CanonState, (f s).Canon) : s.CanonTo (s.mgtArrive m f) :=
  State.canonTo fun hs => by
    dsimp only [State.mgtArrive]
    repeat' split
    all_goals simp [hs, canon_apply h]
@[simp] theorem State.mgtRow_canon {m type f} (h : ∀ s : CanonState, (f s).Canon) : s.CanonTo (s.mgtRow m type f) :=
  State.canonTo fun hs => by
    unfold State.mgtRow
    split <;> simp [hs, h]
@[simp] theorem State.fenceOpen_canon {j} : s.CanonTo (s.fenceOpen j) := State.canonTo fun hs => by simp [State.fenceOpen, hs]
@[simp] theorem State.fenceParts_canon {j ports} : s.CanonTo (s.fenceParts j ports) := State.canonTo fun hs => by
  simp [State.fenceParts, hs]

end

/-! ## Every command -/

/-- The next state that a command answers is the state it gives. -/
theorem State.canon_of_next {t u : State} (h : Host.Outcome.next (φ := Fault) (ρ := Refusal) u = .next t) (hu : u.Canon) :
    t.Canon := by
  cases h
  exact hu
theorem State.canon_of_store {s t : State} (hs : s.Canon) (h : t.store = s.store) : t.Canon := by
  rw [State.Canon, h]
  exact hs

theorem execScrubRead_canon {n u} {s t : State} (hs : s.Canon) (h : execScrubRead n u s = .next t) : t.Canon := by
  dsimp only [execScrubRead] at h
  repeat' split at h
  all_goals exact State.canon_of_next h (by simp [hs])

theorem execCriticalRead_canon {a u} {s t : State} (hs : s.Canon) (h : execCriticalRead a u s = .next t) : t.Canon := by
  dsimp only [execCriticalRead] at h
  repeat' split at h
  all_goals exact State.canon_of_next h (by simp [hs])

theorem execCriticalWrite_canon {w a v} {s t : State} (hs : s.Canon) (h : execCriticalWrite w a v s = .next t) : t.Canon := by
  dsimp only [execCriticalWrite] at h
  repeat' split at h
  all_goals exact State.canon_of_next h (by simp [hs])

theorem execDload_canon {i o} {s t : State} (hs : s.Canon) (h : execDload i o s = .next t) : t.Canon := by
  simp only [execDload, Host.Outcome.next.injEq] at h
  subst h
  refine (State.issueWith_canon fun u => ?_).2 (.inl hs)
  repeat' split
  all_goals simp

/-- RECOVER_COMMIT that finds an image goes through a cold start. -/
theorem execRecoverCommit_canon {m} {s t : State} (hs : s.Canon) (h : execRecoverCommit m s = .next t) : t.Canon := by
  refine State.canon_of_next h ((State.mgtRow_canon fun u => ?_).2 (.inl hs))
  dsimp only
  repeat' split
  all_goals simp

theorem exec_canon {c : Instr} {s t : State} (hs : s.Canon) (h : exec c s = .next t) : t.Canon := by
  cases c with
  | dieErrThreshold => exact State.canon_of_store hs (execDieErrThreshold_store _ _ _ _ h)
  | ceRateLimit => exact State.canon_of_store hs (execCeRateLimit_store _ _ _ h)
  | scrubLapLimit => exact State.canon_of_store hs (execScrubLapLimit_store _ _ _ h)
  | rowCandidateWrite => exact State.canon_of_store hs (execRowCandidateWrite_store _ _ _ _ h)
  | criticalRead => exact execCriticalRead_canon hs h
  | criticalWrite => exact execCriticalWrite_canon hs h
  | scrubRead => exact execScrubRead_canon hs h
  | recoverCommit => exact execRecoverCommit_canon hs h
  | dload => exact execDload_canon hs h
  | dset | chkrd =>
    refine State.canon_of_next h ((State.issueWith_canon fun u => ?_).2 (.inl hs))
    dsimp only
    repeat' split
    all_goals simp
  | barrier =>
    refine State.canon_of_next h (iteInduction (motive := State.Canon) (fun _ => hs) fun _ =>
      (State.issueWith_canon fun u => ?_).2 (.inl hs))
    dsimp only
    repeat' split
    all_goals simp
  | batchBoundary | jfenceTimeout | pushHoldExpiry | sipCombineTimeout | tempSample =>
    exact State.canon_of_next h (by dsimp only; (repeat' split) <;> simp [hs])
  | waveStart | coreTestDone | evtSend | tokenSignalArrive | instructionComplete | waitTimeout | dmaTransferAck | dmaTimeout
  | spareTakeover | followTimeout | wpubTimeout | stageLimitExpiry | ctxTimeout | formLimitExpiry | govExchangeResult
  | eventRegisterClear | registerWrite | alertResend | preemptDeadline =>
    exact State.canon_of_next h (by (repeat' split) <;> simp [hs])
  | _ => exact State.canon_of_next h (by simp [hs])

/-- Settles O6: an idle step is a cycle, which stores nothing, and any other is the command at the front, which writes the
stores only through operations that keep their form. -/
theorem stepKeepsStoresCanonical : Obligations.StepKeepsStoresCanonical := by
  unfold Obligations.StepKeepsStoresCanonical
  intro s t hs h
  rw [State.storesWf_iff] at hs ⊢
  unfold step at h
  split at h
  case h_1 => exact State.canon_of_next h (by simp [hs])
  case h_2 c rest _ => exact exec_canon (s := { s with pending := rest }) hs h

end Sys2Proof.Machine

/-! # A whole granule of bonded memory

O49: 64 bytes at an aligned address are one granule, which a write stores with fresh check symbols and a read decodes. -/

namespace Sys2Proof.Machine

/-! ## The granule of an access -/

theorem granules_whole {a : Nat} (ha : a % 64 = 0) : granules a 64 = [a] := by
  have hcount : (a + 64 + 63) / 64 - a / 64 = 1 := by omega
  have hbase : 64 * (a / 64) = a := by omega
  simp [granules, hcount, hbase]

theorem memGate_ok {s : State} {a n : Nat} (hp : populated a n = true) (hr : (s.stack (stackOf a)).ready = true) :
    s.memGate a n = (.ok, s) := by
  simp [State.memGate, hp, hr]

/-- What a stack supplies wrong changes symbol errors, and nothing else. -/
theorem State.exists_upset_eq (s : State) (g : Nat) (u : Upset) : ∃ e, s.upset g u = { s with memErr := e } :=
  foldl_keeps (P := fun t : State => ∃ e, t = { s with memErr := e }) _
    (fun _ _ ⟨_, h⟩ => by subst h; exact ⟨_, rfl⟩) u s ⟨_, rfl⟩

/-! ## A write (R380) -/

theorem memFlipMask_ne_memWrites (n : Nat) :
    blockBase .memDie n + Reg.MEM_FLIP_MASK ≠ blockBase .memDie n + Reg.MEM_WRITES := by
  simp [Reg.MEM_FLIP_MASK, Reg.MEM_WRITES]

theorem memDie_ne_memMod (n o : Nat) {o' : Nat} (h : o' < 0x100000) :
    blockBase .memDie n + o ≠ blockBase RBlk.memDie.mod 0 + o' := by
  have hdie : 0x200100000000 ≤ blockBase .memDie n := by
    simp only [blockBase, dieWin]; omega
  have hmod : blockBase RBlk.memDie.mod 0 < 0x200002000000 := by decide
  omega

/-- The granule as it stands once it is stored, before the store is counted: its bytes, and fresh check symbols. -/
def State.granuleStored (s : State) (g : Nat) (bs : List Byte) : State :=
  { s with
    mem := putBytes s.mem g (bs.take 64)
    memErr := (List.range 72).foldl (fun m k => Smap.del m (72 * (g / 64) + k)) s.memErr }

theorem State.storeGranule_unarmed {s : State} {g : Nat} (hf : flag (s.peek .memDie (stackOf g) Reg.MEM_FLIP_MASK) 63 = false)
    (bs : List Byte) : s.storeGranule g bs = (s.granuleStored g bs).bump .memDie (stackOf g) Reg.MEM_WRITES 1 := by
  have hpeek : ((s.granuleStored g bs).bump .memDie (stackOf g) Reg.MEM_WRITES 1).peek .memDie (stackOf g) Reg.MEM_FLIP_MASK =
      s.peek .memDie (stackOf g) Reg.MEM_FLIP_MASK :=
    State.peek_bump_ne _ (memFlipMask_ne_memWrites _) (memDie_ne_memMod _ _ (by decide)) 1
  unfold State.storeGranule
  exact if_neg fun h => by rw [← State.granuleStored, hpeek, hf] at h; exact Bool.false_ne_true h.1

theorem State.memWrite_whole {s : State} {a : Nat} {bs : List Byte} (ha : a % 64 = 0) (hp : populated a 64 = true)
    (hr : (s.stack (stackOf a)).ready = true) (hl : bs.length = 64) : s.memWrite a bs = (.ok, s.storeGranule a bs) := by
  have htake : bs.take 64 = bs := List.take_of_length_le hl.le
  simp [State.memWrite, State.writeGranule, hl, memGate_ok hp hr, granules_whole ha, htake]

/-- A key below the ones deleted, or past them, reads as before; the deleted ones read as unlisted. -/
theorem Smap.get_foldl_del {β : Type} (d : β) (m : Smap β) (base n k : Nat) :
    Smap.get d ((List.range n).foldl (fun m i => Smap.del m (base + i)) m) k =
      if base ≤ k ∧ k < base + n then d else Smap.get d m k := by
  induction n with
  | zero => simp
  | succ n ih =>
    rw [List.range_succ, List.foldl_append, List.foldl_cons, List.foldl_nil]
    by_cases hk : k = base + n
    · subst hk
      rw [Smap.get_del_self, if_pos (by omega)]
    · rw [Smap.get_del_ne _ _ _ _ hk, ih]
      congr 1
      simp only [eq_iff_iff]
      omega

/-- A MEMORY_WRITE of a whole granule, whatever the stack supplied wrong in the granule before. -/
theorem exec_memoryWrite_whole {s : State} {a : Nat} {bs : List Byte} {u : Upset} (ha : a % 64 = 0) (hp : populated a 64 = true)
    (hr : (s.stack (stackOf a)).ready = true) (hl : bs.length = 64) :
    exec (.memoryWrite a bs u) s = .next (((s.upset (64 * (a / 64)) u).storeGranule a bs).answer .ok) := by
  obtain ⟨e, he⟩ := s.exists_upset_eq (64 * (a / 64)) u
  have hready : ((s.upset (64 * (a / 64)) u).stack (stackOf a)).ready = true := by rw [he]; exact hr
  change execMemoryWrite a bs u s = _
  simp [execMemoryWrite, hl, memGate_ok hp hr, State.memWrite_whole ha hp hready hl]

/-! ## A read (R377) -/

theorem syndromes_zero : syndromes (List.replicate 18 0) = (0, 0) := by decide

section
variable {s : State} {a : Nat} (hz : ∀ j, j < 4 → ∀ x ∈ s.cwErrs a j, x = 0)
include hz

theorem State.decodeGranule_clean : s.decodeGranule a = List.replicate 4 .clean := by
  have hcw : ∀ j, j < 4 → s.cwErrs a j = List.replicate 18 0 := fun j hj =>
    List.eq_replicate_iff.2 ⟨by simp [State.cwErrs], hz j hj⟩
  refine List.eq_replicate_iff.2 ⟨by simp [State.decodeGranule], fun o ho => ?_⟩
  obtain ⟨j, hj, rfl⟩ := List.mem_map.1 ho
  dsimp only
  rw [hcw j (List.mem_range.1 hj), syndromes_zero]
  exact if_pos ⟨rfl, rfl⟩

theorem State.deliver_clean {k : Nat} (hk : k < 64) : s.deliver a (List.replicate 4 .clean) k = Smap.get 0 s.mem (a + k) := by
  have herr : Smap.get 0 s.memErr (symKey a (k % 4) (k / 4)) = 0 :=
    hz (k % 4) (by omega) _ (List.mem_map.2 ⟨k / 4, List.mem_range.2 (by omega), rfl⟩)
  have hclean : nth CwOut.clean (List.replicate 4 .clean) (k % 4) = .clean := by
    rw [nth_eq_getD, List.getD_replicate _ (by omega)]
  simp only [State.deliver, hclean, herr]
  exact BitVec.xor_zero

/-- A granule with no symbol in error delivers the bytes held, and counts one clean read. -/
theorem State.readGranule_clean : s.readGranule .requester a =
    (true, getBytes s.mem a 64, (s.bump .memDie (stackOf a) Reg.MEM_READS 1).check cMem 1 0 0 0) := by
  have hdata : (List.range 64).map (s.deliver a (List.replicate 4 .clean)) = getBytes s.mem a 64 :=
    List.map_congr_left fun k hk => State.deliver_clean hz (List.mem_range.1 hk)
  simp only [State.readGranule, State.decodeGranule_clean hz, hdata]
  simp [b2n]

theorem exec_memoryRead_clean (ha : a % 64 = 0) (hp : populated a 64 = true) (hr : (s.stack (stackOf a)).ready = true) :
    exec (.memoryRead a []) s = .next (((((s.bump .memDie (stackOf a) Reg.MEM_READS 1).check cMem 1 0 0 0).send
      (.dma (getBytes s.mem a 64))).answer .ok)) := by
  have htake : (getBytes s.mem a 64).take 64 = getBytes s.mem a 64 := List.take_of_length_le (by simp [getBytes])
  change execMemoryRead a [] s = _
  simp [execMemoryRead, State.upset, memGate_ok hp hr, State.memRead, granules_whole ha, State.readGranule_clean hz, ha, htake]

end

/-! ## What stands in the store after the write -/

section
variable {s : State} {a : Nat} {bs : List Byte}

theorem State.granuleStored_get_in (hl : bs.length = 64) {k : Nat} (hk : k < 64) :
    Smap.get 0 (s.granuleStored a bs).mem (a + k) = nth 0 bs k := by
  have hbs : k < bs.length := by omega
  have htake : bs.take 64 = bs := List.take_of_length_le hl.le
  rw [State.granuleStored, htake, getByte_putBytes_in _ _ _ _ hbs, nth_eq_getD, List.getD_eq_getElem _ _ hbs]

theorem State.granuleStored_get_out (hl : bs.length = 64) {x : Nat} (hx : x < a ∨ a + 64 ≤ x) :
    Smap.get 0 (s.granuleStored a bs).mem x = Smap.get 0 s.mem x :=
  getByte_putBytes_out _ _ _ _ (by simpa [hl] using hx)

theorem State.granuleStored_symbol_sound {j i : Nat} (hj : j < 4) (hi : i < 18) :
    Smap.get 0 (s.granuleStored a bs).memErr (symKey a j i) = 0 := by
  rw [State.granuleStored, Smap.get_foldl_del, if_pos]
  simp only [symKey]
  omega

end

/-- Settles O49: a write is the granule stored and counted, and a clean read delivers the bytes held and counts itself. -/
theorem wholeGranuleIsStoredAndDelivered : Obligations.WholeGranuleIsStoredAndDelivered := by
  unfold Obligations.WholeGranuleIsStoredAndDelivered
  refine ⟨fun s a bs u ha hp hr hl hf => ?write, fun s a ha hp hr hz => ?read⟩
  case write =>
    obtain ⟨e, he⟩ := s.exists_upset_eq (64 * (a / 64)) u
    refine ⟨_, exec_memoryWrite_whole ha hp hr hl, ?_⟩
    rw [he, State.storeGranule_unarmed (s := { s with memErr := e }) hf]
    refine ⟨fun k hk => ?_, fun x hx => ?_, fun j i hj hi => ?_, ?_⟩
    · rw [State.answer_mem, State.bump_mem, State.granuleStored_get_in hl hk]
    · rw [State.answer_mem, State.bump_mem, State.granuleStored_get_out hl hx]
    · rw [State.answer_memErr, State.bump_memErr, State.granuleStored_symbol_sound hj hi]
    · rw [State.answer, State.send_out, List.getLast?_concat]
  case read =>
    exact ⟨_, exec_memoryRead_clean hz ha hp hr, by simp [State.answer], by simp [State.answer], by simp [State.answer],
      s.out, by simp [State.answer]⟩

end Sys2Proof.Machine

/-! # The reports of memory

O13, O52: what the rows of a stack's error reports, its scrubber and its flip mask do where they are heard. -/

namespace Sys2Proof.Machine

/-! ## Corrected reads past their limit, and a die past its threshold (R379, R390) -/

section
variable {s : State} {n : Nat}

theorem exec_ceRateLimit_ready (h : (s.stack n).ready = true) :
    exec (.ceRateLimit n) s = .next ((s.raise .memDie n Reg.MEM_EVENT 7).degrade 3) := by
  change execCeRateLimit n s = _
  simp [execCeRateLimit, h]

theorem exec_ceRateLimit_unready (h : (s.stack n).ready = false) : exec (.ceRateLimit n) s = .next s := by
  change execCeRateLimit n s = _
  simp [execCeRateLimit, h]

variable {die : Nat} (h : (s.stack n).ready = true)
include h

theorem exec_dieErrThreshold_same (he : (s.stack n).erased = some die) : exec (.dieErrThreshold n die) s = .next s := by
  change execDieErrThreshold n die s = _
  simp [execDieErrThreshold, h, he]

variable (hdie : die < 18)
include hdie

theorem exec_dieErrThreshold_first (he : (s.stack n).erased = none) : exec (.dieErrThreshold n die) s =
    .next (((s.setStack n { s.stack n with erased := some die }).raise .memDie n Reg.MEM_EVENT 3).degrade 1) := by
  change execDieErrThreshold n die s = _
  simp [execDieErrThreshold, h, hdie, he]

theorem exec_dieErrThreshold_second {d : Nat} (he : (s.stack n).erased = some d) (hd : d ≠ die) :
    exec (.dieErrThreshold n die) s = .next (s.raise .memDie n Reg.MEM_EVENT 4) := by
  change execDieErrThreshold n die s = _
  simp [execDieErrThreshold, h, hdie, he, hd]

end

/-- Settles O13: the row acts on a ready stack alone. -/
theorem correctableRateDegrades : Obligations.CorrectableRateDegrades :=
  fun _ _ => ⟨exec_ceRateLimit_ready, exec_ceRateLimit_unready⟩

/-! ## The scrubber (R386, R387) -/

section
variable {s : State} {n : Nat} (h : (s.stack n).ready = true) (hon : s.rflag .scrMod 0 Reg.SCR_CTRL 32 = true)
include h hon

section
variable (u : Upset) (c : CritUpset)

/-- In bonded memory the scrubber reads the granule at its position and goes on, or over to the critical words. -/
theorem exec_scrubRead_granule (hc : (s.stack n).scrubCrit = false) :
    let pos := (s.stack n).scrubPos
    let g := 0x2000000000 * n + pos
    let r := ((s.upset g u).readGranule .scrubber g).2.2
    exec (.scrubRead n ⟨u, c⟩) s =
      if pos + 64 < stackBytes then .next (r.setStack n { r.stack n with scrubPos := pos + 64 })
      else .next (r.setStack n { r.stack n with scrubPos := 0, scrubCrit := true }) := by
  change execScrubRead n ⟨u, c⟩ s = _
  simp [execScrubRead, h, hon, hc]

/-- Past bonded memory it reads the critical word at its position and goes on, or ends its lap. -/
theorem exec_scrubRead_critical (hc : (s.stack n).scrubCrit = true) :
    let pos := (s.stack n).scrubPos
    let a := critBase + 0x1000000 * n + 8 * pos
    let k := (s.critUpset a c).scrubCritical n a
    exec (.scrubRead n ⟨u, c⟩) s =
      if pos + 1 < 2097152 then .next (k.setStack n { k.stack n with scrubPos := pos + 1 }) else .next (k.lapDone n) := by
  change execScrubRead n ⟨u, c⟩ s = _
  simp [execScrubRead, h, hon, hc]

end

theorem exec_scrubLapLimit (hl : (s.stack n).lapSlow = false) : exec (.scrubLapLimit n) s =
    .next (((s.setStack n { s.stack n with lapSlow := true }).raise .scrDie n Reg.SCR_EVENT 0).mgtAlert 10 n 0) := by
  change execScrubLapLimit n s = _
  simp [execScrubLapLimit, h, hon, hl]

end

/-! ## Marked rows (R389) -/

theorem exec_rowCandidateWrite {s : State} {n k : Nat} {x : RowCand} (hx : (s.stack n).cands[k]? = some x)
    (hm : x.marked = true) (hst : x.stored = false) :
    let u := s.setStack n { s.stack n with cands := setNth (s.stack n).cands k { x with stored := true } }
    let row : SoftRow := { stack := n, row := x.row, bank := x.bank, channel := x.channel, applied := false }
    exec (.rowCandidateWrite n k) s =
      if ∃ r ∈ s.flash.soft, r.stack = n ∧ r.row = x.row ∧ r.bank = x.bank ∧ r.channel = x.channel then .next u
      else .next { u with flash := { u.flash with soft := u.flash.soft ++ [row] } } := by
  intro u row
  have hflash : u.flash = s.flash := rfl
  change execRowCandidateWrite n k s = _
  simp only [execRowCandidateWrite, hx, hm, hst, not_true_eq_false, Bool.false_eq_true, or_self, if_false]
  simp only [List.any_eq_true, decide_eq_true_eq]
  split <;> simp_all [u, row]

/-! ## The flip mask (R385) -/

section
variable {s : State} {n : Nat} {v : Word}

theorem blockGate_memDie (hp : (s.die n).phase ≠ 0) : s.blockGate .memDie n = .ok := if_neg hp

theorem State.wrFlip_ok (hr : s.topState ≠ stRunning) (hf : fld v 61 60 ≠ 3)
    (harm : flag v 63 = true → fld v 39 32 ≠ 0 ∧ (flag v 62 = false → fld v 27 24 ≠ 0 ∧ fld v 17 0 ≠ 0)) :
    s.wrFlip n v = (.ok, s.poke .memDie n Reg.MEM_FLIP_MASK (v &&& 0xF00000FF0F03FFFF)) := by
  have hfull : ¬ (flag v 63 = true ∧
      (decide (fld v 39 32 = 0) || !flag v 62 && (decide (fld v 27 24 = 0) || decide (fld v 17 0 = 0))) = true) := by
    rintro ⟨h63, hempty⟩
    obtain ⟨h39, h62⟩ := harm h63
    simp only [Bool.or_eq_true, Bool.and_eq_true, decide_eq_true_eq, Bool.not_eq_true'] at hempty
    obtain hzero | ⟨hone, hzero⟩ := hempty
    · exact h39 hzero
    · exact hzero.elim (h62 hone).1 (h62 hone).2
  unfold State.wrFlip
  simp only [hfull, hf, hr, or_self, if_false]

theorem State.regRow_flipMask (hp : (s.die n).phase ≠ 0) (hr : s.topState ≠ stRunning) (hf : fld v 61 60 ≠ 3)
    (harm : flag v 63 = true → fld v 39 32 ≠ 0 ∧ (flag v 62 = false → fld v 27 24 ≠ 0 ∧ fld v 17 0 ≠ 0)) :
    s.regRow .memDie n Reg.MEM_FLIP_MASK v =
      ((s.poke .memDie n Reg.MEM_FLIP_MASK (v &&& 0xF00000FF0F03FFFF)).answer .ok).settleStreams :=
  State.regRow_of_regWrite (State.regWrite_action (r := ⟨"MEM_FLIP_MASK", 0x30, 1, 8, [⟨63, 63, .rw, 0⟩, ⟨62, 62, .rw, 0⟩,
    ⟨61, 60, .rw, 0⟩, ⟨39, 32, .rw, 0⟩, ⟨27, 24, .rw, 0⟩, ⟨17, 0, .rw, 0⟩]⟩) rfl rfl (blockGate_memDie hp) rfl rfl
    (congrArg some (State.wrFlip_ok hr hf harm)))

theorem exec_memFlipArm (hn : n < 64) (hv : flag v 63 = true) :
    exec (.memFlipArm n v) s = .next (s.regRow .memDie n Reg.MEM_FLIP_MASK v) := by
  change execMemFlipArm n v s = _
  simp [execMemFlipArm, hn, hv]

theorem exec_memFlipCancel (hn : n < 64) (hv : flag v 63 = false) :
    exec (.memFlipCancel n v) s = .next (s.regRow .memDie n Reg.MEM_FLIP_MASK v) := by
  change execMemFlipCancel n v s = _
  simp [execMemFlipCancel, hn, hv]

end

/-- Settles O52: each row has one open arm in each case. -/
theorem memoryReportsTakeEffect : Obligations.MemoryReportsTakeEffect := by
  unfold Obligations.MemoryReportsTakeEffect
  refine ⟨fun s n die h hdie => ⟨exec_dieErrThreshold_first h hdie, exec_dieErrThreshold_same h,
      fun d => exec_dieErrThreshold_second h hdie⟩,
    fun s n u c h hon => ⟨fun hc hpos => ?granule, fun hc hpos => ?lastGranule, fun hc hpos => ?word, fun hc hpos => ?lastWord⟩,
    fun s n h hl hon => exec_scrubLapLimit h hon hl,
    fun s n k x hx hm hst => ⟨fun hnew => ?newRow, fun hheld => ?heldRow⟩,
    fun s n v hn hp hr hf => ⟨fun hv => ?cancel, fun hv hbits hsite => ?arm⟩⟩
  case granule => exact (exec_scrubRead_granule h hon u c hc).trans (if_pos hpos)
  case lastGranule => exact (exec_scrubRead_granule h hon u c hc).trans (if_neg (Nat.not_lt.2 hpos))
  case word => exact (exec_scrubRead_critical h hon u c hc).trans (if_pos hpos)
  case lastWord => exact (exec_scrubRead_critical h hon u c hc).trans (if_neg (Nat.not_lt.2 hpos))
  case newRow => exact (exec_rowCandidateWrite hx hm hst).trans (if_neg fun ⟨r, hmem, hsame⟩ => hnew r hmem hsame)
  case heldRow => exact (exec_rowCandidateWrite hx hm hst).trans (if_pos hheld)
  case cancel =>
    rw [exec_memFlipCancel hn hv, State.regRow_flipMask hp hr hf fun harm => absurd (hv.symm.trans harm) Bool.false_ne_true]
  case arm => rw [exec_memFlipArm hn hv, State.regRow_flipMask hp hr hf fun _ => ⟨hbits, hsite⟩]

end Sys2Proof.Machine

/-! # The reports of bring-up

O28: what each row of bring-up does in the phase that it belongs to. -/

namespace Sys2Proof.Machine

/-! ## Routers and stacks (R465, R466, R472) -/

section
variable {s : State} {d : Nat} (hd : d < 64) (hra : s.raising d = true)
include hd hra

theorem exec_routerTestDone (hph : (s.die d).phase = 1) (hrep : s.top.routerReports.contains d = false) (ok : Bool) :
    let u : State := { s with top := { s.top with routerReports := s.top.routerReports ++ [d] } }
    exec (.routerTestDone d ok) s = .next (
      if ok then u.setDie d { s.die d with routerOk := true, phase := 2, edgeReady := edgeDies.contains d }
      else if d = 0 ∨ d = 7 then u.routerSafe else u.fenceDie d) := by
  change execRouterTestDone d ok s = _
  simp only [execRouterTestDone, hra, hph, hrep, Nat.not_le.2 hd, not_true_eq_false, ne_eq, Bool.false_eq_true, or_self, if_false]

theorem exec_stackReady (hfe : (s.die d).fenced = false) (hph : (s.die d).phase = 2)
    (hrep : s.top.stackReports.contains d = false) (o : StackObs) :
    let gone := ((match Smap.get 0 s.fuse.erased d with | 0 => [] | k + 1 => [k]) ++ o.lostDies).eraseDups
    let u := State.setDie { s with top := { s.top with stackReports := s.top.stackReports ++ [d] } } d { s.die d with phase := 3 }
    exec (.stackReady d o) s = .next (
      if o.trained = true ∧ gone.length ≤ 1 then
        (if s.topState = stSafe then u else u.softRepair d).stackUp d gone.head? (!gone.isEmpty)
      else
        ((u.setStack d { Stack.blank with failed := true }).raise .topMod 0 Reg.TOP_EVENT 2).funcReady 0 d .unavailable) := by
  have hserves : ¬ (64 ≤ d ∨ (s.die d).fenced = true) := by simp [hd, hfe]
  have hraising : ¬ ¬ s.raising d = true := by simp [hra]
  have hdue : ¬ ((s.die d).phase ≠ 2 ∨ s.top.stackReports.contains d = true) := by simp only [hph, hrep]; decide
  exact congrArg Host.Outcome.next ((if_neg hserves).trans ((if_neg hraising).trans (if_neg hdue)))

end

/-! ## Waves and failure records (R463, R467) -/

theorem exec_waveStart {s : State} {c : Nat} {cs : List Nat} (h : s.nextWave = c :: cs) :
    exec .waveStart s = .next (((c :: cs).foldl State.powerCluster
      { s with top := { s.top with waves := s.top.waves ++ [c :: cs] } }).showDies) := by
  change execWaveStart s = _
  simp only [execWaveStart, h]

theorem exec_coreTestDone_wave {s : State} {w : List Nat} {ws : List (List Nat)} (h : s.top.waves = w :: ws)
    (bad units : List Nat) : exec (.coreTestDone bad units) s =
    .next ((s.waveDone bad).endResets.runQueues) := by
  change execCoreTestDone bad units s = _
  simp [execCoreTestDone, h]

theorem exec_failureRecordWrite_new {s : State} {i : Nat} (hdue : s.top.failCounts.contains i = true)
    (hroom : s.flash.failures.length < 256) (hnew : s.flash.failures.contains i = false) :
    exec (.failureRecordWrite i) s = .next { s with
      top := { s.top with failCounts := s.top.failCounts.erase i }
      flash := { s.flash with failures := s.flash.failures ++ [i] } } := by
  change execFailureRecordWrite i s = _
  simp only [execFailureRecordWrite, hdue, hnew, Nat.not_le.2 hroom, not_true_eq_false, Bool.false_eq_true, or_self, if_false]

/-! ## The end of BRINGUP, and the management link (R468) -/

theorem exec_bringupComplete {s : State} (hb : s.topState = stBringup) (ha : s.allReported = true) :
    exec .bringupComplete s = .next s.bringupDone.applyWaiting := by
  change execBringupComplete s = _
  simp [execBringupComplete, hb, ha]

theorem exec_mgtLinkUp {s : State} (hp : s.powered = true) (hm : s.mgtUp = false) (hc : s.tim.refclk = true) :
    exec .mgtLinkUp s = .next ((s.rbit .mgtMod 0 Reg.MGT_STATUS 0 true).funcReady 4 0 .ok) := by
  change execMgtLinkUp s = _
  simp [execMgtLinkUp, hp, hm, hc]

/-- Settles O28: each report's guards are open, and a router's and a stack's report go by what was tested. -/
theorem bringupReportsTakeEffect : Obligations.BringupReportsTakeEffect :=
  ⟨fun _ _ hd hra hph hrep => ⟨exec_routerTestDone hd hra hph hrep true, exec_routerTestDone hd hra hph hrep false⟩,
    fun _ _ o hd hfe hra hph hrep => exec_stackReady hd hra hfe hph hrep o,
    fun _ _ _ => exec_waveStart,
    fun _ _ _ bad units h => exec_coreTestDone_wave h bad units,
    fun _ _ => exec_failureRecordWrite_new,
    fun _ => exec_bringupComplete,
    fun _ => exec_mgtLinkUp⟩

end Sys2Proof.Machine

/-! # The host interface

O29: what the messages of the host and its link do. O30: how events are numbered and acknowledged. O32: the commands on a region, and
how a drain and a self-test end. -/

namespace Sys2Proof.Machine

/-! ## Events (R415) -/

/-- Event `e` at place `k` of the buffer takes the next number, and a RECORD's slot of the ring notes it. -/
def State.numbered (s : State) (k : Nat) (e : Evt) : State :=
  let u : State := { s with host := { s.host with
    nextSeq := s.host.nextSeq + 1, buf := setNth s.host.buf k { e with seq := s.host.nextSeq } } }
  if e.code = evRecord then u.modSlot (leAt e.payload 4 1) fun x => { x with evt := s.host.nextSeq } else u

/-- Beyond the ring only the host interface changes. -/
theorem State.numbered_eq (s : State) (k : Nat) (e : Evt) : ∃ ring, s.numbered k e = { s with
    record := ring
    host := { s.host with nextSeq := s.host.nextSeq + 1, buf := setNth s.host.buf k { e with seq := s.host.nextSeq } } } := by
  unfold State.numbered
  split
  · exact ⟨_, rfl⟩
  · exact ⟨_, rfl⟩

section
variable {s : State} {k : Nat} {e : Evt} (hk : s.host.buf[k]? = some e) (he : e.seq = 0)
  (hfirst : ∀ j x, j < k → s.host.buf[j]? = some x → x.seq ≠ 0)
include hk he hfirst

theorem State.find_unsent : s.host.buf.find? (fun e => decide (e.seq = 0)) = some e := by
  obtain ⟨hlt, hget⟩ := List.getElem?_eq_some_iff.mp hk
  refine List.find?_eq_some_iff_getElem.mpr ⟨decide_eq_true he, k, hlt, hget, fun j hj => ?_⟩
  simpa using hfirst j _ hj (List.getElem?_eq_getElem (hj.trans hlt))

/-- The event that is sent is found in the buffer at its own place: none before it is unsent. -/
theorem State.findIdx_unsent :
    s.host.buf.findIdx? (fun x => decide (x.seq = 0 ∧ x.code = e.code ∧ x.payload = e.payload)) = some k := by
  obtain ⟨hlt, hget⟩ := List.getElem?_eq_some_iff.mp hk
  refine List.findIdx?_eq_some_iff_getElem.mpr ⟨hlt, by simp [hget, he], fun j hj => ?_⟩
  have hsent := hfirst j _ hj (List.getElem?_eq_getElem (hj.trans hlt))
  simp [hsent]

/-- An event sent for the first time is numbered in its place, counted, and leaves. -/
theorem State.sendEvt_first :
    s.sendEvt e = ((s.numbered k e).add .hifMod 0 Reg.HIF_EVTS_SENT 1).send (.evt s.host.nextSeq e.code e.payload) := by
  simp only [State.sendEvt, he, State.findIdx_unsent hk he hfirst]
  rfl

theorem exec_evtSend (hup : s.host.linkUp = true)
    (hwin : (s.host.buf.filter fun e => !decide (e.seq = 0)).length < s.rfield .hifMod 0 Reg.HIF_CTRL 39 32) :
    exec .evtSend s = .next (s.sendEvt e) := by
  change execEvtSend s = _
  simp [execEvtSend, State.find_unsent hk he hfirst, hup, hwin]

end

@[simp] theorem State.freeSlots_host (s : State) : s.freeSlots.host = s.host := (rfl)

theorem State.ackEvents_host {s : State} {n : Nat} (h0 : n ≠ 0) (hn : n < s.host.nextSeq) (ha : s.host.acked ≤ n) :
    (s.ackEvents n).host =
      { s.host with acked := n, buf := s.host.buf.filter fun e => decide (e.seq = 0) || decide (n < e.seq) } := by
  have hgiven : ¬(n = 0 ∨ s.host.nextSeq ≤ n ∨ n < s.host.acked) := by omega
  simp only [State.ackEvents, if_neg hgiven, State.freeSlots_host]

/-! ## Messages that R408 lets through -/

section
variable {s : State} {m : HostMsg}

theorem exec_mrd (h : s.HostHears m 1) (o : StoreObs) (n : Nat) :
    let r := s.hostRead (fld m.arg 48 0) m.length o
    exec (.mrd ⟨m, o, n⟩) s =
      .next (((r.2.2.add .hifMod 0 Reg.HIF_FLIT_RETRIES n).add .hifMod 0 Reg.HIF_MRD 1).sendCpl m.tag r.1 r.2.1) :=
  congrArg Host.Outcome.next ((if_neg (not_not.mpr h.kind)).trans (State.hostArrive_of_hears h _))

theorem exec_mwr (h : s.HostHears m 2) (o : StoreObs) (n : Nat) :
    let r := s.hostWrite (fld m.arg 48 0) m.payload o
    exec (.mwr ⟨m, o, n⟩) s =
      .next (((r.2.add .hifMod 0 Reg.HIF_FLIT_RETRIES n).add .hifMod 0 Reg.HIF_MWR 1).sendCpl m.tag r.1 []) :=
  congrArg Host.Outcome.next ((if_neg (not_not.mpr h.kind)).trans (State.hostArrive_of_hears h _))

theorem exec_eack (h : s.HostHears m 4) : exec (.eack m) s = .next (s.ackEvents (fld m.arg 31 0)) :=
  congrArg Host.Outcome.next ((if_neg (not_not.mpr h.kind)).trans (State.hostArrive_of_hears h _))

theorem accessBad_of_crosses {a n : Nat} (h : 256 < a % 256 + n) : accessBad a n = true := by
  simp [accessBad, h]

theorem State.hostRead_of_crosses {a n : Nat} (h : 256 < a % 256 + n) (o : StoreObs) :
    s.hostRead a n o = (.malformed, [], s) := if_pos (accessBad_of_crosses h)

theorem State.hostWrite_of_crosses {a : Nat} {bs : List Byte} (h : 256 < a % 256 + bs.length) (o : StoreObs) :
    s.hostWrite a bs o = (.malformed, s) := if_pos (accessBad_of_crosses h)

theorem msgBad_of_reserved (h : m.type = 0 ∨ 5 ≤ m.type) : msgBad m = true := by
  rcases h with h | h
  · simp [msgBad, h]
  · obtain ⟨k, hk⟩ := Nat.exists_eq_add_of_le' h
    simp [msgBad, hk]

theorem exec_reservedHostMessage (hup : s.host.linkUp = true) (h : m.type = 0 ∨ 5 ≤ m.type) :
    exec (.reservedHostMessage m) s = .next (s.refuseMsg m) := by
  have hres : ¬((1 ≤ m.type ∧ m.type ≤ 4) ∧ ¬(m.type = 3 ∧ (cmdCode m = 0 ∨ cAttest < cmdCode m))) := by omega
  have harr : s.hostArrive m (fun s => s) = s.refuseMsg m := by simp [State.hostArrive, hup, msgBad_of_reserved h]
  exact congrArg Host.Outcome.next ((if_neg hres).trans harr)

end

/-! ## The host link (R417, R419) -/

theorem exec_hostLinkDown {s : State} (hup : s.host.linkUp = true) :
    let lost := s.host.tags.filter fun t => !s.host.stale.contains t
    exec .hostLinkDown s = .next { s with host := { s.host with
      linkUp := false, ready := false, stale := s.host.stale ++ lost, discarded := s.host.discarded + lost.length } } :=
  congrArg Host.Outcome.next (if_neg (not_not.mpr hup))

/-- The state in which the link has come up, before it says so. -/
def State.linkedUp (s : State) : State := { s with host := { s.host with linkUp := true, ready := true, trained := true } }

section
variable {s : State} (hdown : s.host.linkUp = false) (htrain : s.hostCanTrain = true)
include hdown htrain

theorem exec_hostLinkUp_first (h : s.host.trained = false) :
    exec .hostLinkUp s =
      .next (s.linkedUp.hostEvent evState (leBytes 1 s.topState ++ leBytes 1 s.health ++ leBytes 1 stCold)) := by
  change execHostLinkUp s = _
  simp only [execHostLinkUp, hdown, htrain, h]
  rfl

theorem exec_hostLinkUp_again (h : s.host.trained = true) :
    let v := (s.linkedUp.add .hifMod 0 Reg.HIF_RETRAINS 1).raise .hifMod 0 Reg.HIF_EVENT 0
    let e : Evt := { seq := 0, code := evLinkRestored, payload := padTo 16 (leBytes 4 v.host.discarded) }
    let w : State := { v with host := { v.host with discarded := 0, buf := v.host.buf ++ [e] } }
    exec .hostLinkUp s = .next ((s.host.buf.filter fun e => !decide (e.seq = 0)).foldl State.sendEvt (w.sendEvt e)) := by
  change execHostLinkUp s = _
  simp only [execHostLinkUp, hdown, htrain, h]
  rfl

end

/-- Settles O30: the first event never sent is the one that EVT_SEND finds, by itself and by its content, and what an acknowledgement
frees is of the ring alone. -/
theorem eventsAreNumberedAndAcknowledged : Obligations.EventsAreNumberedAndAcknowledged := by
  refine ⟨fun s k e hup hwin hk he hfirst => ?send, fun s m h h0 hn ha => ?ack⟩
  case send =>
    obtain ⟨ring, hnum⟩ := s.numbered_eq k e
    have hexec := (exec_evtSend hk he hfirst hup hwin).trans (congrArg Host.Outcome.next (State.sendEvt_first hk he hfirst))
    rw [hnum] at hexec
    exact ⟨_, hexec, by simp, by simp, by simp, State.peek_add_self ..⟩
  case ack =>
    have hhost := State.ackEvents_host h0 hn ha
    exact ⟨_, exec_eack h, by rw [hhost], by rw [hhost]⟩

/-- Settles O29: each clause is its row behind the checks of R408 or the state of the link; an access that crosses a 256-byte boundary
reaches nothing. -/
theorem hostMessagesTakeEffect : Obligations.HostMessagesTakeEffect := by
  refine ⟨fun s m o n h => ⟨exec_mrd h o n, fun hx => ?mrd⟩, fun s m o n h => ⟨exec_mwr h o n, fun hx => ?mwr⟩,
    fun _ _ => exec_eack, fun _ _ => exec_reservedHostMessage, fun _ => exec_hostLinkDown,
    fun _ hdown htrain => ⟨exec_hostLinkUp_first hdown htrain, exec_hostLinkUp_again hdown htrain⟩⟩
  case mrd => rw [exec_mrd h, State.hostRead_of_crosses hx]
  case mwr => rw [exec_mwr h, State.hostWrite_of_crosses hx]

/-! ## The commands on a region (R470, R491, R495) -/

/-- That WARM_IDLE ends leaves the regions that the Blend names. -/
theorem State.knownRegion_begun (s : State) (m : HostMsg) (r : Nat) : (s.begun m).knownRegion r = (s.taken m).knownRegion r := by
  rw [State.knownRegion, State.begun, State.blend_of_calm (State.leaveWarm_calm _), State.knownRegion]

section
variable {s : State} {m : HostMsg} (ha : s.accepts m) (hr : (s.begun m).knownRegion (leAt m.payload 0 2) = true)
include ha hr

/-- A command that names a region of the Blend, and a test of 1 to 3 where it names one, is carried out. -/
theorem State.command_onRegion {code : Nat} (hc : code = cRegionDrain ∨ code = cRegionReset ∨ code = cSelfTest)
    (htest : code = cSelfTest → 1 ≤ leAt m.payload 2 2 ∧ leAt m.payload 2 2 ≤ 3) (h : s.Takes m code) :
    s.command m code = State.ended m.queue (hostEffect code (s.begun m) m.queue (hostCmd m)) := by
  have hkind : (hostCmd m).code = code := h.kind
  have hknown : (s.taken m).knownRegion (hostCmd m).region = true := (s.knownRegion_begun m _).symm.trans hr
  have hok : (s.taken m).cmdOk (hostCmd m) = true := by
    simp only [State.cmdOk, h.body, hkind, hknown, hostCmd_body]
    rcases hc with rfl | rfl | rfl
    · rfl
    · rfl
    · simp [cSelfTest, cJobOpen, cRegionDrain, cRegionReset, htest rfl]
  exact State.command_of_accepted h ha (by rcases hc with rfl | rfl | rfl <;> decide) hok

theorem exec_regionDrain (h : s.Takes m cRegionDrain) :
    exec (.regionDrain m) s = .next (State.ended m.queue ((s.begun m).startDrain m.queue (hostCmd m))) :=
  congrArg Host.Outcome.next (State.command_onRegion ha hr (.inl rfl) (absurd · (by decide)) h)

theorem exec_regionReset (h : s.Takes m cRegionReset) :
    exec (.regionReset m) s = .next (State.ended m.queue ((s.begun m).startRegionReset m.queue (hostCmd m))) :=
  congrArg Host.Outcome.next (State.command_onRegion ha hr (.inr (.inl rfl)) (absurd · (by decide)) h)

theorem exec_selfTest (h : s.Takes m cSelfTest) (htest : 1 ≤ leAt m.payload 2 2 ∧ leAt m.payload 2 2 ≤ 3) :
    exec (.selfTest m) s = .next (State.ended m.queue ((s.begun m).startSelfTest m.queue (hostCmd m))) :=
  congrArg Host.Outcome.next (State.command_onRegion ha hr (.inr (.inr rfl)) (fun _ => htest) h)

end

/-! ### What each answers where no other queue has a command on the region -/

section
variable {s : State} {q : Nat} {c : Cmd} (ht : s.regionTaken q c.region = false)
include ht

theorem State.startDrain_drained (hd : (s.region c.region).drained = true) : s.startDrain q c = (some (.ok, []), s) := by
  simp [State.startDrain, ht, hd]

theorem State.startDrain_begins (hd : (s.region c.region).drained = false) :
    let v := (s.regionCores c.region).foldl State.stopCore (s.setRegion c.region { s.region c.region with draining := true })
    s.startDrain q c =
      (none, if s.regionBusy c.region then v.stepFail csDrain lvRollback .unavailable c.region else v) := by
  simp only [State.startDrain, ht, hd]
  rfl

theorem State.startRegionReset_begins (hd : (s.region c.region).resetting = false) :
    s.startRegionReset q c = (none, (((s.startReset c.region).settleOrder).holdQueued c.region).endResets) := by
  simp [State.startRegionReset, ht, hd]

theorem State.startSelfTest_begins (hd : (s.region c.region).drained = true) :
    s.startSelfTest q c = (none, s.setCmdq q { s.cmdq q with
      running := (s.cmdq q).running.map fun y => { y with data := [s.now] } }) := by
  simp [State.startSelfTest, ht, hd]

end

theorem exec_regionDrainComplete {s : State} {r : Nat} (hd : (s.region r).draining = true) (hi : s.regionIdle r = true) :
    let u := ((s.setRegion r { s.region r with draining := false, drained := true, released := false }).regionEvent r 0).restState
    exec (.regionDrainComplete r) s =
      .next ((u.finishCmds (u.queuesRunning fun c => decide (c.code = cRegionDrain ∧ c.region = r)) .ok).runQueues) := by
  have hends : ¬(¬(s.region r).draining = true ∨ ¬s.regionIdle r = true) := by simp [hd, hi]
  exact congrArg Host.Outcome.next (if_neg hends)

theorem exec_coreTestDone_selfTest {s : State} {q : Nat} {qs : List Nat} {c : Cmd} (hw : s.top.waves = [])
    (hq : (s.queuesRunning fun c => decide (c.code = cSelfTest)) = q :: qs) (hc : (s.cmdq q).running = some c)
    (bad units : List Nat) : exec (.coreTestDone bad units) s = .next ((s.selfTested q c bad units).runQueues) := by
  change execCoreTestDone bad units s = _
  simp [execCoreTestDone, hw, hq, hc]

/-- Settles O32: a command on a region that the Blend names is carried out by its row's own handler, and each clause is what that
handler answers where nothing refuses it. -/
theorem regionCommandsTakeEffect : Obligations.RegionCommandsTakeEffect := by
  refine ⟨fun s m ha hr ht => ⟨fun h hd => ?drained, fun h hd => ?drain, fun h hd => ?reset, fun h hlo hhi hd => ?selfTest⟩,
    fun _ _ => exec_regionDrainComplete, fun _ _ _ _ bad units hw hq hc => exec_coreTestDone_selfTest hw hq hc bad units⟩
  case drained => rw [exec_regionDrain ha hr h, State.startDrain_drained ht hd, State.ended_some]
  case drain => rw [exec_regionDrain ha hr h, State.startDrain_begins ht hd, State.ended_none]; rfl
  case reset => rw [exec_regionReset ha hr h, State.startRegionReset_begins ht hd, State.ended_none]; rfl
  case selfTest => rw [exec_selfTest ha hr h ⟨hlo, hhi⟩, State.startSelfTest_begins ht hd, State.ended_none]

end Sys2Proof.Machine

/-! # What no command undoes

O7: no command touches the queue, lifts a seal, lowers the fused epoch or changes a fuse of manufacture. -/

namespace Sys2Proof.Machine

/-- Every command, by its own law: a write of a register can seal the module or raise the epoch (R543, R547), and every other command
leaves queue and fuses as they are. -/
theorem exec_kept {c : Instr} {s t : State} (h : exec c s = .next t) : s.Kept t := by
  cases c with
  | mwr m => exact execMwr_kept m s t h
  | topRegionRelease w v => exact execTopRegionRelease_kept w v s t h
  | memFlipArm stack v => exact execMemFlipArm_kept stack v s t h
  | memFlipCancel stack v => exact execMemFlipCancel_kept stack v s t h
  | secSeal w v same => exact execSecSeal_kept w v same s t h
  | fwUpdate w v same => exact execFwUpdate_kept w v same s t h
  | fwEpochRaise w v => exact execFwEpochRaise_kept w v s t h
  | engTauWrite w v => exact execEngTauWrite_kept w v s t h
  | engSrSeedWrite w k v => exact execEngSrSeedWrite_kept w k v s t h
  | engSrCounterWrite w core v => exact execEngSrCounterWrite_kept w core v s t h
  | timCtrlWrite w v => exact execTimCtrlWrite_kept w v s t h
  | eventRegisterClear w addr v => exact execEventRegisterClear_kept w addr v s t h
  | registerWrite w addr width v => exact execRegisterWrite_kept w addr width v s t h
  | pwrEnAssert b => exact State.kept_of_fixed (execPwrEnAssert_fixed b s t h)
  | pwrEnDeassert => exact State.kept_of_fixed (execPwrEnDeassert_fixed s t h)
  | inputOutOfRange => exact State.kept_of_fixed (execInputOutOfRange_fixed s t h)
  | ringStart => exact State.kept_of_fixed (execRingStart_fixed s t h)
  | routerTestDone die ok => exact State.kept_of_fixed (execRouterTestDone_fixed die ok s t h)
  | stackReady die o => exact State.kept_of_fixed (execStackReady_fixed die o s t h)
  | waveStart => exact State.kept_of_fixed (execWaveStart_fixed s t h)
  | coreTestDone failed unitsFailed => exact State.kept_of_fixed (execCoreTestDone_fixed failed unitsFailed s t h)
  | failureRecordWrite core => exact State.kept_of_fixed (execFailureRecordWrite_fixed core s t h)
  | bringupComplete => exact State.kept_of_fixed (execBringupComplete_fixed s t h)
  | mrd m => exact State.kept_of_fixed (execMrd_fixed m s t h)
  | eack m => exact State.kept_of_fixed (execEack_fixed m s t h)
  | evtSend => exact State.kept_of_fixed (execEvtSend_fixed s t h)
  | hostLinkDown => exact State.kept_of_fixed (execHostLinkDown_fixed s t h)
  | hostLinkUp => exact State.kept_of_fixed (execHostLinkUp_fixed s t h)
  | jobOpen m => exact State.kept_of_fixed (execJobOpen_fixed m s t h)
  | stepData m => exact State.kept_of_fixed (execStepData_fixed m s t h)
  | blendLoadFull m => exact State.kept_of_fixed (execBlendLoadFull_fixed m s t h)
  | blendLoadPartial m => exact State.kept_of_fixed (execBlendLoadPartial_fixed m s t h)
  | regionDrain m => exact State.kept_of_fixed (execRegionDrain_fixed m s t h)
  | regionDrainComplete region => exact State.kept_of_fixed (execRegionDrainComplete_fixed region s t h)
  | regionReset m => exact State.kept_of_fixed (execRegionReset_fixed m s t h)
  | selfTest m => exact State.kept_of_fixed (execSelfTest_fixed m s t h)
  | checkpoint m => exact State.kept_of_fixed (execCheckpoint_fixed m s t h)
  | restore m => exact State.kept_of_fixed (execRestore_fixed m s t h)
  | restoreDryRun m => exact State.kept_of_fixed (execRestoreDryRun_fixed m s t h)
  | jobClose m => exact State.kept_of_fixed (execJobClose_fixed m s t h)
  | attest m => exact State.kept_of_fixed (execAttest_fixed m s t h)
  | stepStart => exact State.kept_of_fixed (execStepStart_fixed s t h)
  | stepBoundary => exact State.kept_of_fixed (execStepBoundary_fixed s t h)
  | signatureComplete ok => exact State.kept_of_fixed (execSignatureComplete_fixed ok s t h)
  | batchBoundary => exact State.kept_of_fixed (execBatchBoundary_fixed s t h)
  | nop core o => exact State.kept_of_fixed (execNop_fixed core o s t h)
  | end_ core o => exact State.kept_of_fixed (execEnd_fixed core o s t h)
  | jump core o => exact State.kept_of_fixed (execJump_fixed core o s t h)
  | loop core o => exact State.kept_of_fixed (execLoop_fixed core o s t h)
  | setlc core o => exact State.kept_of_fixed (execSetlc_fixed core o s t h)
  | dload core o => exact State.kept_of_fixed (execDload_fixed core o s t h)
  | dset core o => exact State.kept_of_fixed (execDset_fixed core o s t h)
  | wait core o => exact State.kept_of_fixed (execWait_fixed core o s t h)
  | signal core o => exact State.kept_of_fixed (execSignal_fixed core o s t h)
  | tokenSignalArrive src target => exact State.kept_of_fixed (execTokenSignalArrive_fixed src target s t h)
  | barrier core o => exact State.kept_of_fixed (execBarrier_fixed core o s t h)
  | drainu core o => exact State.kept_of_fixed (execDrainu_fixed core o s t h)
  | batch core o => exact State.kept_of_fixed (execBatch_fixed core o s t h)
  | copy core o => exact State.kept_of_fixed (execCopy_fixed core o s t h)
  | copyh core o => exact State.kept_of_fixed (execCopyh_fixed core o s t h)
  | wreq core o => exact State.kept_of_fixed (execWreq_fixed core o s t h)
  | wdone core o => exact State.kept_of_fixed (execWdone_fixed core o s t h)
  | publish core o => exact State.kept_of_fixed (execPublish_fixed core o s t h)
  | mm core o => exact State.kept_of_fixed (execMm_fixed core o s t h)
  | mmw core o => exact State.kept_of_fixed (execMmw_fixed core o s t h)
  | mmrs core o => exact State.kept_of_fixed (execMmrs_fixed core o s t h)
  | wgbrs core o => exact State.kept_of_fixed (execWgbrs_fixed core o s t h)
  | wgbclr core o => exact State.kept_of_fixed (execWgbclr_fixed core o s t h)
  | smm core o => exact State.kept_of_fixed (execSmm_fixed core o s t h)
  | smmt core o => exact State.kept_of_fixed (execSmmt_fixed core o s t h)
  | sdwrs core o => exact State.kept_of_fixed (execSdwrs_fixed core o s t h)
  | urnmerge core o => exact State.kept_of_fixed (execUrnmerge_fixed core o s t h)
  | pred core o => exact State.kept_of_fixed (execPred_fixed core o s t h)
  | smmp core o => exact State.kept_of_fixed (execSmmp_fixed core o s t h)
  | vop core o => exact State.kept_of_fixed (execVop_fixed core o s t h)
  | vcvt core o => exact State.kept_of_fixed (execVcvt_fixed core o s t h)
  | vfn core o => exact State.kept_of_fixed (execVfn_fixed core o s t h)
  | vred core o => exact State.kept_of_fixed (execVred_fixed core o s t h)
  | softmax core o => exact State.kept_of_fixed (execSoftmax_fixed core o s t h)
  | norm core o => exact State.kept_of_fixed (execNorm_fixed core o s t h)
  | dfo core o => exact State.kept_of_fixed (execDfo_fixed core o s t h)
  | dsoftmax core o => exact State.kept_of_fixed (execDsoftmax_fixed core o s t h)
  | adamw core o => exact State.kept_of_fixed (execAdamw_fixed core o s t h)
  | sgdm core o => exact State.kept_of_fixed (execSgdm_fixed core o s t h)
  | vrs core o => exact State.kept_of_fixed (execVrs_fixed core o s t h)
  | rxwait core o => exact State.kept_of_fixed (execRxwait_fixed core o s t h)
  | sipred core o => exact State.kept_of_fixed (execSipred_fixed core o s t h)
  | chkrd core o => exact State.kept_of_fixed (execChkrd_fixed core o s t h)
  | instructionComplete core q => exact State.kept_of_fixed (execInstructionComplete_fixed core q s t h)
  | waitTimeout core inQueue => exact State.kept_of_fixed (execWaitTimeout_fixed core inQueue s t h)
  | tilePassVerdict core o => exact State.kept_of_fixed (execTilePassVerdict_fixed core o s t h)
  | vectorBeatCheck core o => exact State.kept_of_fixed (execVectorBeatCheck_fixed core o s t h)
  | tileStoreWriteback core word => exact State.kept_of_fixed (execTileStoreWriteback_fixed core word s t h)
  | meshFlitReceive die port f => exact State.kept_of_fixed (execMeshFlitReceive_fixed die port f s t h)
  | dmaTransferAck core a => exact State.kept_of_fixed (execDmaTransferAck_fixed core a s t h)
  | dmaTimeout core => exact State.kept_of_fixed (execDmaTimeout_fixed core s t h)
  | topHotLevelReport die level port core share =>
    exact State.kept_of_fixed (execTopHotLevelReport_fixed die level port core share s t h)
  | spareTakeover core o => exact State.kept_of_fixed (execSpareTakeover_fixed core o s t h)
  | migrationComplete core ok => exact State.kept_of_fixed (execMigrationComplete_fixed core ok s t h)
  | thermalTrip die => exact State.kept_of_fixed (execThermalTrip_fixed die s t h)
  | dieRelease die => exact State.kept_of_fixed (execDieRelease_fixed die s t h)
  | wreqAccept port => exact State.kept_of_fixed (execWreqAccept_fixed port s t h)
  | wget port => exact State.kept_of_fixed (execWget_fixed port s t h)
  | wdata port m => exact State.kept_of_fixed (execWdata_fixed port m s t h)
  | wpush port m => exact State.kept_of_fixed (execWpush_fixed port m s t h)
  | attemptTimeout port tag => exact State.kept_of_fixed (execAttemptTimeout_fixed port tag s t h)
  | followTimeout port => exact State.kept_of_fixed (execFollowTimeout_fixed port s t h)
  | pushHoldExpiry port => exact State.kept_of_fixed (execPushHoldExpiry_fixed port s t h)
  | chunkDeliver port => exact State.kept_of_fixed (execChunkDeliver_fixed port s t h)
  | wack port m => exact State.kept_of_fixed (execWack_fixed port m s t h)
  | wpubTimeout port tag => exact State.kept_of_fixed (execWpubTimeout_fixed port tag s t h)
  | stageVersion w v => exact State.kept_of_fixed (execStageVersion_fixed w v s t h)
  | stageCancel w v => exact State.kept_of_fixed (execStageCancel_fixed w v s t h)
  | manifestRetry => exact State.kept_of_fixed (execManifestRetry_fixed s t h)
  | stageLimitExpiry => exact State.kept_of_fixed (execStageLimitExpiry_fixed s t h)
  | rchunk port m => exact State.kept_of_fixed (execRchunk_fixed port m s t h)
  | samovarAccept core => exact State.kept_of_fixed (execSamovarAccept_fixed core s t h)
  | rresend port m => exact State.kept_of_fixed (execRresend_fixed port m s t h)
  | rdone port m => exact State.kept_of_fixed (execRdone_fixed port m s t h)
  | ctxTimeout port ctx => exact State.kept_of_fixed (execCtxTimeout_fixed port ctx s t h)
  | gs1RdoneTimeout port => exact State.kept_of_fixed (execGs1RdoneTimeout_fixed port s t h)
  | gform port m => exact State.kept_of_fixed (execGform_fixed port m s t h)
  | formLimitExpiry sip group => exact State.kept_of_fixed (execFormLimitExpiry_fixed sip group s t h)
  | groupReform w v => exact State.kept_of_fixed (execGroupReform_fixed w v s t h)
  | sipGroupReform w v => exact State.kept_of_fixed (execSipGroupReform_fixed w v s t h)
  | sipFlitReceive port slot f faults => exact State.kept_of_fixed (execSipFlitReceive_fixed port slot f faults s t h)
  | sipCombineTimeout port => exact State.kept_of_fixed (execSipCombineTimeout_fixed port s t h)
  | sipNak port f => exact State.kept_of_fixed (execSipNak_fixed port f s t h)
  | siphello port slot f => exact State.kept_of_fixed (execSiphello_fixed port slot f s t h)
  | sipTrainComplete port => exact State.kept_of_fixed (execSipTrainComplete_fixed port s t h)
  | sipLaneLoss port => exact State.kept_of_fixed (execSipLaneLoss_fixed port s t h)
  | govExchangeResult timeout => exact State.kept_of_fixed (execGovExchangeResult_fixed timeout s t h)
  | partnerDetect port => exact State.kept_of_fixed (execPartnerDetect_fixed port s t h)
  | portTrainComplete port ok rx tx => exact State.kept_of_fixed (execPortTrainComplete_fixed port ok rx tx s t h)
  | hello port m => exact State.kept_of_fixed (execHello_fixed port m s t h)
  | helloRepeat port => exact State.kept_of_fixed (execHelloRepeat_fixed port s t h)
  | pairReceive port p => exact State.kept_of_fixed (execPairReceive_fixed port p s t h)
  | ackTimeout port => exact State.kept_of_fixed (execAckTimeout_fixed port s t h)
  | laneSymThreshold port lane => exact State.kept_of_fixed (execLaneSymThreshold_fixed port lane s t h)
  | sparePrbsExclude port lane => exact State.kept_of_fixed (execSparePrbsExclude_fixed port lane s t h)
  | fastRetrainComplete port tx => exact State.kept_of_fixed (execFastRetrainComplete_fixed port tx s t h)
  | fastRetrainTimeout port => exact State.kept_of_fixed (execFastRetrainTimeout_fixed port s t h)
  | cplReceive port m => exact State.kept_of_fixed (execCplReceive_fixed port m s t h)
  | jfence port m => exact State.kept_of_fixed (execJfence_fixed port m s t h)
  | jfenceDone port m => exact State.kept_of_fixed (execJfenceDone_fixed port m s t h)
  | jfenceTimeout port => exact State.kept_of_fixed (execJfenceTimeout_fixed port s t h)
  | bcopy port m => exact State.kept_of_fixed (execBcopy_fixed port m s t h)
  | bcopyHandover port m => exact State.kept_of_fixed (execBcopyHandover_fixed port m s t h)
  | back port m => exact State.kept_of_fixed (execBack_fixed port m s t h)
  | bcopyTimeout port => exact State.kept_of_fixed (execBcopyTimeout_fixed port s t h)
  | fullRetrain port v => exact State.kept_of_fixed (execFullRetrain_fixed port v s t h)
  | fastRetrain port v => exact State.kept_of_fixed (execFastRetrain_fixed port v s t h)
  | portDisable port v => exact State.kept_of_fixed (execPortDisable_fixed port v s t h)
  | portEnable port v => exact State.kept_of_fixed (execPortEnable_fixed port v s t h)
  | sipRetrain port v => exact State.kept_of_fixed (execSipRetrain_fixed port v s t h)
  | lnkTest port v => exact State.kept_of_fixed (execLnkTest_fixed port v s t h)
  | memoryRead addr u => exact State.kept_of_fixed (execMemoryRead_fixed addr u s t h)
  | memoryWrite addr bytes u => exact State.kept_of_fixed (execMemoryWrite_fixed addr bytes u s t h)
  | criticalRead addr u => exact State.kept_of_fixed (execCriticalRead_fixed addr u s t h)
  | criticalWrite w addr v => exact State.kept_of_fixed (execCriticalWrite_fixed w addr v s t h)
  | dieErrThreshold stack die => exact State.kept_of_fixed (execDieErrThreshold_fixed stack die s t h)
  | ceRateLimit stack => exact State.kept_of_fixed (execCeRateLimit_fixed stack s t h)
  | scrubRead stack u => exact State.kept_of_fixed (execScrubRead_fixed stack u s t h)
  | scrubLapLimit stack => exact State.kept_of_fixed (execScrubLapLimit_fixed stack s t h)
  | rowCandidateWrite stack k => exact State.kept_of_fixed (execRowCandidateWrite_fixed stack k s t h)
  | caddyLinkUp nsze mdts => exact State.kept_of_fixed (execCaddyLinkUp_fixed nsze mdts s t h)
  | caddyLinkDown => exact State.kept_of_fixed (execCaddyLinkDown_fixed s t h)
  | nvmeCompletion ok data => exact State.kept_of_fixed (execNvmeCompletion_fixed ok data s t h)
  | nvmeCmdTimeout => exact State.kept_of_fixed (execNvmeCmdTimeout_fixed s t h)
  | caddyDeviceAccess write addr bytes => exact State.kept_of_fixed (execCaddyDeviceAccess_fixed write addr bytes s t h)
  | preemptPin => exact State.kept_of_fixed (execPreemptPin_fixed s t h)
  | preemptMarginExpiry => exact State.kept_of_fixed (execPreemptMarginExpiry_fixed s t h)
  | ckpHandover w v => exact State.kept_of_fixed (execCkpHandover_fixed w v s t h)
  | powerSample o => exact State.kept_of_fixed (execPowerSample_fixed o s t h)
  | powerTrip => exact State.kept_of_fixed (execPowerTrip_fixed s t h)
  | powerTripRelease => exact State.kept_of_fixed (execPowerTripRelease_fixed s t h)
  | tempSample o => exact State.kept_of_fixed (execTempSample_fixed o s t h)
  | coolantSample o => exact State.kept_of_fixed (execCoolantSample_fixed o s t h)
  | sensorTimeout which => exact State.kept_of_fixed (execSensorTimeout_fixed which s t h)
  | warmIdleEnter => exact State.kept_of_fixed (execWarmIdleEnter_fixed s t h)
  | statusRead m => exact State.kept_of_fixed (execStatusRead_fixed m s t h)
  | alertAck m => exact State.kept_of_fixed (execAlertAck_fixed m s t h)
  | bind m => exact State.kept_of_fixed (execBind_fixed m s t h)
  | power m => exact State.kept_of_fixed (execPower_fixed m s t h)
  | keepWarm m => exact State.kept_of_fixed (execKeepWarm_fixed m s t h)
  | preempt m => exact State.kept_of_fixed (execPreempt_fixed m s t h)
  | jobFence m => exact State.kept_of_fixed (execJobFence_fixed m s t h)
  | rollback m => exact State.kept_of_fixed (execRollback_fixed m s t h)
  | reform m => exact State.kept_of_fixed (execReform_fixed m s t h)
  | handover m => exact State.kept_of_fixed (execHandover_fixed m s t h)
  | counterRead m => exact State.kept_of_fixed (execCounterRead_fixed m s t h)
  | recoverWrite m => exact State.kept_of_fixed (execRecoverWrite_fixed m s t h)
  | recoverCommit m => exact State.kept_of_fixed (execRecoverCommit_fixed m s t h)
  | statusReport => exact State.kept_of_fixed (execStatusReport_fixed s t h)
  | alertResend n => exact State.kept_of_fixed (execAlertResend_fixed n s t h)
  | i3cPoll answers => exact State.kept_of_fixed (execI3cPoll_fixed answers s t h)
  | sync y => exact State.kept_of_fixed (execSync_fixed y s t h)
  | syncTimeout => exact State.kept_of_fixed (execSyncTimeout_fixed s t h)
  | traceSample => exact State.kept_of_fixed (execTraceSample_fixed s t h)
  | refclkLoss => exact State.kept_of_fixed (execRefclkLoss_fixed s t h)
  | refclkReturn => exact State.kept_of_fixed (execRefclkReturn_fixed s t h)
  | tagHoldExpiry port tag => exact State.kept_of_fixed (execTagHoldExpiry_fixed port tag s t h)
  | inputEntersRange b => exact State.kept_of_fixed (execInputEntersRange_fixed b s t h)
  | preemptDeadline => exact State.kept_of_fixed (execPreemptDeadline_fixed s t h)
  | announce a => exact State.kept_of_fixed (execAnnounce_fixed a s t h)
  | reservedOpcode core o => exact State.kept_of_fixed (execReservedOpcode_fixed core o s t h)
  | reservedHostMessage m => exact State.kept_of_fixed (execReservedHostMessage_fixed m s t h)
  | reservedMgtMessage m => exact State.kept_of_fixed (execReservedMgtMessage_fixed m s t h)
  | mgtLinkUp => exact State.kept_of_fixed (execMgtLinkUp_fixed s t h)

/-- Settles O7. -/
theorem execKeepsQueueSealAndFuses : Obligations.ExecKeepsQueueSealAndFuses := fun _ _ _ => exec_kept

end Sys2Proof.Machine

/-! # Power and the start of bring-up

O4: the state after reset. O25: PWR_EN and 48 V in range start cold bring-up. O26: PWR_EN low is COLD. O27: a ring's dies come
up. -/

namespace Sys2Proof.Machine

/-! ## Reset and every rail off (R459, R556) -/

theorem State.peekAddr_reset {a : Nat} (ha : a ≠ blockBase .topMod 0 + Reg.TOP_STATE) : State.reset.peekAddr a = regReset a :=
  if_neg ha

/-- The COLD word of TOP_STATE: phase 1, every other field 0. -/
theorem State.topWord_reset : State.reset.peek .topMod 0 Reg.TOP_STATE = 0x100000000 := (rfl)

theorem State.topState_reset : State.reset.topState = stCold := by
  rw [State.topState, State.rfield, State.topWord_reset]
  decide

/-- Settles O4: the lists of the state of reset are empty, and TOP_STATE is its one register off its reset value. -/
theorem resetIsColdWithRegistersAtReset : Obligations.ResetIsColdWithRegistersAtReset :=
  ⟨State.topState_reset, rfl, rfl, fun _ => rfl, fun _ => rfl, fun _ => State.peekAddr_reset⟩

/-- The registers of a module whose rails are off are those of reset. -/
theorem State.peekAddr_powerOff (s : State) (pwrEn inRange : Bool) (a : Nat) :
    (s.powerOff pwrEn inRange).peekAddr a = State.reset.peekAddr a := (rfl)

theorem State.topState_powerOff (s : State) (pwrEn inRange : Bool) : (s.powerOff pwrEn inRange).topState = stCold :=
  State.topState_reset

/-- Settles O26: the next state has every rail off, which is the state of reset but for flash, fuses and what the module hears. -/
theorem powerEnableLowIsCold : Obligations.PowerEnableLowIsCold := by
  unfold Obligations.PowerEnableLowIsCold
  intro s hen
  have hexec : exec .pwrEnDeassert s = .next (s.powerOff false s.top.inRange) := congrArg Host.Outcome.next (if_pos hen)
  exact ⟨_, hexec, s.topState_powerOff .., rfl, rfl, rfl, rfl, rfl, rfl, rfl, rfl, rfl,
    fun a ha => (s.peekAddr_powerOff _ _ a).trans (State.peekAddr_reset ha)⟩

/-! ## SAFE (R472, R473) -/

theorem State.peek_mgtSend_ne (s : State) {b : RBlk} {i o : Nat} (h : blockBase b i + o ≠ blockBase .mgtMod 0 + Reg.MGT_TX)
    (type : Nat) (body : List Byte) : (s.mgtSend type body).peek b i o = s.peek b i o := by
  unfold State.mgtSend
  split
  · rfl
  · dsimp only
    split
    · rfl
    · exact State.peek_add_ne (s.send _) h 1

/-- Entering SAFE is a report: it shows in registers and messages. -/
theorem State.enterSafe_keeps (s : State) (cause : Nat) :
    let t := s.enterSafe cause
    t.mem = s.mem ∧ t.cores = s.cores ∧ t.dies = s.dies ∧ t.flash = s.flash ∧ t.fuse = s.fuse ∧ t.top = s.top ∧ t.sec = s.sec ∧
      t.tim = s.tim := by
  have h := s.enterSafe_calm cause
  simp only [State.calm, Prod.mk.injEq] at h
  simp only [h, and_self]

theorem State.topWord_alertPin (s : State) : s.alertPin.peek .topMod 0 Reg.TOP_STATE = s.peek .topMod 0 Reg.TOP_STATE := by
  unfold State.alertPin
  dsimp only
  rw [State.peek_rbit_ne _ (by decide), State.peek_rset_ne _ (by decide)]

/-- TOP_STATE in SAFE: its cause, phase 6 and state SAFE, and health FAILED but for cause 1. -/
theorem State.topWord_enterSafe (s : State) (cause : Nat) :
    let w := setFld (setFld (setFld (s.peek .topMod 0 Reg.TOP_STATE) 27 24 cause) 35 32 6) 3 0 stSafe
    (s.enterSafe cause).peek .topMod 0 Reg.TOP_STATE = if cause = 1 then w else setFld w 9 8 2 := by
  unfold State.enterSafe State.sendStatus
  dsimp only
  rw [State.peek_mgtSend_ne _ (by decide), State.topWord_alertPin]
  split
  · simp [State.setPhase, State.rset]
  · rw [State.peek_rbit_ne _ (by decide), State.setHealth, State.peek_rset_ne _ (by decide)]
    simp [State.setPhase, State.rset]

/-! ## Cold bring-up (R459, R461) -/

/-- `t` rests on the flash and fuses of `s` alone, with PWR_EN and 48 V, the timebase started, and no memory and no core. -/
structure State.Wakes (s t : State) : Prop where
  mem : t.mem = []
  cores : t.cores = []
  flash : t.flash = s.flash
  fuse : t.fuse = s.fuse
  started : t.tim.started = true
  enabled : t.top.pwrEn = true
  inRange : t.top.inRange = true

theorem State.Wakes.enterSafe {s t : State} (h : s.Wakes t) (cause : Nat) : s.Wakes (t.enterSafe cause) := by
  obtain ⟨hmem, hcores, -, hflash, hfuse, htop, -, htim⟩ := t.enterSafe_keeps cause
  exact ⟨hmem.trans h.mem, hcores.trans h.cores, hflash.trans h.flash, hfuse.trans h.fuse, htim ▸ h.started, htop ▸ h.enabled,
    htop ▸ h.inRange⟩

/-- The service rail is good, and the timebase starts. -/
def State.serviceOn (s : State) (b : BootObs) : State :=
  let u := s.powerOff true true
  { u with
    top := { u.top with boot := b }, tim := { u.tim with started := true }, ktl := { u.ktl with vCap := u.blend.power.vMax } }

/-- BRINGUP: the boot ROM looks for a firmware slot. -/
def State.booting (s : State) (b : BootObs) : State :=
  ((s.serviceOn b).rset .topMod 0 Reg.TOP_STATE 3 0 stBringup).rbit .mgtMod 0 Reg.MGT_STATUS 2 true

/-- The firmware of slot `k` runs, with power good. -/
def State.withFirmware (s : State) (b : BootObs) (k : Nat) : State :=
  let u := s.booting b
  { u with sec := { u.sec with slot := k }, top := { u.top with pwrGood := true, identityOk := b.identityVote } }

/-- The identity has been voted on. -/
def State.booted (s : State) (b : BootObs) (k : Nat) : State :=
  (s.withFirmware b k).rbit .secMod 0 Reg.SEC_STATUS 0 b.identityVote

section
variable (s : State) (b : BootObs) (k : Nat)

theorem State.wakes_booting : s.Wakes (s.booting b) := ⟨rfl, rfl, rfl, rfl, rfl, rfl, rfl⟩
theorem State.wakes_raiseDie0 : s.Wakes (s.booted b k).raiseDie0 := ⟨rfl, rfl, rfl, rfl, rfl, rfl, rfl⟩
theorem State.wakes_setPhase : s.Wakes ((s.booted b k).setPhase 2) := ⟨rfl, rfl, rfl, rfl, rfl, rfl, rfl⟩

theorem State.topWord_booting : (s.booting b).peek .topMod 0 Reg.TOP_STATE = 0x100000001 := by
  have hword : (s.serviceOn b).peek .topMod 0 Reg.TOP_STATE = 0x100000000 :=
    (State.peek_of_regs (s := State.reset) rfl ..).trans State.topWord_reset
  rw [State.booting, State.peek_rbit_ne _ (by decide), State.rset, State.peek_poke_self, hword]
  decide

theorem State.topWord_booted : (s.booted b k).peek .topMod 0 Reg.TOP_STATE = 0x100000001 := by
  have hregs : (s.withFirmware b k).regs = (s.booting b).regs := rfl
  rw [State.booted, State.peek_rbit_ne _ (by decide), State.peek_of_regs hregs, State.topWord_booting]

end

/-- Which slot starts rests on flash and fuses alone. -/
theorem State.bootSlot_of_kept {s t : State} (hflash : t.flash = s.flash) (hfuse : t.fuse = s.fuse) (b : BootObs) :
    t.bootSlot b = s.bootSlot b := by
  unfold State.bootSlot
  rw [hflash, hfuse]

/-! ### What the boot ROM finds -/

section
variable {s : State} {b : BootObs} {k : Nat}

theorem State.coldStart_noSlot (h : s.bootSlot b = none) : s.coldStart b = (s.booting b).enterSafe 1 := by
  unfold State.coldStart
  dsimp only
  split
  case h_1 => rfl
  case h_2 k hk => cases ((State.bootSlot_of_kept (s := s) rfl rfl b).symm.trans hk).symm.trans h

theorem State.coldStart_slot (h : s.bootSlot b = some k) : s.coldStart b =
    if b.fuseVote = false then (s.booted b k).raiseDie0.enterSafe 2
    else if b.default0Ok = false ∧ b.default1Ok = false then (s.booted b k).raiseDie0.enterSafe 3
    else (s.booted b k).setPhase 2 := by
  unfold State.coldStart
  dsimp only
  split
  case h_1 hk => cases ((State.bootSlot_of_kept (s := s) rfl rfl b).symm.trans hk).symm.trans h
  case h_2 k' hk =>
    cases ((State.bootSlot_of_kept (s := s) rfl rfl b).symm.trans hk).symm.trans h
    simp only [Bool.not_eq_true, not_or]
    rfl

end

/-- Boot ends in SAFE with the cause that it found, and health FAILED where firmware found it. -/
theorem State.enterSafe_atBoot {u : State} (hw : u.peek .topMod 0 Reg.TOP_STATE = 0x100000001) {cause : Nat}
    (hc : cause = 1 ∨ cause = 2 ∨ cause = 3) :
    (u.enterSafe cause).topState = stSafe ∧ (u.enterSafe cause).safeCause = cause ∧
      (cause ≠ 1 → (u.enterSafe cause).health = 2) := by
  simp only [State.topState, State.safeCause, State.health, State.rfield, State.topWord_enterSafe, hw]
  rcases hc with rfl | rfl | rfl <;> decide

theorem State.wakes_coldStart (s : State) (b : BootObs) : s.Wakes (s.coldStart b) := by
  cases hslot : s.bootSlot b with
  | none => exact State.coldStart_noSlot hslot ▸ (s.wakes_booting b).enterSafe 1
  | some k =>
    rw [State.coldStart_slot hslot]
    split
    · exact (s.wakes_raiseDie0 b k).enterSafe 2
    · split
      · exact (s.wakes_raiseDie0 b k).enterSafe 3
      · exact s.wakes_setPhase b k

theorem State.noSlot_outcome (s : State) (b : BootObs) :
    let t := (s.booting b).enterSafe 1
    t.topState = stSafe ∧ t.safeCause = 1 ∧ t.dies = [] ∧ t.top.pwrGood = false := by
  obtain ⟨hstate, hcause, -⟩ := State.enterSafe_atBoot (s.topWord_booting b) (.inl rfl)
  obtain ⟨-, -, hdies, -, -, htop, -, -⟩ := (s.booting b).enterSafe_keeps 1
  exact ⟨hstate, hcause, hdies, congrArg Top.pwrGood htop⟩

/-- A failure that firmware finds leaves it running, in SAFE, with die 0 raised for the host link. -/
theorem State.firmwareSafe_outcome (s : State) (b : BootObs) (k : Nat) {cause : Nat} (hc : cause = 2 ∨ cause = 3) :
    let t := (s.booted b k).raiseDie0.enterSafe cause
    t.top.pwrGood = true ∧ t.sec.slot = k ∧ t.topState = stSafe ∧ t.safeCause = cause ∧ t.health = 2 := by
  have hword : (s.booted b k).raiseDie0.peek .topMod 0 Reg.TOP_STATE = 0x100000001 :=
    (State.peek_setDie ..).trans (s.topWord_booted b k)
  obtain ⟨hstate, hcause, hhealth⟩ := State.enterSafe_atBoot hword (.inr hc)
  obtain ⟨-, -, -, -, -, htop, hsec, -⟩ := (s.booted b k).raiseDie0.enterSafe_keeps cause
  exact ⟨congrArg Top.pwrGood htop, congrArg Sec.slot hsec, hstate, hcause, hhealth (by omega)⟩

/-- With firmware, fuses and a default Blend the module goes on with BRINGUP, in phase 2. -/
theorem State.bringup_outcome (s : State) (b : BootObs) (k : Nat) :
    let t := (s.booted b k).setPhase 2
    t.top.pwrGood = true ∧ t.sec.slot = k ∧ t.topState = stBringup ∧ t.rfield .topMod 0 Reg.TOP_STATE 35 32 = 2 ∧
      t.dies = [] := by
  refine ⟨rfl, rfl, ?_, ?_, rfl⟩
  all_goals
    simp only [State.topState, State.rfield, State.setPhase, State.rset, State.peek_poke_self, s.topWord_booted b k]
    decide

theorem exec_pwrEnAssert {s : State} (he : s.top.pwrEn = false) (b : BootObs) : exec (.pwrEnAssert b) s =
    .next (if s.top.inRange then s.coldStart b else { s with top := { s.top with pwrEn := true } }) :=
  congrArg Host.Outcome.next (if_neg (by simp [he]))

theorem exec_inputEntersRange {s : State} (hr : s.top.inRange = false) (b : BootObs) : exec (.inputEntersRange b) s =
    .next (if s.top.pwrEn then s.coldStart b else { s with top := { s.top with inRange := true } }) :=
  congrArg Host.Outcome.next (if_neg (by simp [hr]))

/-- Settles O25: the second of the two conditions runs the cold start, whose outcome follows what ROM and firmware find. -/
theorem powerOnStartsBringup : Obligations.PowerOnStartsBringup := by
  unfold Obligations.PowerOnStartsBringup
  intro s b up
  have hup : up (s.coldStart b) := by
    have hwakes := s.wakes_coldStart b
    refine ⟨hwakes.mem, hwakes.cores, hwakes.flash, hwakes.fuse, hwakes.started, hwakes.enabled, hwakes.inRange, ?_⟩
    cases hslot : s.bootSlot b with
    | none => exact State.coldStart_noSlot hslot ▸ s.noSlot_outcome b
    | some k =>
      rw [State.coldStart_slot hslot]
      by_cases hfuse : b.fuseVote = false
      · simp only [if_pos hfuse]
        exact s.firmwareSafe_outcome b k (.inl rfl)
      · by_cases hblend : b.default0Ok = false ∧ b.default1Ok = false
        · simp only [if_neg hfuse, if_pos hblend]
          exact s.firmwareSafe_outcome b k (.inr rfl)
        · simp only [if_neg hfuse, if_neg hblend]
          exact s.bringup_outcome b k
  refine ⟨fun he hr => ⟨_, ?_, hup⟩, fun hr he => ⟨_, ?_, hup⟩, fun he hr => ⟨?_, ?_⟩⟩
  · rw [exec_pwrEnAssert he, if_pos hr]
  · rw [exec_inputEntersRange hr, if_pos he]
  · rw [exec_pwrEnAssert he, if_neg (by simp [hr])]
  · rw [exec_inputEntersRange hr, if_neg (by simp [he])]

/-! ## Rings (R465) -/

/-- A die as the start of its ring leaves it. -/
def Die.raised (x : Die) (d : Nat) : Die := { x with phase := 1, rails := if (diePort d).isSome then 7 else 3 }

theorem State.die_railsUp (s : State) (a d : Nat) : (s.railsUp a).die d = if d = a then (s.die d).raised d else s.die d := by
  split
  case isTrue h => subst h; exact s.die_setDie_self d _
  case isFalse h => exact s.die_setDie_ne h _

theorem State.die_foldl_railsUp (l : List Nat) (s : State) (d : Nat) :
    (l.foldl State.railsUp s).die d = if d ∈ l then (s.die d).raised d else s.die d := by
  induction l generalizing s with
  | nil => rfl
  | cons a l ih =>
    rw [List.foldl_cons, ih, State.die_railsUp]
    by_cases ha : d = a <;> by_cases hl : d ∈ l <;> simp [ha, hl, Die.raised]

theorem State.top_foldl_railsUp (l : List Nat) (s : State) : (l.foldl State.railsUp s).top = s.top :=
  foldl_keeps (P := fun u : State => u.top = s.top) State.railsUp (fun _ _ h => h) l s rfl

theorem mem_ringDies {r d : Nat} : d ∈ ringDies r ↔ d < 64 ∧ dieRing d = r := by simp [ringDies]

/-- The ring is under way before its dies come up: counted, and in phase 3. -/
def State.ringBegun (s : State) : State :=
  let u := (s.rset .topMod 0 Reg.TOP_STATE 31 30 s.top.ringsStarted).setPhase 3
  { u with top := { u.top with ringsStarted := s.top.ringsStarted + 1 } }

theorem exec_ringStart {s : State} (hb : s.topState = stBringup) (hr : s.top.ringsStarted < 4) :
    exec .ringStart s = .next ((ringDies s.top.ringsStarted).foldl State.railsUp s.ringBegun) :=
  congrArg Host.Outcome.next (if_neg (by simp [hb, hr]))

/-- Settles O27: the dies of the ring come up one after another, and each is of that ring alone. -/
theorem ringStartRaisesItsDies : Obligations.RingStartRaisesItsDies := by
  unfold Obligations.RingStartRaisesItsDies
  intro s hb hr
  refine ⟨_, exec_ringStart hb hr, State.top_foldl_railsUp _ s.ringBegun, fun d hd => ?_⟩
  have hdie : s.ringBegun.die d = s.die d := rfl
  rw [State.die_foldl_railsUp, hdie]
  by_cases hring : dieRing d = s.top.ringsStarted
  · rw [if_pos hring, if_pos (mem_ringDies.mpr ⟨hd, hring⟩)]
    rfl
  · rw [if_neg hring, if_neg fun hmem => hring (mem_ringDies.mp hmem).2]

end Sys2Proof.Machine

/-! # A step of the block

O1: a step runs the front command. O2: with none it is one cycle. O5: the stores of reset. O8: what every step keeps. -/

namespace Sys2Proof.Machine

/-- Settles O1: a step looks at the queue alone to choose what it does. -/
theorem stepRunsFrontCommand : Obligations.StepRunsFrontCommand := fun c q s h => by simp only [step, h]

theorem step_of_empty {s : State} (h : s.pending = []) : step s = .next s.tick := by simp only [step, h]

/-- A cycle changes neither the queue nor a fuse. -/
theorem State.kept_tick (s : State) : s.Kept s.tick := State.kept_of_fixed s.tick_fixed

theorem State.tick_of_stopped {s : State} (h : s.tim.started = false) : s.tick = s := if_pos (by simp [h])

/-- Settles O2: of what a cycle does, the queue is no part. -/
theorem idleStepIsOneClockCycle : Obligations.IdleStepIsOneClockCycle :=
  fun s h => ⟨step_of_empty h, s.kept_tick.queue.trans h, State.tick_of_stopped⟩

/-- Settles O5: the three stores of reset are empty. -/
theorem resetStoresAreCanonical : Obligations.ResetStoresAreCanonical := by
  unfold Obligations.ResetStoresAreCanonical
  decide

/-- A step is a cycle on an empty queue, and otherwise keeps what its command keeps of the queue behind it. -/
theorem kept_step {s t : State} (h : step s = .next t) : State.Kept { s with pending := s.pending.tail } t := by
  cases hq : s.pending with
  | nil =>
    have hrest : ({ s with pending := [] } : State) = s := by rw [← hq]
    rw [step_of_empty hq] at h
    cases h
    rw [List.tail_nil, hrest]
    exact s.kept_tick
  | cons c q => exact exec_kept ((stepRunsFrontCommand c q s hq).symm.trans h)

/-- Settles O8: what exec keeps of seal and epoch, a step keeps, from the queue behind the front command. -/
theorem stepKeepsSealAndTakesOneCommand : Obligations.StepKeepsSealAndTakesOneCommand := fun _ _ h =>
  have hkept := kept_step h
  ⟨hkept.queue, hkept.epoch, hkept.owner⟩

end Sys2Proof.Machine

/-! # Power that is gone

O12: with 48 V out of range every rail is off, and flash and fuses alone decide the next state. -/

namespace Sys2Proof.Machine

theorem exec_inputOutOfRange (s : State) : exec .inputOutOfRange s = .next (s.powerOff s.top.pwrEn false) := rfl

/-- Of a state, a module whose rails are off holds flash, fuses, its inputs, and the model's own fields. -/
theorem State.powerOff_eq {s u : State} (hflash : s.flash = u.flash) (hfuse : s.fuse = u.fuse) (hqueue : s.pending = u.pending)
    (hfree : s.freeIx = u.freeIx) (hout : s.out = u.out) (hclk : s.tim.refclk = u.tim.refclk) (pwrEn inRange : Bool) :
    s.powerOff pwrEn inRange = u.powerOff pwrEn inRange := by
  unfold State.powerOff
  rw [hflash, hfuse, hqueue, hfree, hout, hclk]

/-- Settles O12: the row takes every rail off, and its next state rests on what State.powerOff_eq names. -/
theorem powerLossKeepsOnlyFlashAndFuses : Obligations.PowerLossKeepsOnlyFlashAndFuses := by
  refine ⟨fun s => ⟨_, exec_inputOutOfRange s, s.topState_powerOff .., fun _ => rfl, rfl, rfl⟩,
    fun s u hflash hfuse hqueue hfree hout hclk hen => ?_⟩
  rw [exec_inputOutOfRange, exec_inputOutOfRange, hen, State.powerOff_eq hflash hfuse hqueue hfree hout hclk]

end Sys2Proof.Machine

/-! # Events and status bits

What a bit of a register reads once hardware has set or cleared it, and once an event has been raised. -/

namespace Sys2Proof.Machine

theorem State.rflag_rbit_true (s : State) (b : RBlk) (i o : Nat) {n : Nat} (h : n < 64) :
    (s.rbit b i o n true).rflag b i o n = true := by
  rw [State.rflag, State.rbit, State.rset, State.peek_poke_self]
  exact flag_setFld_one _ h

theorem State.rflag_rbit_false (s : State) (b : RBlk) (i o n : Nat) : (s.rbit b i o n false).rflag b i o n = false := by
  rw [State.rflag, State.rbit, State.rset, State.peek_poke_self]
  exact flag_setFld_zero _ n

/-- An event that is raised is latched, for the trace counts in registers of its own. -/
theorem State.rflag_raise_self (s : State) {b : RBlk} {i o n : Nat} (h : n < 64)
    (hrec : blockBase b i + o ≠ blockBase .trcMod 0 + Reg.TRC_RECORDS)
    (hdrop : blockBase b i + o ≠ blockBase .trcMod 0 + Reg.TRC_DROPPED) : (s.raise b i o n).rflag b i o n = true := by
  unfold State.raise
  split
  · next hset => exact hset
  · rw [State.rflag, State.peek_trace_ne _ hrec hdrop]
    exact s.rflag_rbit_true b i o h

theorem State.mgt_trace (s : State) (kind block die core : Nat) (payload : List Byte) :
    (s.trace kind block die core payload).mgt = s.mgt := by
  unfold State.trace
  dsimp only
  split
  · rfl
  · split
    · rfl
    · split <;> rfl

/-- Raising an event sends no management message. -/
theorem State.mgt_raise (s : State) (b : RBlk) (i o n : Nat) : (s.raise b i o n).mgt = s.mgt := by
  unfold State.raise
  split
  · rfl
  · exact State.mgt_trace ..

end Sys2Proof.Machine

/-! # The Kettle

O40: trips of dies and of power, and their release. O41: samples of power, temperature and coolant, and WARM_IDLE. -/

namespace Sys2Proof.Machine

/-! ## A key that is written twice -/

section
variable {β : Type} (m : Smap β) (n : Nat) (x y : β)

theorem Smap.put_put : Smap.put (Smap.put m n x) n y = Smap.put m n y := by
  induction m with
  | nil => simp [Smap.put]
  | cons e m ih =>
    obtain ⟨k, w⟩ := e
    rcases Nat.lt_trichotomy n k with hlt | rfl | hgt
    · simp [Smap.put, hlt]
    · simp [Smap.put]
    · simp [Smap.put, hgt.ne', hgt.not_gt, ih]

theorem Smap.del_put : Smap.del (Smap.put m n x) n = Smap.del m n := by
  induction m with
  | nil => simp [Smap.put, Smap.del]
  | cons e m ih =>
    obtain ⟨k, w⟩ := e
    rcases Nat.lt_trichotomy n k with hlt | rfl | hgt
    · simp [Smap.put, Smap.del, hlt]
    · simp [Smap.put, Smap.del]
    · simp [Smap.put, Smap.del, hgt.ne', hgt.not_gt, ih]

/-- Of two writes to a key only the second counts, where the first listed a value. -/
theorem Smap.set_set [DecidableEq β] {d x : β} (hx : x ≠ d) : Smap.set d (Smap.set d m n x) n y = Smap.set d m n y := by
  rw [Smap.set_eq d _ n y, Smap.set_eq d m n x, if_neg hx, Smap.set_eq, Smap.put_put, Smap.del_put]

end

/-! ## Dies -/

theorem State.dies_of_calm {s t : State} (h : t.calm = s.calm) : t.dies = s.dies := by
  simp only [State.calm, Prod.mk.injEq] at h
  simp only [h]

theorem State.die_of_calm {s t : State} (h : t.calm = s.calm) (d : Nat) : t.die d = s.die d := by
  simp only [State.die, State.dies_of_calm h]

theorem State.setDie_setDie (s : State) (d : Nat) {x : Die} (hx : x ≠ Die.off) (y : Die) :
    (s.setDie d x).setDie d y = s.setDie d y :=
  congrArg (fun m => { s with dies := m }) (Smap.set_set s.dies d y hx)

/-- A die with its core rail off. -/
def Die.coreOff (x : Die) : Die := { x with rails := x.rails % 8 }

theorem State.coreRailOff_eq (s : State) (d : Nat) : s.coreRailOff d = s.setDie d (s.die d).coreOff := rfl

theorem Die.coreOff_coreOff (x : Die) : x.coreOff.coreOff = x.coreOff := by simp [Die.coreOff]

theorem State.die_coreRailOff (s : State) (a d : Nat) : (s.coreRailOff a).die d = if d = a then (s.die d).coreOff else s.die d := by
  rw [State.coreRailOff_eq]
  split
  case isTrue h => subst h; exact s.die_setDie_self d _
  case isFalse h => exact s.die_setDie_ne h _

theorem State.die_foldl_coreRailOff (l : List Nat) (s : State) (d : Nat) :
    (l.foldl State.coreRailOff s).die d = if d ∈ l then (s.die d).coreOff else s.die d := by
  induction l generalizing s with
  | nil => rfl
  | cons a l ih =>
    rw [List.foldl_cons, ih, State.die_coreRailOff]
    by_cases ha : d = a <;> by_cases hl : d ∈ l <;> simp [ha, hl, Die.coreOff_coreOff]

/-- The KTL_DIE registers lie past every other register of the Kettle. -/
theorem State.peek_showDies (s : State) {o : Nat} (h : o < Reg.KTL_DIE) : s.showDies.peek .ktlMod 0 o = s.peek .ktlMod 0 o :=
  foldl_keeps (P := fun u : State => u.peek .ktlMod 0 o = s.peek .ktlMod 0 o) _
    (fun _ _ hu => (State.peek_poke_ne _ (by omega) _).trans hu) s.dies s rfl

/-! ## Trips (R494, R561, R563) -/

theorem exec_thermalTrip {s : State} {d : Nat} (hd : d < 64) (hon : (s.die d).coreOn = true) :
    let u := s.setDie d { s.die d with tripped := true, rails := (s.die d).rails % 8 }
    let v := (u.add .ktlMod 0 Reg.KTL_TRIPS 1).raise .ktlMod 0 Reg.KTL_EVENT 2
    exec (.thermalTrip d) s = .next (((v.tripDies [d]).showDies).settleStreams) := by
  have htripped : ({ s.die d with tripped := true } : Die) ≠ Die.off := fun h => Bool.noConfusion (congrArg Die.tripped h)
  have hdie : (s.setDie d { s.die d with tripped := true }).coreRailOff d =
      s.setDie d { s.die d with tripped := true, rails := (s.die d).rails % 8 } := by
    rw [State.coreRailOff_eq, State.die_setDie_self, State.setDie_setDie s d htripped]
    rfl
  change execThermalTrip d s = _
  simp only [execThermalTrip, hdie, hon, Nat.not_le.mpr hd, not_true_eq_false, or_self, if_false]

theorem exec_powerTrip {s : State} (ht : s.powerTripped = false) :
    let on := (List.range 64).filter fun d => (s.die d).coreOn
    let u := on.foldl State.coreRailOff s
    let v := ((u.rbit .ktlMod 0 Reg.KTL_STATUS 12 true).raise .ktlMod 0 Reg.KTL_EVENT 6).add .ktlMod 0 Reg.KTL_POWER_TRIPS 1
    on ≠ [] → exec .powerTrip s = .next (((v.tripDies on).showDies).settleStreams) := by
  intro on u v hon
  refine congrArg Host.Outcome.next (if_neg ?trips)
  case trips => exact fun h => h.elim (by simp [ht]) fun hnone => hon (List.isEmpty_iff.mp hnone)

/-- What a power trip counts and raises leaves power_tripped set. -/
theorem State.powerTripped_tripped (u : State) :
    (((u.rbit .ktlMod 0 Reg.KTL_STATUS 12 true).raise .ktlMod 0 Reg.KTL_EVENT 6).add .ktlMod 0 Reg.KTL_POWER_TRIPS 1).powerTripped =
      true := by
  rw [State.powerTripped, State.rflag, State.peek_add_ne _ (by decide), State.peek_raise_ne _ (by decide) (by decide) (by decide)]
  exact State.rflag_rbit_true _ _ _ _ (by decide)

theorem exec_dieRelease {s : State} {d : Nat} (hd : d < 64) (ht : (s.die d).tripped = true) : exec (.dieRelease d) s =
    .next ((s.setDie d { s.die d with tripped := false }).raise .ktlMod 0 Reg.KTL_EVENT 3).showDies := by
  refine congrArg Host.Outcome.next (if_neg ?tripped)
  case tripped => simp [ht, Nat.not_le.mpr hd]

theorem exec_powerTripRelease {s : State} (ht : s.powerTripped = true) : exec .powerTripRelease s =
    .next ((s.rbit .ktlMod 0 Reg.KTL_STATUS 12 false).raise .ktlMod 0 Reg.KTL_EVENT 3).showDies :=
  congrArg Host.Outcome.next (if_neg (not_not_intro ht))

theorem State.powerTripped_released (s : State) :
    ((s.rbit .ktlMod 0 Reg.KTL_STATUS 12 false).raise .ktlMod 0 Reg.KTL_EVENT 3).showDies.powerTripped = false := by
  rw [State.powerTripped, State.rflag, State.peek_showDies _ (by decide), State.peek_raise_ne _ (by decide) (by decide) (by decide)]
  exact State.rflag_rbit_false ..

/-- Settles O40: a trip writes the rails of the dies it takes off; what a release raises and shows reaches no die. -/
theorem tripsTakeCoreRailsOff : Obligations.TripsTakeCoreRailsOff := by
  refine ⟨fun s d hd hon => exec_thermalTrip hd hon,
    fun s ht hon => ⟨fun d => State.die_foldl_coreRailOff _ s d, State.powerTripped_tripped _, exec_powerTrip ht hon⟩,
    fun s d hd ht => ⟨_, exec_dieRelease hd ht, ?released, fun e he => ?others⟩,
    fun s ht => ⟨_, exec_powerTripRelease ht, s.powerTripped_released, State.dies_of_calm (by simp)⟩⟩
  all_goals rw [State.die_of_calm (State.showDies_calm _), State.die_of_calm (State.raise_calm ..)]
  case released => exact s.die_setDie_self d _
  case others => exact s.die_setDie_ne he _

/-! ## Samples (R558, R559, R562, R563, R566, R571) -/

section
variable {s : State}

section
variable (hp : s.powered = true)
include hp

theorem exec_powerSample (o : PowerObs) :
    let p := o.millivolts * o.deciAmps
    let ps := (s.ktl.powers ++ [p]).drop (s.ktl.powers.length - 99)
    let e := s.ktl.energy + p
    let u : State := { s with ktl := { s.ktl with powers := ps, energy := e % 1000000000 } }
    let v := (u.add .ktlMod 0 Reg.KTL_ENERGY (e / 1000000000)).poke .ktlMod 0 Reg.KTL_INPUT
      (mkWord [((ps.foldl (· + ·) 0 / (10000 * ps.length)) % 2 ^ 32, 32), (o.deciAmps % 65536, 16), (o.millivolts % 65536, 0)])
    exec (.powerSample o) s = .next (((v.moveRamp.moveCap p).showKettle).showDies) :=
  congrArg Host.Outcome.next (if_neg (not_not_intro hp))

theorem exec_coolantSample (o : CoolantObs) :
    let flow : Int := (o.flow : Int) + s.calibOf 3 0
    let inlet := o.inlet + s.calibOf 4 0
    let outlet := o.outlet + s.calibOf 5 0
    let u : State := { s with ktl := { s.ktl with run := if 5500 ≤ flow ∧ inlet ≤ 560 then s.ktl.run + 1 else 0 } }
    let w := mkWord [(ofSigned 16 flow, 32), (ofSigned 16 outlet, 16), (ofSigned 16 inlet, 0)]
    exec (.coolantSample o) s = .next ((u.poke .ktlMod 0 Reg.KTL_COOLANT w).judgeMode s.liquidNow) := by
  change execCoolantSample o s = _
  simp only [execCoolantSample, hp, not_true_eq_false, if_false, Bool.and_eq_true, decide_eq_true_eq]

theorem exec_sensorTimeout (n : Nat) :
    let u : State := { s with ktl := { s.ktl with run := 0 } }
    exec (.sensorTimeout n) s = .next ((u.raise .ktlMod 0 Reg.KTL_EVENT 8).judgeMode s.liquidNow) :=
  congrArg Host.Outcome.next (if_neg (not_not_intro hp))

end

section
variable {o : TempObs} (hd : o.die < 64) (hph : (s.die o.die).phase ≠ 0)
include hd hph

/-- Two working junction sensors are enough for the die's limit to follow the highest. -/
theorem exec_tempSample_enough {t : Int} (hj : 2 ≤ o.junction.length) (ht : o.junction.max? = some t) :
    let thr : Int := 16 * s.rfield .ktlMod 0 Reg.KTL_CTRL 15 8
    let top := t + s.calibOf 1 o.die
    let u := s.setDie o.die ((s.die o.die).heat (decide (thr ≤ 16 * o.stack) || decide (thr ≤ top)) (decide (top < thr - 48)))
    let r := Reg.KTL_DIE + 8 * o.die
    exec (.tempSample o) s = .next
      ((((u.rset .ktlMod 0 r 31 16 (ofSigned 16 top)).rset .ktlMod 0 r 15 8 (ofSigned 8 o.stack)).judgeThrottle o.die).showDies) := by
  change execTempSample o s = _
  simp only [execTempSample, Nat.not_le.mpr hd, hph, ht, Nat.not_lt.mpr hj, or_self, if_false, Option.map_some,
    decide_false, Bool.false_eq_true]

theorem exec_tempSample_few (hj : o.junction.length < 2) :
    let u := (s.setDie o.die { s.die o.die with limit := s.blend.power.vMin, hot := 0, cool := 0 }).raise .ktlMod 0 Reg.KTL_EVENT 8
    let r := Reg.KTL_DIE + 8 * o.die
    let v := match o.junction.max? with
      | some t => u.rset .ktlMod 0 r 31 16 (ofSigned 16 (t + s.calibOf 1 o.die))
      | none => u
    exec (.tempSample o) s = .next (((v.rset .ktlMod 0 r 15 8 (ofSigned 8 o.stack)).judgeThrottle o.die).showDies) := by
  change execTempSample o s = _
  simp only [execTempSample, Nat.not_le.mpr hd, hph, hj, or_self, if_false, decide_true, if_true]
  cases o.junction.max? <;> rfl

end

/-! ## WARM_IDLE (R564) -/

/-- READY, or RUNNING with no step running and no core at work, is idle. -/
theorem exec_warmIdleEnter (hidle : s.topState = stReady ∨ s.topState = stRunning ∧ s.job.st ≠ .running ∧
      (∀ e ∈ s.cores, e.2.st ≠ .running ∧ e.2.st ≠ .waiting)) (hw : s.warmTarget ≠ 0)
    (hr : ∀ e ∈ s.regions, e.2.tripped = false) :
    let u : State := { s with ktl := { s.ktl with warmFrom := s.topState } }
    exec .warmIdleEnter s = .next (((u.rbit .ktlMod 0 Reg.KTL_STATUS 10 true).raise .ktlMod 0 Reg.KTL_EVENT 7).setState stWarm) := by
  have hregions : s.regions.any (fun e => e.2.tripped) = false := List.any_eq_false.mpr fun e he => by simp [hr e he]
  refine congrArg Host.Outcome.next (if_neg ?idle)
  case idle =>
    rcases hidle with hready | ⟨hrunning, hjob, hcores⟩
    · simp [hready, hw, hregions]
    · have hrest : (s.cores.any fun e => decide (e.2.st = .running) || decide (e.2.st = .waiting)) = false :=
        List.any_eq_false.mpr fun e he => by simp [hcores e he]
      simp [hrunning, hjob, hrest, hw, hregions]

end

/-- Settles O41: each sample is heard where its row says, and the rest of the row is the clause. -/
theorem kettleSamplesTakeEffect : Obligations.KettleSamplesTakeEffect :=
  ⟨fun _ o hp => ⟨exec_powerSample hp o, rfl⟩,
    fun _ _ _ hd hph hj ht => exec_tempSample_enough hd hph hj ht,
    fun _ _ hd hph hj => exec_tempSample_few hd hph hj,
    fun _ o hp => exec_coolantSample hp o,
    fun _ n hp => exec_sensorTimeout hp n,
    fun _ => exec_warmIdleEnter⟩

end Sys2Proof.Machine

/-! # The Caddy store

O53: the store's link and commands, what its device reaches, notices of pre-emption, and the start of a handover. -/

namespace Sys2Proof.Machine

/-! ## The link (R518, R519, R521, R527) -/

/-- Commands wait in the order in which they are issued. -/
theorem State.nv_foldl_nvIssue (cs : List NvCmd) (s : State) : (cs.foldl State.nvIssue s).ckp.nv = s.ckp.nv ++ cs := by
  induction cs generalizing s with
  | nil => exact (List.append_nil _).symm
  | cons c cs ih =>
    have hone : (s.nvIssue c).ckp.nv = s.ckp.nv ++ [c] := by
      unfold State.nvIssue
      dsimp only
      split <;> rfl
    rw [List.foldl_cons, ih, hone, List.append_assoc, List.singleton_append]

theorem exec_caddyLinkUp {s : State} (hedge : (s.die 63).edgeReady = true) (hclk : s.tim.refclk = true)
    (hready : s.ckp.caddyReady = false) (hnv : s.ckp.nv = []) (nsze mdts : Nat) :
    let u : State := { s with ckp := { s.ckp with
      nsze := nsze, xfer := if mdts = 0 then 262144 else min (4096 * 2 ^ mdts) 262144, storeHead := [], goodSlots := [none, none] } }
    exec (.caddyLinkUp nsze mdts) s =
      .next (nvLinkUp.foldl State.nvIssue (u.rset .ckpMod 0 Reg.CKP_STATUS 25 24 u.boardPosition)) := by
  refine congrArg Host.Outcome.next (if_neg ?down)
  case down => simp [hedge, hclk, hready, hnv]

theorem exec_caddyLinkDown {s : State} (h : s.ckp.nv ≠ [] ∨ s.ckp.caddyReady = true) :
    exec .caddyLinkDown s = .next ((s.caddyDown.settleCkp).settleStreams.runQueues) := by
  refine congrArg Host.Outcome.next (if_neg ?there)
  case there => rcases h with hnv | hready <;> simp [*]

/-! ## Commands (R526, R527) -/

section
variable {s : State} {c : NvCmd} {rest : List NvCmd} (h : s.ckp.nv = c :: rest)
include h

theorem State.nvDone_ok (data : List Byte) : s.nvDone true data = s.nvNext rest fun s => s.nvOk c data := by
  simp only [State.nvDone, h, if_true]

/-- A command that fails is counted, and sent once more where it was not before. -/
theorem State.nvDone_failed (data : List Byte) : s.nvDone false data =
    let u := s.add .ckpMod 0 Reg.CKP_NVME_ERRS 1
    if c.retried then u.nvNext rest fun s => s.nvFailed c
    else State.send { u with ckp := { u.ckp with nv := { c with retried := true } :: rest } } (.nvme { c with retried := true }) := by
  simp only [State.nvDone, h, Bool.false_eq_true, if_false]

theorem State.nvLate_eq : s.nvLate = (s.send (.nvme { c with opcode := nvAbort, data := [] })).nvDone false [] := by
  simp only [State.nvLate, h]

end

theorem exec_nvmeCompletion (s : State) (ok : Bool) (data : List Byte) :
    exec (.nvmeCompletion ok data) s = .next ((s.nvDone ok data).settleStreams.runQueues) := rfl

theorem exec_nvmeCmdTimeout (s : State) : exec .nvmeCmdTimeout s = .next (s.nvLate.settleStreams.runQueues) := rfl

/-! ## Accesses of the device (R518) -/

section
variable {s : State} {a : Nat} {bs : List Byte}

theorem exec_caddyDeviceAccess_denied (h : populated a bs.length = false ∨
      (∀ r ∈ s.nvBuffer, ¬ (r.1 ≤ a ∧ a + bs.length ≤ r.1 + r.2)) ∧ s.ckp.nv = []) (w : Bool) :
    exec (.caddyDeviceAccess w a bs) s = .next ((s.add .ckpMod 0 Reg.CKP_DMA_REFUSED 1).answer .denied) := by
  refine congrArg Host.Outcome.next (if_pos (h.elim (fun hpop => .inr (by simp [hpop])) fun hout => .inl ?outside))
  case outside =>
    obtain ⟨hbuf, hnv⟩ := hout
    have hnone : (s.nvBuffer.any fun r => decide (r.1 ≤ a ∧ a + bs.length ≤ r.1 + r.2)) = false :=
      List.any_eq_false.mpr fun r hr => by simpa using hbuf r hr
    simp only [hnone, hnv, List.isEmpty_nil, Bool.not_true, Bool.false_and, Bool.false_eq_true, or_self, not_false_eq_true]

/-- Inside a buffer of the command outstanding the device reads and writes bonded memory. -/
theorem exec_caddyDeviceAccess_inside {b n : Nat} (hmem : (b, n) ∈ s.nvBuffer) (hlo : b ≤ a) (hhi : a + bs.length ≤ b + n)
    (hpop : populated a bs.length = true) (w : Bool) : exec (.caddyDeviceAccess w a bs) s = .next (
      if w then (s.memWrite a bs).2.answer (s.memWrite a bs).1
      else ((s.memRead a bs.length).2.2.send (.dma (s.memRead a bs.length).2.1)).answer (s.memRead a bs.length).1) := by
  have hinside : (s.nvBuffer.any fun r => decide (r.1 ≤ a ∧ a + bs.length ≤ r.1 + r.2)) = true :=
    List.any_eq_true.mpr ⟨(b, n), hmem, decide_eq_true ⟨hlo, hhi⟩⟩
  refine congrArg Host.Outcome.next (if_neg ?reached)
  case reached => simp only [hinside, hpop, true_or, not_true_eq_false, or_self, not_false_eq_true]

end

/-! ## Pre-emption (R523, R524, R527, R603) -/

section
variable {s : State}

theorem exec_preemptPin_heard (h : s.topState = stRunning ∨ s.topState = stWarm) :
    exec .preemptPin s = .next ((s.notice (s.now + 30000000000)).settleStreams.runQueues) :=
  congrArg Host.Outcome.next (if_pos h)

theorem exec_preemptPin_ignored (hr : s.topState ≠ stRunning) (hw : s.topState ≠ stWarm) :
    exec .preemptPin s = .next (s.add .ckpMod 0 Reg.CKP_PREEMPT_IGNORED 1) :=
  congrArg Host.Outcome.next (if_neg (not_or.mpr ⟨hr, hw⟩))

theorem exec_preemptMarginExpiry {h : CkpReq} (hh : s.ckp.held = some h) (hp : h.preempt = true) (hj : s.job.st = .running) :
    exec .preemptMarginExpiry s =
      .next (((s.abandonStep.raise .ckpMod 0 Reg.CKP_EVENT 3).settleCkp).settleStreams.runQueues) := by
  have habandon : s.abandonForPreempt = (s.abandonStep.raise .ckpMod 0 Reg.CKP_EVENT 3).settleCkp := by
    simp only [State.abandonForPreempt, hh, hp, hj, and_self, if_true]
  exact congrArg (fun u : State => Host.Outcome.next u.settleStreams.runQueues) habandon

theorem exec_preemptDeadline {w : CkpWrite} (hw : s.ckp.write = some w) (hp : w.req.preempt = true) :
    exec .preemptDeadline s = .next (s.raise .ckpMod 0 Reg.CKP_EVENT 2) := by
  change execPreemptDeadline s = _
  simp only [execPreemptDeadline, hw, hp, if_true]

/-! ## A handover (R516, R517, R536) -/

/-- The write of CKP_HANDOVER that none of R536's statuses refuses. -/
theorem State.wrHandover_ok {v : Word} (hv : flag v 63 = true) (hsend : s.canSend (fld v 35 32) mBcopy ≠ .version)
    (hrole : s.portRole (fld v 35 32) = 3) (hrank : s.expectRank (fld v 35 32) = fld v 15 0)
    (hhold : fld (s.peek .ckpMod 0 Reg.CKP_BUDDY_HOLD) 31 30 = 2)
    (hstep : fld (s.peek .ckpMod 0 Reg.CKP_BUDDY_HOLD) 63 32 = (s.peek .ckpMod 0 Reg.CKP_HANDOVER_STEP).toNat % 2 ^ 32)
    (hhand : s.ckp.hand = none) (hrecv : s.ckp.recv = none) :
    s.wrHandover v = (.ok, s.goHand { port := fld v 35 32, step := fld (s.peek .ckpMod 0 Reg.CKP_BUDDY_HOLD) 63 32, block := 0
                                      tries := 0, tag := 0, rank := fld v 15 0 }) := by
  unfold State.wrHandover
  simp [firstStatus, hv, hsend, hrole, hrank, hhold, hstep, hhand, hrecv]

theorem exec_ckpHandover (s : State) (w : Writer) (v : Word) :
    exec (.ckpHandover w v) s = .next ((s.wrHandover v).2.answer (s.wrHandover v).1) := rfl

end

/-- Settles O53: each clause is its row where the row is heard, by what the front command, the buffer or the register holds. -/
theorem caddyStoreTakesEffect : Obligations.CaddyStoreTakesEffect := by
  refine ⟨fun s nsze mdts hedge hclk hready hnv => ?linkUp, fun s => exec_caddyLinkDown, fun s c rest data h => ?commands,
    fun s a bs w h => exec_caddyDeviceAccess_denied h w,
    fun s a b n bs hmem hlo hhi hpop => ⟨exec_caddyDeviceAccess_inside hmem hlo hhi hpop true,
      exec_caddyDeviceAccess_inside hmem hlo hhi hpop false⟩,
    fun s => ⟨exec_preemptPin_heard, exec_preemptPin_ignored⟩,
    fun s h => exec_preemptMarginExpiry, fun s w => exec_preemptDeadline,
    fun s w v hv hsend hrole hrank hhold hstep hhand hrecv => ?handover⟩
  case linkUp =>
    have hexec := exec_caddyLinkUp hedge hclk hready hnv nsze mdts
    exact ⟨hexec, _, hexec, (State.nv_foldl_nvIssue ..).trans (congrArg (· ++ nvLinkUp) hnv)⟩
  case commands =>
    intro u again
    refine ⟨?ok, fun hc => ?again, fun hc => ?fails, ?late⟩
    case ok => rw [exec_nvmeCompletion, State.nvDone_ok h]
    case again => rw [exec_nvmeCompletion, State.nvDone_failed h, hc]; rfl
    case fails => rw [exec_nvmeCompletion, State.nvDone_failed h, hc]; rfl
    case late => rw [exec_nvmeCmdTimeout, State.nvLate_eq h]
  case handover => rw [exec_ckpHandover, State.wrHandover_ok hv hsend hrole hrank hhold hstep hhand hrecv]

end Sys2Proof.Machine

/-! # Fuses

O54: sealing, the firmware's slots and the fused epoch. -/

namespace Sys2Proof.Machine

/-! ## SEC_SEAL (R543) -/

/-- The owner key hash is in the fuses. -/
def State.burnt (s : State) : State := { s with fuse := { s.fuse with owner := some (BitVec.ofNat 256 s.ownerHash) } }

section
variable {s : State} {v : Word} (hv : flag v 63 = true)
include hv

theorem exec_secSeal_malformed (h : fld v 31 0 ≠ 0x5345414C ∨ s.ownerHash = 0) (w : Writer) (same : Bool) :
    exec (.secSeal w v same) s = .next (s.answer .malformed) := by
  have hseal : s.wrSeal v same = (.malformed, s) := (if_neg (not_not_intro hv)).trans (if_pos h)
  exact congrArg (fun r : Status × State => Host.Outcome.next (r.2.answer r.1)) hseal

section
variable (hmagic : fld v 31 0 = 0x5345414C) (hkey : s.ownerHash ≠ 0)
include hmagic hkey

theorem exec_secSeal_sealed {o : BitVec 256} (ho : s.fuse.owner = some o) (w : Writer) (same : Bool) :
    exec (.secSeal w v same) s = .next (s.answer .denied) := by
  have hseal : s.wrSeal v same = (.denied, s) := by simp [State.wrSeal, hv, hmagic, hkey, ho]
  exact congrArg (fun r : Status × State => Host.Outcome.next (r.2.answer r.1)) hseal

/-- An unsealed module in READY with no job burns the fuses; what they read back decides the answer. -/
theorem exec_secSeal_burns (ho : s.fuse.owner = none) (hst : s.topState = stReady) (hj : s.job.isOpen = false) (w : Writer)
    (same : Bool) : exec (.secSeal w v same) s = .next (
      if same then (s.burnt.raise .secMod 0 Reg.SEC_EVENT 0).answer .ok else (s.failHealth 0).answer .checkFail) := by
  change execSecSeal w v same s = _
  simp only [execSecSeal, State.wrSeal, hv, hmagic, hkey, ho, hst, hj]
  cases same <;> simp [State.burnt]

end

/-! ## SEC_FW_CMD (R546, R547) -/

/-- A firmware command answers the status that it leaves in SEC_FW_STATUS. -/
theorem exec_fwUpdate (hc : fld v 62 60 = 1) (w : Writer) (same : Bool) :
    let r := s.fwWrite (fld v 48 0) same
    exec (.fwUpdate w v same) s = .next ((r.2.rset .secMod 0 Reg.SEC_FW_STATUS 35 32 r.1.code).answer r.1) := by
  change execFwUpdate w v same s = _
  simp [execFwUpdate, State.wrFwCmd, State.fwDone, hc, hv]

theorem exec_fwEpochRaise (hc : fld v 62 60 = 2) (w : Writer) :
    let r := s.fwRaise (fld v 48 0)
    exec (.fwEpochRaise w v) s = .next ((r.2.rset .secMod 0 Reg.SEC_FW_STATUS 35 32 r.1.code).answer r.1) := by
  change execFwEpochRaise w v s = _
  simp [execFwEpochRaise, State.wrFwCmd, State.fwDone, hc, hv]

end

theorem State.fwRaise_higher {s : State} (h : s.fuse.epoch < s.fwRunning.epoch) : s.fwRaise 0 =
    (.ok, State.raise { s with fuse := { s.fuse with epoch := s.fwRunning.epoch } } .secMod 0 Reg.SEC_EVENT 2) :=
  (if_neg (not_not_intro rfl)).trans (if_neg (Nat.not_le.mpr h))

theorem State.fwRaise_notHigher {s : State} (h : s.fwRunning.epoch ≤ s.fuse.epoch) : s.fwRaise 0 = (.denied, s) :=
  (if_neg (not_not_intro rfl)).trans (if_pos h)

theorem State.fuse_of_calm {s t : State} (h : t.calm = s.calm) : t.fuse = s.fuse := by
  simp only [State.calm, Prod.mk.injEq] at h
  simp only [h]

theorem State.rflag_raise_sec (s : State) {n : Nat} (h : n < 64) :
    (s.raise .secMod 0 Reg.SEC_EVENT n).rflag .secMod 0 Reg.SEC_EVENT n = true :=
  s.rflag_raise_self h (by decide) (by decide)

theorem State.getLast_answer (s : State) (st : Status) : (s.answer st).out.getLast? = some (.status st) := List.getLast?_concat

/-- Settles O54: the fuse written is the clause's, and the event that it raises and the answer change no other. -/
theorem fusesAreWrittenOnce : Obligations.FusesAreWrittenOnce := by
  refine fun s w v hv => ⟨fun ho hst hj hmagic hkey => ⟨?burnt, exec_secSeal_burns hv hmagic hkey ho hst hj w false⟩,
    fun same h => exec_secSeal_malformed hv h w same,
    fun h same ho hmagic hkey => exec_secSeal_sealed hv hmagic hkey ho w same,
    fun same hc => exec_fwUpdate hv hc w same, fun hc ha he => ?raised, fun hc ha he => ?refused⟩
  case burnt =>
    rw [exec_secSeal_burns hv hmagic hkey ho hst hj, if_pos rfl]
    have hcalm := s.burnt.raise_calm .secMod 0 Reg.SEC_EVENT 0
    have hmem := State.mem_of_calm hcalm
    exact ⟨_, rfl, State.fuse_of_calm hcalm, State.rflag_raise_sec _ (by decide), State.getLast_answer .., hmem⟩
  case raised =>
    rw [exec_fwEpochRaise hv hc, ha, State.fwRaise_higher he]
    refine ⟨_, rfl, State.fuse_of_calm (State.raise_calm ..), ?_, State.getLast_answer ..⟩
    rw [State.rflag, State.peek_answer, State.peek_rset_ne _ (by decide)]
    exact State.rflag_raise_sec _ (by decide)
  case refused => rw [exec_fwEpochRaise hv hc, ha, State.fwRaise_notHigher he]

end Sys2Proof.Machine

/-! # Requests and messages of the management port

O56: the requests of R575 that read or set something. O58: reserved types, reports, and the I3C sideband. -/

namespace Sys2Proof.Machine

/-! ## Requests (R575 to R579) -/

section
variable {s : State} {m : MgtMsg}

theorem exec_statusRead (h : s.MgtHears m gStatusRead) :
    exec (.statusRead m) s = .next ((s.mgtHeard m).gReply m .ok (s.mgtHeard m).statusBody) :=
  congrArg Host.Outcome.next (h.row (by decide) _)

theorem exec_alertAck (h : s.MgtHears m gAlertAck) :
    let u := s.mgtHeard m
    let v : State := { u with
      mgt := { u.mgt with alerts := u.mgt.alerts.filter fun a => !decide (a.num % 2 ^ 32 = leAt m.body 0 4) } }
    exec (.alertAck m) s = .next (v.alertPin.gReply m .ok []) :=
  congrArg Host.Outcome.next (h.row (by decide) _)

theorem exec_bind (h : s.MgtHears m gBind) :
    let u := s.mgtHeard m
    let v : State := { u with mgt := { u.mgt with manager := some m.src, replies := [] } }
    exec (.bind m) s = .next (((v.rbit .mgtMod 0 Reg.MGT_STATUS 1 true).raise .mgtMod 0 Reg.MGT_EVENT 0).gReply m .ok []) :=
  congrArg Host.Outcome.next (h.row (by decide) _)

section
variable (h : s.MgtHears m gPower)
include h

theorem exec_takes_power (hc : leAt m.body 0 4 ≤ (s.mgtHeard m).blend.power.cap) :
    let u := s.mgtHeard m
    let cap := leAt m.body 0 4
    let v : State := { u with mgt := { u.mgt with capOrder := if cap = 0 then none else some cap } }
    exec (.power m) s = .next (v.showKettle.gReply m .ok []) :=
  congrArg Host.Outcome.next ((h.row (by decide) _).trans (if_neg (Nat.not_lt.mpr hc)))

theorem exec_refuses_power (hc : (s.mgtHeard m).blend.power.cap < leAt m.body 0 4) :
    exec (.power m) s = .next ((s.mgtHeard m).gReply m .denied []) :=
  congrArg Host.Outcome.next ((h.row (by decide) _).trans (if_pos hc))

end

section
variable (h : s.MgtHears m gKeepWarm)
include h

theorem exec_takes_keepWarm
    (ht : leAt m.body 0 2 = 0 ∨ leAt m.body 0 2 = 0xFFFF ∨ 400 ≤ leAt m.body 0 2 ∧ leAt m.body 0 2 ≤ 850) :
    let u := s.mgtHeard m
    let t := leAt m.body 0 2
    let v : State := { u with mgt := { u.mgt with warmOrder := if t = 0xFFFF then none else some t } }
    exec (.keepWarm m) s = .next (v.gReply m .ok []) := by
  refine congrArg Host.Outcome.next ((h.row (by decide) _).trans (if_neg ?target))
  case target => omega

theorem exec_refuses_keepWarm
    (ht : ¬ (leAt m.body 0 2 = 0 ∨ leAt m.body 0 2 = 0xFFFF ∨ 400 ≤ leAt m.body 0 2 ∧ leAt m.body 0 2 ≤ 850)) :
    exec (.keepWarm m) s = .next ((s.mgtHeard m).gReply m .malformed []) := by
  refine congrArg Host.Outcome.next ((h.row (by decide) _).trans (if_pos ?target))
  case target => omega

end

theorem exec_counterRead (h : s.MgtHears m gCounterRead) (hlo : 1 ≤ leAt m.body 8 2) (hhi : leAt m.body 8 2 ≤ 128)
    (ha : 0x300000000000 ≤ leAt m.body 0 8) (hend : leAt m.body 0 8 + 8 * leAt m.body 8 2 ≤ 0x300100000000) :
    let u := s.mgtHeard m
    let r := pieces u.counterRead (leAt m.body 0 8) (8 * leAt m.body 8 2)
    exec (.counterRead m) s = .next (u.gReply m r.1 r.2) := by
  refine congrArg Host.Outcome.next ((h.row (by decide) _).trans (if_neg ?words))
  case words =>
    rw [decide_eq_true_eq]
    omega

end

/-- Settles O56: each clause is its row behind the checks of R574 to R577, which a request that is heard passes. -/
theorem managementRequestsTakeEffect : Obligations.ManagementRequestsTakeEffect :=
  fun _ _ => ⟨exec_statusRead, exec_alertAck, exec_bind, fun h => ⟨exec_takes_power h, exec_refuses_power h⟩,
    fun h => ⟨exec_takes_keepWarm h, exec_refuses_keepWarm h⟩, exec_counterRead⟩

/-! ## Messages of a reserved type (R12, R575) -/

/-- A type that is no request makes the message malformed, whatever else is wrong with it. -/
theorem exec_reservedMgtMessage {s : State} {m : MgtMsg} (hp : s.powered = true) (hup : s.mgtUp = true) (ha : gAddressed m = true)
    (ht : m.type.toNat ∉ gRequests) (hk : s.keptReply m = none) (hf : s.mgt.fence = none) (hj : s.job.isOpen = false) :
    exec (.reservedMgtMessage m) s = .next ((s.add .mgtMod 0 Reg.MGT_RX 1).leaveWarm.gReply m .malformed []) := by
  have hreserved : ¬ gRequests.contains m.type.toNat = true := by simpa using ht
  have hread : m.type.toNat ≠ gStatusRead := fun h => ht (h ▸ by decide)
  have hlink : ¬ (¬ s.powered = true ∨ ¬ s.mgtUp = true) := by simp [hp, hup]
  have hfresh : (s.add .mgtMod 0 Reg.MGT_RX 1).keptReply m = none := hk
  have hown : (s.add .mgtMod 0 Reg.MGT_RX 1).gForeign m = false := by simp [State.gForeign, hj]
  refine congrArg Host.Outcome.next ((if_neg hreserved).trans ?answered)
  case answered =>
    unfold State.mgtArrive
    rw [if_neg hlink, if_neg (not_not_intro ha)]
    simp [-List.contains_eq_mem, firstStatus, hfresh, hf, hown, hreserved, hread]

/-! ## Messages of the module's own (R578, R579) -/

theorem exec_statusReport {s : State} (hp : s.powered = true) : exec .statusReport s = .next s.sendStatus :=
  congrArg Host.Outcome.next (if_pos hp)

theorem exec_alertResend {s : State} {n : Nat} {a : Alert} (h : s.mgt.alerts.find? (fun a => decide (a.num = n)) = some a) :
    exec (.alertResend n) s = .next (s.mgtSend 3 (s.alertBody a)) := by
  change execAlertResend n s = _
  simp only [execAlertResend, h]

/-! ## The I3C sideband (R580) -/

/-- A poll of the first target alone. -/
theorem exec_i3cPoll_first {s : State} (hp : s.powered = true) (a : Option Word) :
    exec (.i3cPoll [a]) s = .next (s.sensorPoll 0 a) :=
  congrArg Host.Outcome.next (if_neg (not_not_intro hp))

theorem State.misses_sensorPoll_none (s : State) (i : Nat) :
    (s.sensorPoll i none).mgt.misses = setNth s.mgt.misses i (nth 0 s.mgt.misses i + 1) := by
  unfold State.sensorPoll
  dsimp only
  split
  · rw [State.mgt_raise]
  · rfl

/-- Settles O58: each message is heard or sent where its row says; a sensor's answer goes to its register, and only a miss counts. -/
theorem managementMessagesAreChecked : Obligations.ManagementMessagesAreChecked :=
  ⟨fun _ _ => exec_reservedMgtMessage, fun _ => exec_statusReport, fun _ _ _ => exec_alertResend,
    fun s w hp => ⟨⟨_, exec_i3cPoll_first hp (some w), State.peek_poke_self .., rfl⟩,
      ⟨_, exec_i3cPoll_first hp none, s.misses_sensorPoll_none 0⟩⟩⟩

end Sys2Proof.Machine

/-! # Time and the reference clock

O59: the best master, Syncs, the lock, trace samples and the inputs. O60: what goes down with the reference clock. -/

namespace Sys2Proof.Machine

/-! ## The best master (R584) -/

/-- An announcement in the domain in force, which no write of TIM_CTRL has changed. -/
theorem exec_announce {s : State} {a : PtpAnnounce} (hup : s.mgtUp = true) (ha : a.domain = s.tim.domain)
    (hd : s.rfield .timMod 0 Reg.TIM_CTRL 7 0 = s.tim.domain) : exec (.announce a) s = .next
      (State.rbit { s with tim := { s.tim with best := some (bestOf s.tim.best a.master) } } .timMod 0 Reg.TIM_STATUS 1 true) := by
  change execAnnounce a s = _
  simp only [execAnnounce, hup, ha, hd, not_true_eq_false, ne_eq, if_false, if_true]

/-! ## Syncs (R585) -/

theorem State.tim_of_calm {s t : State} (h : t.calm = s.calm) : t.tim = s.tim := by
  simp only [State.calm, Prod.mk.injEq] at h
  simp only [h]

theorem State.rflag_unlock (s : State) : s.unlock.rflag .timMod 0 Reg.TIM_STATUS 0 = false := s.rflag_rbit_false ..

theorem State.tim_stepTime (s : State) (x : Int) :
    (s.stepTime x).tim = { s.tim with ns := (((s.tim.ns : Int) - x) % 2 ^ 64).toNat, stepped := true } :=
  State.tim_of_calm (State.trace_calm (State.add _ ..) ..)

/-- Of the timebase, judging the lock sets the count of good Syncs alone; an offset that unlocks has ended it already. -/
theorem State.tim_judgeLock (s : State) (x : Int) :
    (s.judgeLock x).tim = { s.tim with good := if x.natAbs < 500 then s.tim.good + 1 else 0 } := by
  unfold State.judgeLock
  dsimp only
  generalize hgood : (if x.natAbs < 500 then s.tim.good + 1 else 0) = good
  split
  · have hfar : ¬ x.natAbs < 500 := by omega
    rw [← hgood, if_neg hfar]
    rfl
  · split <;> rfl

theorem State.judgeLock_unlocks (s : State) {x : Int} (h : 1000 < x.natAbs) :
    (s.judgeLock x).rflag .timMod 0 Reg.TIM_STATUS 0 = false := by
  unfold State.judgeLock
  dsimp only
  rw [if_pos h]
  exact State.rflag_unlock _

theorem State.judgeLock_locks (s : State) {x : Int} (h : x.natAbs < 500) (hg : 15 ≤ s.tim.good) :
    (s.judgeLock x).rflag .timMod 0 Reg.TIM_STATUS 0 = true := by
  have hnear : ¬ 1000 < x.natAbs := by omega
  have hmany : 16 ≤ s.tim.good + 1 := by omega
  unfold State.judgeLock
  dsimp only
  rw [if_neg hnear, if_pos h, if_pos hmany]
  exact State.rflag_rbit_true _ _ _ _ (by decide)

/-- A Sync is counted, and its offset shown. -/
def State.synced (s : State) (y : PtpSync) : State :=
  (s.add .timMod 0 Reg.TIM_SYNCS 1).rset .timMod 0 Reg.TIM_STATUS 63 32 (offset32 y.offset)

section
variable {s : State} {y : PtpSync} {b : PtpMaster} (hup : s.mgtUp = true) (hb : s.tim.best = some b) (hport : b.port = y.port)
  (hdom : y.domain = s.tim.domain)
include hup hb hport hdom

/-- A Sync of the selected master, in the domain in force, steps the timebase or slews it. -/
theorem exec_sync : exec (.sync y) s = .next (State.judgeLock
    (if s.tim.stepped = false ∨ 1000000 < y.offset.natAbs ∧ s.job.isOpen = false then (s.synced y).stepTime y.offset
      else (s.synced y).slew) y.offset) := by
  change execSync y s = _
  simp [execSync, hup, hb, hport, hdom, State.synced]

theorem exec_sync_steps (h : s.tim.stepped = false ∨ 1000000 < y.offset.natAbs ∧ s.job.isOpen = false) :
    exec (.sync y) s = .next (((s.synced y).stepTime y.offset).judgeLock y.offset) := by
  rw [exec_sync hup hb hport hdom, if_pos h]

theorem exec_sync_slews (hs : s.tim.stepped = true) (h : y.offset.natAbs ≤ 1000000 ∨ s.job.isOpen = true) :
    exec (.sync y) s = .next ((s.synced y).slew.judgeLock y.offset) := by
  have hslews : ¬ (s.tim.stepped = false ∨ 1000000 < y.offset.natAbs ∧ s.job.isOpen = false) := by
    rw [hs]
    rcases h with hnear | hopen
    · simp [Nat.not_lt.mpr hnear]
    · simp [hopen]
  rw [exec_sync hup hb hport hdom, if_neg hslews]

end

theorem exec_syncTimeout {s : State} (h : s.tim.started = true) :
    exec .syncTimeout s = .next (s.unlock.add .timMod 0 Reg.TIM_SYNC_TIMEOUTS 1) :=
  congrArg Host.Outcome.next (if_neg (not_not_intro h))

/-! ## Trace samples, and the reference clock (R588, R596, R604) -/

theorem exec_traceSample {s : State} (hp : s.powered = true) (hc : s.rfield .trcMod 0 Reg.TRC_CTRL 63 48 ≠ 0) :
    exec .traceSample s = .next ((List.range 16).foldl State.sampleSlot s) :=
  congrArg Host.Outcome.next (if_neg (not_or.mpr ⟨not_not_intro hp, hc⟩))

theorem exec_refclkLoss_unpowered {s : State} (hc : s.tim.refclk = true) (hp : s.powered = false) :
    exec .refclkLoss s = .next { s with tim := { s.tim with refclk := false } } :=
  congrArg Host.Outcome.next ((if_neg (not_not_intro hc)).trans (if_pos (Bool.eq_false_iff.mp hp)))

theorem exec_refclkReturn {s : State} (hc : s.tim.refclk = false) :
    exec .refclkReturn s = .next (State.showTrace { s with tim := { s.tim with refclk := true } }) :=
  congrArg Host.Outcome.next (if_neg (Bool.eq_false_iff.mp hc))

/-- Settles O59: each clause is its row where it is heard; the lock and the count of good Syncs are judged after the time is set. -/
theorem timeServiceTakesEffect : Obligations.TimeServiceTakesEffect := by
  refine ⟨fun s a hup ha hd => ⟨_, exec_announce hup ha hd, rfl, State.rflag_rbit_true _ _ _ _ (by decide)⟩,
    fun s y b hup hb hport hdom => ⟨fun h => ?steps, fun hs h => ?slews⟩,
    fun s h => ⟨_, exec_syncTimeout h, rfl, ?unlocked, ?counted⟩,
    fun s => exec_traceSample, fun s => exec_refclkLoss_unpowered, fun s => exec_refclkReturn,
    fun s => ⟨_, exec_inputOutOfRange s, s.topState_powerOff .., rfl, rfl, rfl, rfl, rfl, rfl, rfl⟩⟩
  case steps =>
    refine ⟨_, exec_sync_steps hup hb hport hdom h, ?_, ?_, ?_⟩ <;> rw [State.tim_judgeLock, State.tim_stepTime] <;> rfl
  case slews =>
    have htime := congrArg Tim.ns ((s.synced y).slew.tim_judgeLock y.offset)
    exact ⟨exec_sync_slews hup hb hport hdom hs h, htime, State.judgeLock_unlocks _,
      State.judgeLock_locks (s.synced y).slew⟩
  case unlocked =>
    rw [State.rflag, State.peek_add_ne _ (by decide)]
    exact s.rflag_unlock
  case counted =>
    rw [State.peek_add_self]
    exact congrArg (· + 1) (State.peek_rbit_ne s (by decide) 0 false)

/-! ## What goes down with the reference clock (R604) -/

theorem portDie_inj : ∀ p < 16, ∀ q < 16, portDie p = portDie q → p = q := by decide

/-- The registers of two link chiplets lie apart. -/
theorem lnkPort_ne_lnkPort {p q o o' : Nat} (hp : p < 16) (hq : q < 16) (h : p ≠ q) (ho : o < 0x100000) (ho' : o' < 0x100000) :
    blockBase .lnkPort p + o ≠ blockBase .lnkPort q + o' := by
  have hdie : portDie p ≠ portDie q := fun heq => h (portDie_inj p hp q hq heq)
  simp only [blockBase, dieWin]
  omega

/-- A Sip port that is up goes down. -/
def State.sipDowned (s : State) (p : Nat) : State := if s.sipUp p then s.sipGoesDown p else s

theorem State.sipUp_sipDowned_self (s : State) (p : Nat) : (s.sipDowned p).sipUp p = false := by
  unfold State.sipDowned
  split
  · next hup => exact State.sipUp_sipGoesDown hup
  · next hdown => exact Bool.eq_false_iff.mpr hdown

theorem State.sipUp_sipDowned_ne (s : State) {p q : Nat} (hp : p < 16) (hq : q < 16) (h : p ≠ q) :
    (s.sipDowned q).sipUp p = s.sipUp p := by
  unfold State.sipDowned
  split
  · next hup =>
    rw [State.sipGoesDown, if_neg (not_not_intro hup), State.sipUp, State.rflag, State.peek_setPort,
      State.peek_raise_ne _ (lnkPort_ne_lnkPort hp hq h (by decide) (by decide)) (lnkPort_ne_trcMod _ _ (by decide))
        (lnkPort_ne_trcMod _ _ (by decide)),
      State.peek_rbit_ne _ (lnkPort_ne_lnkPort hp hq h (by decide) (by decide))]
    split
    · rfl
    · rw [State.peek_check]
      rfl
  · rfl

/-- Once every port of a list has gone down, those of the list are down, and those that were stay so. -/
theorem State.sipUp_foldl_sipDowned {l : List Nat} (hl : ∀ q ∈ l, q < 16) {p : Nat} (hp : p < 16) (s : State)
    (h : p ∈ l ∨ s.sipUp p = false) : (l.foldl State.sipDowned s).sipUp p = false := by
  induction l generalizing s with
  | nil => exact h.resolve_left List.not_mem_nil
  | cons q l ih =>
    refine ih (fun r hr => hl r (List.mem_cons_of_mem q hr)) _ ?_
    by_cases hpq : p = q
    · exact .inr (hpq ▸ s.sipUp_sipDowned_self p)
    · rw [s.sipUp_sipDowned_ne hp (hl q List.mem_cons_self) hpq]
      exact h.imp_left fun hmem => (List.mem_cons.mp hmem).resolve_left hpq

/-- Settles O60: the row goes through the links in turn, and of the Sip ports none is left up. -/
theorem refclkLossTakesLinksDown : Obligations.RefclkLossTakesLinksDown := by
  intro s hc hp u v w x
  exact ⟨congrArg Host.Outcome.next ((if_neg (not_not_intro hc)).trans (if_neg (not_not_intro hp))),
    fun p hlt => State.sipUp_foldl_sipDowned (fun q hq => List.mem_range.mp hq) hlt v (.inl (List.mem_range.mpr hlt))⟩

end Sys2Proof.Machine
